-- ==== Sys2Proof/Word.lean ====
section
/-! DEFINITION. The word types of the module and the sparse table, the one container of keyed state. -/

namespace Sys2Proof

/-- A byte of tier memory or of a frame. -/
abbrev Byte := BitVec 8
/-- A scratchpad word or a general register (R98, R149). -/
abbrev Word := BitVec 32
/-- A 64-bit field of a descriptor, header or dictionary entry. -/
abbrev DWord := BitVec 64
/-- A block accumulator or partial sum (R62, R71). -/
abbrev Acc := BitVec 48
/-- One physical row of an array bank, bit p for physical column p (R30). -/
abbrev CellRow := BitVec 268

/-- Keyed state: keys strictly rising, no entry equal to what an unlisted key reads as. -/
abbrev Tab (α : Type) := List (Nat × α)

/-- ceil(a / b) of the spec's formulas. -/
def ceilDiv (a b : Nat) : Nat := (a + b - 1) / b

end Sys2Proof
end

