-- ==== Sys2Proof/Syntax.lean ====
section
/-! DEFINITION. The commands of the block: one constructor of `Instr` per row of spec/opcode_table.json, and the packets,
frames and events that commands carry. -/

namespace Sys2Proof

/-- Stand linear number (R8). -/
abbrev StandId := Fin 5000
/-- Service position (R97). -/
abbrev Pos := Fin 16
/-- General register number (R149). -/
abbrev Reg := Fin 32
/-- Scratchpad bank (R98). -/
abbrev SBank := Fin 32
/-- Receive window slot (R106). -/
abbrev WSlot := Fin 16
/-- Row within a window or a bank. -/
abbrev RowNo := Fin 32
/-- Node number with a unit (R210, Table 10.3). -/
abbrev NodeId := Fin 5107
/-- Port number (R334). -/
abbrev PortId := Fin 14

/-- The units of a stand that hold instructions (Table 6.1, Table 6.8). -/
inductive Engine where
  | ctrl | core (p : Pos) | out | dma | dmu | vec
  deriving DecidableEq, Repr

/-- Credit request payload (Table 4.6). -/
structure CreqMsg where
  window : Nat
  count : Nat
  mode : Bool
  row : Nat
  tag : Nat
  deriving DecidableEq, Repr

/-- Credit grant payload (Table 4.7). -/
structure CgrantMsg where
  window : Nat
  status : Nat
  gen : Nat
  mask : BitVec 32
  tag : Nat
  deriving DecidableEq, Repr

/-- Remote write header (Table 4.8). -/
structure WriteHdr where
  window : Nat
  row : Nat
  gen : Nat
  offset : Nat
  length : Nat
  final : Bool
  nwrites : Nat
  reserved : BitVec 26
  deriving DecidableEq, Repr

/-- Route of a multicast (Table 7.10, R214). -/
structure Route where
  bitmapMode : Bool
  x0 : Nat
  x1 : Nat
  y0 : Nat
  y1 : Nat
  reserved : BitVec 5
  bitmap : BitVec 256
  deriving DecidableEq, Repr

/-- REDUCE packet: type-specific fields (Table 7.9), reduction word (Table 7.12) and elements. -/
structure PartMsg where
  rid : Nat
  part : Nat
  nc : Nat
  carried : Nat
  lead : Bool
  window : Nat
  row : Nat
  gen : Nat
  count : Nat
  elems : List Acc
  deriving DecidableEq, Repr

/-- MEMREQ (Table 10.4): `op` 0 READ, 1 WRITE, 2 READ_TO_WINDOW. -/
structure MemReq where
  op : Nat
  tierB : Bool
  lock : Bool
  tag : Nat
  wm1 : Nat
  waddr : Nat
  data : List Word
  whdr : Option WriteHdr
  deriving DecidableEq, Repr

/-- MEMRSP (Table 10.6). -/
structure MemRsp where
  status : Nat
  tierB : Bool
  tag : Nat
  wm1 : Nat
  data : List Word
  deriving DecidableEq, Repr

/-- Packet types (Table 7.9). -/
inductive Body where
  | creq (m : CreqMsg)
  | cgrant (m : CgrantMsg)
  | write (h : WriteHdr) (data : List Word)
  | mcast (r : Route) (h : WriteHdr) (data : List Word)
  | reduce (m : PartMsg)
  | memreq (m : MemReq)
  | memrsp (m : MemRsp)
  | away (rtype : Nat) (w0 w1 : Word)
  | mgmt (tsf : Nat) (data : List Word)
  deriving DecidableEq, Repr

/-- A packet (Table 7.8): sender, destination, incarnations. -/
structure Packet where
  src : Nat
  dst : Nat
  dincv : Bool
  sinc : Nat
  dinc : Nat
  body : Body
  deriving DecidableEq, Repr

/-- The header of an Ethernet frame (R338): addresses, VLAN identifier when it is tagged, EtherType. -/
structure EtherHdr where
  dst : Nat
  src : Nat
  vlan : Option Nat
  etype : Nat
  deriving DecidableEq, Repr

/-- An Ethernet frame on a port (R338): the header and the bytes after it, without the padding of a short frame and without the FCS
(log 134). -/
structure Ether extends EtherHdr where
  data : List Byte
  deriving DecidableEq, Repr

/-- How a management datagram comes in (R338, R460): canopy port 12 + `port`, VLAN identifier. -/
structure VlanIn where
  port : Fin 2
  vlan : Fin 4096
  deriving DecidableEq, Repr

/-- Contents of a transport frame (Tables 11.5, 11.6). -/
structure Frame where
  ver : Nat
  kind : Nat
  hops : Nat
  retx : Bool
  splace : Nat
  dplace : Nat
  sinc : Nat
  dinc : Nat
  key : Nat
  seq : Nat
  ack : Nat
  win : Nat
  grove : Nat
  info : Nat
  payload : List Byte
  deriving DecidableEq, Repr

/-- A return entry that the stands wrote in the ended beat (Table 8.10). -/
structure ReturnEntry where
  rslot : Nat
  rgen : Nat
  step : Nat
  kind : Nat
  a : Nat
  pos : Nat
  toks : List Word
  deriving DecidableEq, Repr

/-- An announcement entry (Table 8.9). `kind` 1 NEW, 2 GROUP, 3 END, 4 BANK; `x` is ADAPTER or the group index, `y` the bank
or the group number. -/
structure AnnEntry where
  kind : Nat
  adm : Nat
  rslot : Nat
  rgen : Nat
  x : Nat
  y : Nat
  deriving DecidableEq, Repr

/-- A wrong column count of an execution of a pass: physical fault activity of that execution (R53). -/
structure Disturb where
  cycle : Nat
  column : Nat
  delta : Int
  deriving DecidableEq, Repr

/-- The management paths (Table 15.7). -/
inductive MPath where
  | i3c | mailbox | vlan
  deriving DecidableEq, Repr

/-- What a gate wait ends for (R115). -/
inductive GateItem where
  | bank (b : SBank) | window (w : WSlot)
  deriving DecidableEq, Repr

/-- A maintenance item of the test engine (R371 to R374, R410). -/
inductive MaintKind where
  | core (c : Fin 17) | spad (b : SBank) | unit | link (dir : Fin 7) | trim (c : Fin 17)
  deriving DecidableEq, Repr

/-- Where an arriving shard lies (R280). -/
inductive ShardPath where
  | inbox (slot : Fin 16) | peer (stand : StandId) (second : Bool)
  deriving DecidableEq, Repr

/-- The commands: the rows of spec/opcode_table.json, in its order. -/
inductive Instr where
  -- Cotis-2 and stand events (06, 02, 03)
  | nop (st : StandId)
  | li (st : StandId) (gd : Reg) (imm : Word)
  | alu (st : StandId) (gd ga gb : Reg) (immf : Bool) (func : Fin 16) (imm : BitVec 16)
  | ldw (st : StandId) (gd ga : Reg) (off : BitVec 16)
  | stw (st : StandId) (gs ga : Reg) (off : BitVec 16)
  | br (st : StandId) (cond : Fin 8) (ga gb : Reg) (target : Fin 16384)
  | bend (st : StandId)
  | implicitBend (st : StandId)
  | wait (st : StandId) (cores : BitVec 16) (dmu vec net dma tile : Bool)
  | rdctl (st : StandId) (gd : Reg) (clr : Bool) (arg : WSlot) (sel : Fin 8)
  | vld (st : StandId) (pos : BitVec 16) (slot : Fin 2) (ga : Reg) (stride : BitVec 16)
  | pass (st : StandId) (pos : BitVec 16) (slot : Fin 2) (bsel : Fin 4) (first : Fin 1024) (nrows : Fin 2048)
      (width : Fin 8) (sign dense acc : Bool)
  | passVerdict (st : StandId) (p : Pos) (disturb : List Disturb)
  | rqnt (st : StandId) (p : Pos) (firsto : Fin 128) (nout : Fin 256) (mode : Fin 4) (fmt : Fin 8) (sign : Bool)
      (gt gd : Reg)
  | requantizerOutput (st : StandId) (p : Pos)
  | topen (st : StandId) (tile : BitVec 16)
  | tclose (st : StandId)
  | tileVerdict (st : StandId) (idx : Nat)
  | interlockRelease (st : StandId) (u : Engine)
  | pendWaitRelease (st : StandId) (u : Engine)
  | wopen (st : StandId) (slot : WSlot) (bank : SBank) (first : RowNo) (count : Fin 64)
  | wclose (st : StandId) (slot : WSlot)
  | wrel (st : StandId) (slot : WSlot) (rows : BitVec 32)
  | bpdn (st : StandId) (bank : SBank)
  | bwake (st : StandId) (bank : SBank)
  | bankWakeDone (st : StandId) (bank : SBank)
  | gateWaitExpiry (st : StandId) (g : GateItem)
  | creq (st : StandId) (dest : BitVec 13) (window : WSlot) (count : Fin 64) (mode : Bool) (row : RowNo) (tag : BitVec 16)
  | creqReceive (node : NodeId) (p : Packet)
  | cgrantReceive (node : NodeId) (p : Packet)
  | creditVoidReceive (node : NodeId) (p : Packet)
  | awayReceive (node : NodeId) (p : Packet)
  | rwr (st : StandId) (dest : BitVec 13) (window : WSlot) (row : RowNo) (offset : Fin 64) (length : Fin 128)
      (final : Bool) (nwrites : Fin 128) (gs : Reg) (vec : Bool)
  | mwr (st : StandId) (gm : Reg) (window : WSlot) (row : RowNo) (offset : Fin 64) (length : Fin 128)
      (final : Bool) (nwrites : Fin 128) (gs : Reg) (vec : Bool)
  | remoteWriteReceive (node : NodeId) (p : Packet)
  | rowFilled (node : NodeId) (slot : WSlot) (row : RowNo)
  | red (st : StandId) (dest : BitVec 13) (rid : BitVec 16) (lead : Bool) (window : WSlot) (row : RowNo) (gs : Reg)
  | dma (st : StandId) (dir tierB : Bool) (ga : Reg) (window : WSlot) (row : RowNo) (words : Fin 4096) (gs : Reg)
  | barv (st : StandId) (chan : Fin 64)
  | bwt (st : StandId) (chan : Fin 64)
  | barrierPhaseComplete (chan : Fin 64)
  | xld (st : StandId) (bufY : Bool) (ga gb : Reg) (count : Fin 2048) (didx : BitVec 16)
  | mma (st : StandId) (mode : Fin 4) (mm1 nm1 : Fin 32) (km1 : Fin 2048) (acc xf yf : Bool) (gb : Reg)
  | mwo (st : StandId) (wmode : Fin 4) (set : Fin 2) (mm1 nm1 : Fin 32) (gd gs : Reg)
  | ada (st : StandId) (gh gx gd : Reg) (matrix : BitVec 16) (gi : Reg)
  | adb (st : StandId) (gh gg gd : Reg) (matrix : BitVec 16) (go : Reg)
  | vop (st : StandId) (func : Fin 64) (type : Fin 4) (gd ga gb gc : Reg) (cm1 : Fin 4096)
  | qnt (st : StandId) (type : Fin 4) (gd ga gb gc : Reg) (cm1 : Fin 4096)
  | vtopk (st : StandId) (km1 : Fin 64) (gd ga gb : Reg) (cm1 : Fin 4096) (merge : Bool)
  | vsmp (st : StandId) (gd ga : Reg) (km1 : Fin 64) (gp : Reg)
  | vacc (st : StandId) (gd ga gb : Reg) (g : Fin 8)
  | hazard (st : StandId) (code : Fin 256) (index : Fin 16384) (opcode : Byte) (writer : Byte)
  -- beats and stands (07, 04)
  | beatBoundary (returns : List ReturnEntry) (anns : List AnnEntry)
  | beatLaunch
  | beatWatchdog (st : StandId)
  | standReset (st : StandId)
  | scratchpadUe (st : StandId) (bank : SBank) (row : RowNo) (word : Fin 64) (opcode : Byte)
  | rowRepair (st : StandId) (bank : SBank) (row : RowNo)
  -- network (07)
  | flitCrcFail (router : StandId) (dir : Fin 7) (seq : BitVec 8)
  | packetReceive (node : NodeId) (hdr : BitVec 128) (words : List Word)
  | mcastForward (p : Packet)
  | reducePacketArrive (router : StandId) (p : Packet)
  | combiningWindowExpiry (router : StandId) (idx : Fin 8)
  | reductionPartArrive (node : NodeId) (p : Packet)
  | reductionTimeout (node : NodeId) (idx : Fin 32)
  | seamWireTest (link : Fin 50) (eastToWest : Bool) (failed : List (Fin 1170))
  | meshLinkWireTest (router : StandId) (dir : Fin 4) (lower upper : Bool)
  -- serving, weights, adapters, binaries (08, 09, 06)
  | descriptorTimeout
  | stepTimeout (rslot : Fin 16384)
  | suspensionTimeout (rslot : Fin 16384)
  | servingStart
  | servingDrain
  | servingStop
  | stage (cap source : Bool) (place : Byte) (epoch : Word) (layoutId : DWord)
  | weightCancel
  | requestAgain
  | arm (nmod : Byte) (epoch : Word) (grace : BitVec 16)
  | disarm
  | weightActivate (epoch : Word)
  | scrubNow
  | inboxPost (slot : Byte)
  | shardArrive (path : ShardPath)
  | attemptTimeout (bankB : Bool) (st : StandId)
  | arrayWriteVerifyDone (bankB : Bool) (st : StandId) (p : Pos) (rewrites : Nat)
  | shardFinalCheck (bankB : Bool) (st : StandId)
  | scrubRead (bankB : Bool) (st : StandId) (p : Pos)
  | adapterLoad (ident : Word) (offset : DWord) (length : Word) (digest : List Byte)
  | adapterRemove (ident : Word)
  | binaryLoad (offset length : DWord)
  | binaryActivate (beat : DWord)
  -- memory and arbiters (10)
  | memreqReceive (node : NodeId) (p : Packet)
  | memrspReceive (node : NodeId) (p : Packet)
  | patrolRead (node : NodeId) (offset : Nat)
  | pseudoChannelRemap (stack : Fin 8) (pch : Fin 64)
  | arbiterGrant (arb : Fin 93)
  | arbiterPark (arb : Fin 93) (requester : Fin 21) (node : NodeId) (burst : Nat) (lock : Bool)
  | arbiterWatchdog (arb : Fin 93)
  | clearArbiterCounters (value : Byte)
  | resendPoint (node : NodeId)
  -- host link (15)
  | hostWindowWrite (offset : Nat) (data : List Byte)
  | hostWindowRead (offset length : Nat)
  | cxlSnoop (addr : Nat)
  | hostLinkTraining (protos : BitVec 6) (lanes : Nat) (memEnable : Bool)
  -- ports (11, 16)
  | portModeNegotiation (port : PortId) (partner : BitVec 8)
  | blockLockLoss (port : PortId)
  | helloSend (port : PortId)
  | hello (port : PortId) (e : Ether)
  | helloLoss (port : PortId)
  | transportFrameReceive (port : PortId) (h : EtherHdr) (data : List Byte)
  | ack (port : PortId) (peer : Nat) (ack win : Nat)
  | retransmitTimeout (port : PortId) (peer : Nat)
  | relay (port : PortId) (f : Frame)
  | reduce (port : PortId) (f : Frame)
  | reroute (port : PortId)
  | arrive (chan : Fin 66) (phase place : Nat)
  | complete (chan : Fin 66) (phase : Nat)
  | withdraw (chan : Fin 66) (phase place : Nat)
  | withdrawn (chan : Fin 66) (phase : Nat)
  | shardReq (peer : Nat) (epoch : Word) (st : StandId) (second : Bool)
  | shardData (frag : Nat) (epoch : Word) (st : StandId) (second : Bool) (bytes : List Byte)
  | neighbourSolicitation (port : PortId) (target : List Byte) (answer : Option Nat)
  | cableInsert (port : PortId) (milliwatts : Nat)
  | cableRemove (port : PortId)
  -- reliability (12)
  | coppicingStart (st : StandId) (p : Pos) (urgent : Bool)
  | repairSequencerDone (st : StandId)
  | selfTestStep (st : StandId) (k : MaintKind) (pass : Bool) (cycles : Nat) (found : Fin 268)
  | forcedClearing (st : StandId) (ticks : Nat)
  | voltageMarginCommand (quadrant : Byte)
  | sliceCommand (unit : BitVec 16) (sub kind margin : Byte) (pass : Bool)
  | groveFecFailure (port : Fin 12)
  | faultStop (cls : BitVec 16)
  | foresterWatchdog
  | foresterRestart
  | errorRecordWrite
  | cperRemove (seq : DWord)
  | wallClockWrite (value : DWord)
  -- sensing (13)
  | adcResult (ch : Fin 96) (raw : Int)
  | adcTrigger (ch : Fin 96)
  | diodeReading (d : Fin 64) (c10 c160 : Int)
  | diodeReadingTimeout (d : Fin 72)
  | thermistorReading (pin : Fin 8)
  | throttleRelease
  | powerLevelRequest (level : Fin 8)
  | orderlyStopClockStop
  | immediateStop
  | thermalTrip (comparator : Fin 16)
  | calibrationCommand (value : Byte)
  | adcCalibrationRun (vref bandgap : Int) (means : List (Nat × Int × Int))
  | arrayCalibrationDue (quadrant : Fin 4)
  -- power and reset (14)
  | vauxValid (backupGood : Bool)
  | vauxLoss (in48Lost : Bool)
  | railSequence (missed : Option (Fin 16))
  | brownout (source : Fin 16) (detail : Byte)
  | phaseFailed (n : Fin 68) (cause : Fin 4)
  | powerSample (milliwatts : Nat)
  | coldReset (source : Fin 16)
  | warmReset (source : Fin 16)
  | unitResetCommand (node : BitVec 16)
  | perstN
  | fatalReset (source : Fin 16) (detail : Byte)
  | fatalDelayExpiry
  | escalatedWatchdog
  | coldExit (failures : List (BitVec 16 × Byte × Byte))
  -- identity and security (14)
  | floorCommand (svn : Byte)
  | ownerKeyCommand (block : List Byte)
  | lifecycleCommand (target : Byte) (serial : DWord) (erased : Bool)
  | debugFlagWrite (value : Byte)
  | getVersion (path : MPath) (req : List Byte)
  | getCapabilities (path : MPath) (req : List Byte)
  | negotiateAlgorithms (path : MPath) (req : List Byte)
  | getDigests (path : MPath) (req : List Byte)
  | getCertificate (path : MPath) (req : List Byte)
  | challenge (path : MPath) (req : List Byte)
  | getMeasurements (path : MPath) (req : List Byte)
  | spdmUnsupportedRequest (path : MPath) (req : List Byte)
  -- dictionary and management (15)
  | dictionaryRead (path : MPath) (seq : BitVec 16) (index : BitVec 16) (sub : Byte) (offset : Word) (length : BitVec 16)
  | dictionaryWrite (path : MPath) (seq : BitVec 16) (index : BitVec 16) (sub : Byte) (last : Bool) (offset : Word)
      (data : List Byte)
  | describe (path : MPath) (seq : BitVec 16) (index : BitVec 16) (sub : Byte)
  | segmentTimeout (path : MPath) (index : BitVec 16) (sub : Byte)
  | requestLimitTimeout (path : MPath)
  | mailboxCommand (payload : List Byte)
  | identifyMemoryDevice
  | getTimestamp
  | setTimestamp (value : DWord)
  | mailboxUnsupported (opcode : BitVec 16)
  | setEndpointId (eid : Byte)
  | getEndpointId
  | getMctpVersionSupport (msgType : Byte)
  | getMessageTypeSupport
  | vlanDatagram (via : VlanIn) (src dst : List Byte) (srcPort : BitVec 16) (message : List Byte)
  | recountSnapshot (path : MPath)
  | firmwareUpload (image : List Byte)
  | msixEventVector (v : Fin 32)
  | unitReturnsToService (node : NodeId)
  | recountSnapshotTimeout (path : MPath)
  | msixVectorUnmask (v : Fin 32)
  | hotReset
  deriving DecidableEq, Repr

end Sys2Proof
end

