-- ==== Sys2Proof/Config.lean ====
section
/-! DEFINITION. What the spec leaves to the factory or to cryptography outside its text: constants without a body. -/

namespace Sys2Proof.Config

/-- Free bytes: the n-th is unconstrained (log 9). -/
opaque freeByte : Nat → Byte
/-- Free 64-bit values: the n-th is unconstrained (log 9). -/
opaque freeDWord : Nat → DWord

/-- Free numbers: the n-th is unconstrained (log 9). -/
opaque freeNat : Nat → Nat

/-- What the module reads in an X.509 certificate (R433 step 2): the standard is outside the spec's text (log 11). -/
structure Cert where
  /-- DER SubjectPublicKeyInfo. -/
  spki : List Byte
  /-- the signed part. -/
  tbs : List Byte
  /-- the signature over it. -/
  sig : List Byte
  /-- the code-signing key usage is present. -/
  codeSigning : Bool
  deriving DecidableEq, Repr

/-- Reading of a DER certificate, none when it does not parse (log 11). -/
opaque readCert : List Byte → Option Cert
/-- Signature of the device key over a message, with fresh salt n; the private key never leaves its store (R437, log 11). -/
opaque deviceSign : Nat → List Byte → List Byte

/-- Factory identity (R437, Table 14.10, log 4). -/
opaque serialNumber : DWord
/-- Factory base MAC address, 48 bits (R437, log 4). -/
opaque baseMac : BitVec 48
/-- Factory PCI vendor ID (R449, log 4). -/
opaque pciVendor : BitVec 16
/-- Factory device ID (R449, log 4). -/
opaque pciDevice : BitVec 16
/-- Factory certificate chain in the form of Table 14.9 (R437, log 4). -/
opaque certChain : List Byte
/-- Root key slots of the fuses: digest of a root public key, none when revoked (R432, log 4). -/
opaque rootKeys : List (List Byte)
/-- Llynnik test keys certified under a root key slot, as DER SubjectPublicKeyInfo (R435, log 4). -/
opaque testKeys : List (List Byte)
/-- Llynnik lifecycle keys certified under a root key slot, as DER SubjectPublicKeyInfo (R440, log 4). -/
opaque lifecycleKeys : List (List Byte)
/-- Part number and stepping, ASCII (Table 14.10, log 4). -/
opaque partNumber : List Byte
/-- Value type, in seven bits, of a measurement block (R439 gives digest or raw stream only, log 50). -/
opaque measKind : Nat → Nat
/-- CTExponent of the SPDM responder, which the spec does not state (log 50). -/
opaque spdmCtExponent : Byte
/-- Cycles per TIME tick of the clock of the arbiters of the canopy ports, whose frequency the spec does not give (log 103). -/
opaque arbClock : Nat

/-- Point of an array's read in the scrub interval: the spec spreads the reads evenly and gives no order (R296, log 109). -/
opaque scrubPoint : Nat → Nat
/-- Blocks per token, less one, of the KV pages of the compiled model (R128): the spec gives the serving engine no entry for it (log 30). -/
opaque kvBlocks : Nat
/-- The KV pages of the compiled model are INT4 (R128, log 30). -/
opaque kvInt4 : Bool
/-- Request slot that owns a burst of the module-private region, whose layout the spec does not give (Table 10.2, log 128). -/
opaque privateOwner : Nat → Nat

end Sys2Proof.Config
end

