-- ==== Sys2Proof/Machine/Tab.lean ====
section
/-! DEFINITION. Reading and writing the sparse table, bytes and bit fields. -/

namespace Sys2Proof

/-- The value at key k; unlisted keys read as d. -/
def Tab.get {α : Type} (d : α) : Tab α → Nat → α
  | [], _ => d
  | (k, v) :: t, n => if k = n then v else Tab.get d t n

/-- Put a value at key n: at its place in a rising table. -/
def Tab.put {α : Type} : Tab α → Nat → α → Tab α
  | [], n, w => [(n, w)]
  | (k, v) :: t, n, w =>
    if n < k then (n, w) :: (k, v) :: t
    else if n = k then (n, w) :: t
    else (k, v) :: Tab.put t n w

/-- Write w at key n, keeping the canonical form: the default is not listed. -/
def Tab.set {α : Type} [DecidableEq α] (d : α) (t : Tab α) (n : Nat) (w : α) : Tab α :=
  if w = d then t.filter fun e => decide (e.1 ≠ n) else Tab.put t n w

/-- The canonical form: keys strictly rising from `lo`, no listed default. -/
def Tab.wfFrom {α : Type} [DecidableEq α] (d : α) : Nat → Tab α → Bool
  | _, [] => true
  | lo, (k, v) :: t => decide (lo ≤ k) && decide (v ≠ d) && Tab.wfFrom d (k + 1) t

/-- The canonical form of a table. -/
def Tab.wf {α : Type} [DecidableEq α] (d : α) (t : Tab α) : Bool := Tab.wfFrom d 0 t

/-- Write a run of values at consecutive keys. -/
def Tab.setRun {α : Type} [DecidableEq α] (d : α) (t : Tab α) (k : Nat) : List α → Tab α
  | [] => t
  | w :: ws => Tab.setRun d (Tab.set d t k w) (k + 1) ws

/-- Read a run of n values at consecutive keys. -/
def Tab.getRun {α : Type} (d : α) (t : Tab α) (k n : Nat) : List α :=
  (List.range n).map fun i => Tab.get d t (k + i)

/-- Drop every entry whose key satisfies p (those keys then read as the default). -/
def Tab.clear {α : Type} (t : Tab α) (p : Nat → Bool) : Tab α := t.filter fun e => !p e.1

/-- Apply f to every listed entry's value, dropping those that become the default. -/
def Tab.mapVals {α : Type} [DecidableEq α] (d : α) (f : Nat → α → α) (t : Tab α) : Tab α :=
  (t.map fun e => (e.1, f e.1 e.2)).filter fun e => decide (e.2 ≠ d)

namespace Machine

/-- Bits [hi:lo] of n (R5). -/
def bits (n hi lo : Nat) : Nat := n / 2 ^ lo % 2 ^ (hi + 1 - lo)

/-- Bit i of n as a Bool. -/
def bit (n i : Nat) : Bool := n / 2 ^ i % 2 = 1

/-- 1 or 0. -/
def b2n (b : Bool) : Nat := if b then 1 else 0

/-- The bytes of n, least significant first (R6). -/
def leBytes : Nat → Nat → List Byte
  | 0, _ => []
  | k + 1, n => BitVec.ofNat 8 n :: leBytes k (n / 256)

/-- The bytes of n, most significant first (network order, R6). -/
def beBytes (k n : Nat) : List Byte := (leBytes k n).reverse

/-- The number that little-endian bytes spell. -/
def leNat : List Byte → Nat
  | [] => 0
  | b :: bs => b.toNat + 256 * leNat bs

/-- The number that big-endian bytes spell. -/
def beNat (bs : List Byte) : Nat := leNat bs.reverse

/-- n bytes from offset o, zeros beyond the end. -/
def slice (bs : List Byte) (o n : Nat) : List Byte :=
  let c := (bs.drop o).take n
  c ++ List.replicate (n - c.length) 0

/-- The little-endian number in n bytes at offset o. -/
def field (bs : List Byte) (o n : Nat) : Nat := leNat (slice bs o n)

/-- Every byte of the range is 0 (reserved fields, R16). -/
def zeros (bs : List Byte) (o n : Nat) : Bool := (slice bs o n).all (· = 0)

/-- The two's complement value of the low w bits of n. -/
def signedOf (w n : Nat) : Int :=
  let m := n % 2 ^ w
  if w ≠ 0 ∧ 2 ^ (w - 1) ≤ m then (m : Int) - 2 ^ w else m

/-- The low w bits of an integer, as a number. -/
def lowBits (w : Nat) (i : Int) : Nat := (i % (2 ^ w : Int)).toNat

/-- Words from little-endian bytes. -/
def wordsOf : List Byte → List Word
  | a :: b :: c :: d :: t => BitVec.ofNat 32 (leNat [a, b, c, d]) :: wordsOf t
  | _ => []

/-- Little-endian bytes of words. -/
def bytesOf : List Word → List Byte
  | [] => []
  | w :: t => leBytes 4 w.toNat ++ bytesOf t

/-- Round a fraction n / d (d > 0) to the nearest integer, ties to even (R73, R391). -/
def roundHalfEven (n : Int) (d : Nat) : Int :=
  let q := n / (d : Int)
  let r := n - q * d
  if 2 * r > d ∨ (2 * r = d ∧ q % 2 = 1) then q + 1 else q

/-- Replace the first element that satisfies p by f of it. -/
def updFirst {α : Type} (p : α → Bool) (f : α → α) : List α → List α
  | [] => []
  | a :: t => if p a then f a :: t else a :: updFirst p f t

/-- Remove the first element equal to a. -/
def dropFirst {α : Type} [DecidableEq α] (a : α) : List α → List α
  | [] => []
  | b :: t => if b = a then t else b :: dropFirst a t

end Machine
end Sys2Proof
end

