-- ==== Sys2Proof/Machine/Crypto.lean ====
section
/-! DEFINITION. The digests, check codes and signatures that the spec names by their standards: SHA-256, CRC-32C, RSASSA-PSS
with RSA-3072 (14 R432 to R435, 06 R188, 09, 14 R430). -/

namespace Sys2Proof.Machine

/-! ## SHA-256 (FIPS 180-4) -/

/-- Round constants. -/
def shaK : List Word :=
  [0x428A2F98, 0x71374491, 0xB5C0FBCF, 0xE9B5DBA5, 0x3956C25B, 0x59F111F1, 0x923F82A4, 0xAB1C5ED5] ++
  [0xD807AA98, 0x12835B01, 0x243185BE, 0x550C7DC3, 0x72BE5D74, 0x80DEB1FE, 0x9BDC06A7, 0xC19BF174] ++
  [0xE49B69C1, 0xEFBE4786, 0x0FC19DC6, 0x240CA1CC, 0x2DE92C6F, 0x4A7484AA, 0x5CB0A9DC, 0x76F988DA] ++
  [0x983E5152, 0xA831C66D, 0xB00327C8, 0xBF597FC7, 0xC6E00BF3, 0xD5A79147, 0x06CA6351, 0x14292967] ++
  [0x27B70A85, 0x2E1B2138, 0x4D2C6DFC, 0x53380D13, 0x650A7354, 0x766A0ABB, 0x81C2C92E, 0x92722C85] ++
  [0xA2BFE8A1, 0xA81A664B, 0xC24B8B70, 0xC76C51A3, 0xD192E819, 0xD6990624, 0xF40E3585, 0x106AA070] ++
  [0x19A4C116, 0x1E376C08, 0x2748774C, 0x34B0BCB5, 0x391C0CB3, 0x4ED8AA4A, 0x5B9CCA4F, 0x682E6FF3] ++
  [0x748F82EE, 0x78A5636F, 0x84C87814, 0x8CC70208, 0x90BEFFFA, 0xA4506CEB, 0xBEF9A3F7, 0xC67178F2]
/-- Initial hash value. -/
def shaH : List Word := [0x6A09E667, 0xBB67AE85, 0x3C6EF372, 0xA54FF53A] ++ [0x510E527F, 0x9B05688C, 0x1F83D9AB, 0x5BE0CD19]
/-- Words of a block, most significant byte first. -/
def beWords : List Byte → List Word
  | a :: b :: c :: d :: t => BitVec.ofNat 32 (beNat [a, b, c, d]) :: beWords t
  | _ => []
/-- Message schedule, newest word first; `k` words to add. -/
def shaSched : Nat → List Word → List Word
  | 0, w => w
  | k + 1, w =>
    let x := w.getD 14 0
    let y := w.getD 1 0
    let s0 := x.rotateRight 7 ^^^ x.rotateRight 18 ^^^ (x >>> 3)
    let s1 := y.rotateRight 17 ^^^ y.rotateRight 19 ^^^ (y >>> 10)
    shaSched k ((w.getD 15 0 + s0 + w.getD 6 0 + s1) :: w)
/-- One round on the working variables. -/
def shaRound (v : List Word) (kw : Word) : List Word :=
  let a := v.getD 0 0
  let b := v.getD 1 0
  let c := v.getD 2 0
  let e := v.getD 4 0
  let s1 := e.rotateRight 6 ^^^ e.rotateRight 11 ^^^ e.rotateRight 25
  let ch := (e &&& v.getD 5 0) ^^^ (~~~e &&& v.getD 6 0)
  let t1 := v.getD 7 0 + s1 + ch + kw
  let s0 := a.rotateRight 2 ^^^ a.rotateRight 13 ^^^ a.rotateRight 22
  let mj := (a &&& b) ^^^ (a &&& c) ^^^ (b &&& c)
  [t1 + s0 + mj, a, b, c, v.getD 3 0 + t1, e, v.getD 5 0, v.getD 6 0]
/-- Compress one block of 64 bytes. -/
def shaBlock (h : List Word) (blk : List Byte) : List Word :=
  let w := (shaSched 48 (beWords blk).reverse).reverse
  let v := (shaK.zip w).foldl (fun v kw => shaRound v (kw.1 + kw.2)) h
  List.zipWith (· + ·) h v
/-- Padded message. -/
def shaPad (m : List Byte) : List Byte :=
  let n := m.length
  m ++ [0x80] ++ List.replicate ((55 + 64 - n % 64) % 64) 0 ++ beBytes 8 (8 * n)
/-- Compress every block; `fuel` is their number. -/
def shaBlocks : Nat → List Word → List Byte → List Word
  | 0, h, _ => h
  | k + 1, h, m => shaBlocks k (shaBlock h (m.take 64)) (m.drop 64)
/-- SHA-256. -/
def sha256 (m : List Byte) : List Byte :=
  let p := shaPad m
  (shaBlocks (p.length / 64) shaH p).flatMap fun w => beBytes 4 w.toNat

/-! ## CRC-32C (Castagnoli, reflected) -/

/-- One bit of the division. -/
def crcBit (c : Word) : Word := if c.getLsbD 0 then (c >>> 1) ^^^ 0x82F63B78 else c >>> 1
/-- One byte. -/
def crcByte (c : Word) (b : Byte) : Word :=
  crcBit (crcBit (crcBit (crcBit (crcBit (crcBit (crcBit (crcBit (c ^^^ b.setWidth 32))))))))
/-- CRC-32C of bytes. -/
def crc32c (m : List Byte) : Nat := (~~~(m.foldl crcByte 0xFFFFFFFF)).toNat

/-! ## RSASSA-PSS, RSA-3072, SHA-256, MGF1, salt of 32 bytes (RFC 8017) -/

/-- b^e mod n; `fuel` bounds the bits of e. -/
def powMod (n : Nat) : Nat → Nat → Nat → Nat
  | 0, _, _ => 1 % n
  | f + 1, b, e =>
    if e = 0 then 1 % n
    else
      let r := powMod n f (b * b % n) (e / 2)
      if e % 2 = 1 then b * r % n else r
/-- MGF1 with SHA-256; k blocks from counter c. -/
def mgf1 (seed : List Byte) : Nat → Nat → List Byte
  | 0, _ => []
  | k + 1, c => sha256 (seed ++ beBytes 4 c) ++ mgf1 seed k (c + 1)
/-- Verification of an encoded message of 384 bytes against a message digest. -/
def pssCheck (em mHash : List Byte) : Bool :=
  let h := slice em 351 32
  let db := List.zipWith (· ^^^ ·) (em.take 351) (mgf1 h 11 0)
  let db := match db with | [] => [] | b :: t => (b &&& 0x7F) :: t
  let salt := slice db 319 32
  decide (em.length = 384) && slice em 383 1 == [0xBC] && decide ((em.getD 0 0).toNat < 128) &&
    zeros db 0 318 && slice db 318 1 == [1] && sha256 (List.replicate 8 0 ++ mHash ++ salt) == h
/-- Modulus and exponent of a DER SubjectPublicKeyInfo of 422 bytes (RSA-3072, exponent of three bytes). -/
def rsaKey (spki : List Byte) : Nat × Nat := (beNat (slice spki 33 384), beNat (slice spki 419 3))
/-- A signature over a message under a public key. -/
def pssVerify (spki msg sig : List Byte) : Bool :=
  let k := rsaKey spki
  let s := beNat sig
  decide (spki.length = 422 ∧ sig.length = 384 ∧ k.1 ≠ 0 ∧ s < k.1) &&
    pssCheck (beBytes 384 (powMod k.1 32 s k.2)) (sha256 msg)

end Sys2Proof.Machine
end

