-- ==== Sys2Proof/Machine/Float.lean ====
section
/-! DEFINITION. Floating point of the vector unit and the DMU (03 R91 to R95, 05 R137 to R139): exact values, one rounding. -/

namespace Sys2Proof.Machine

/-- A binary32 value: NaN, an infinity with its sign, or ±m × 2^e. -/
inductive Fl where
  | nan
  | inf (neg : Bool)
  | fin (neg : Bool) (m : Nat) (e : Int)
  deriving DecidableEq, Repr

/-- The canonical NaN (R137). -/
def nanWord : Word := 0x7FC00000

/-- Value of a binary32 word as IEEE 754 gives it. -/
def f32val (w : Word) : Fl :=
  let n := w.toNat
  let e := bits n 30 23
  let m := bits n 22 0
  if e = 255 then (if m = 0 then .inf (bit n 31) else .nan)
  else if e = 0 then .fin (bit n 31) m (-149)
  else .fin (bit n 31) (m + 2 ^ 23) ((e : Int) - 150)
/-- Subnormals replaced by zero of the same sign (R137). -/
def flush (x : Fl) : Fl :=
  match x with
  | .fin s m e => if m < 2 ^ 23 ∧ e = -149 then .fin s 0 0 else .fin s m e
  | y => y
/-- Operand of a vector-unit operation. -/
def f32in (w : Word) : Fl := flush (f32val w)

/-- floor(log2(n / d)) for positive n, d. -/
def log2rat (n d : Nat) : Int :=
  let k : Int := (Nat.log2 n : Int) - Nat.log2 d
  if 0 ≤ k then (if n < d * 2 ^ k.toNat then k - 1 else k)
  else (if n * 2 ^ (-k).toNat < d then k - 1 else k)
/-- Assemble a binary32 word from a rounded significand q at quantum 2^k; subnormals become zero when `ftz`. -/
def assemble (neg : Bool) (q : Nat) (k : Int) (ftz : Bool) : Word :=
  let s := b2n neg * 2 ^ 31
  if q = 0 then BitVec.ofNat 32 s
  else if q < 2 ^ 23 then BitVec.ofNat 32 (if ftz then s else s + q)
  else
    let q' := if q = 2 ^ 24 then 2 ^ 23 else q
    let k' := if q = 2 ^ 24 then k + 1 else k
    if 104 < k' then BitVec.ofNat 32 (s + 0x7F800000)
    else BitVec.ofNat 32 (s + (k' + 150).toNat * 2 ^ 23 + (q' - 2 ^ 23))
/-- Round ±n / d to binary32, to nearest, ties to even (IEEE 754), then replace a subnormal by zero when `ftz`. -/
def roundRat (neg : Bool) (n d : Nat) (ftz : Bool := true) : Word :=
  if n = 0 then BitVec.ofNat 32 (b2n neg * 2 ^ 31)
  else
    let k := max (log2rat n d - 23) (-149)
    let q := if 0 ≤ k then roundHalfEven n (d * 2 ^ k.toNat) else roundHalfEven (n * 2 ^ (-k).toNat : Nat) d
    assemble neg q.toNat k ftz
/-- Round ±m × 2^e. -/
def roundDy (neg : Bool) (m : Nat) (e : Int) (ftz : Bool := true) : Word :=
  if 0 ≤ e then roundRat neg (m * 2 ^ e.toNat) 1 ftz else roundRat neg m (2 ^ (-e).toNat) ftz
/-- An infinity. -/
def infWord (neg : Bool) : Word := BitVec.ofNat 32 (b2n neg * 2 ^ 31 + 0x7F800000)
/-- A zero. -/
def zeroWord (neg : Bool) : Word := BitVec.ofNat 32 (b2n neg * 2 ^ 31)
/-- A value that needs no rounding, as a word. -/
def f32word (x : Fl) : Word :=
  match x with
  | .nan => nanWord
  | .inf s => infWord s
  | .fin s m e => roundDy s m e
/-- Signed significand of a finite value at quantum 2^q (q at most its exponent). -/
def atQuantum (neg : Bool) (m : Nat) (e q : Int) : Int :=
  let v : Int := m * 2 ^ (e - q).toNat
  if neg then -v else v
/-- Exact x × y + z, rounded once (R137, Table 6.6). -/
def fmaFl (x y z : Fl) (ftz : Bool := true) : Word :=
  match x, y, z with
  | .nan, _, _ => nanWord
  | _, .nan, _ => nanWord
  | _, _, .nan => nanWord
  | .inf s, .inf t, .inf u => if u = (s != t) then infWord u else nanWord
  | .inf s, .inf t, .fin .. => infWord (s != t)
  | .inf s, .fin t m _, .inf u => if m = 0 then nanWord else if u = (s != t) then infWord u else nanWord
  | .inf s, .fin t m _, .fin .. => if m = 0 then nanWord else infWord (s != t)
  | .fin s m _, .inf t, .inf u => if m = 0 then nanWord else if u = (s != t) then infWord u else nanWord
  | .fin s m _, .inf t, .fin .. => if m = 0 then nanWord else infWord (s != t)
  | .fin .., .fin .., .inf u => infWord u
  | .fin s m e, .fin t n f, .fin u k g =>
    let q := min (e + f) g
    let a := atQuantum (s != t) (m * n) (e + f) q
    let b := atQuantum u k g q
    if a + b = 0 then (if (s != t) = u ∧ (m * n = 0 ∧ k = 0) then zeroWord u else zeroWord false)
    else roundDy (decide (a + b < 0)) (a + b).natAbs q ftz
/-- Sign changed. -/
def negFl (x : Fl) : Fl :=
  match x with
  | .nan => .nan
  | .inf s => .inf (!s)
  | .fin s m e => .fin (!s) m e
/-- The value 1. -/
def oneFl : Fl := .fin false 1 0
/-- Exact zero that leaves the sign of a product alone. -/
def mulFl (x y : Fl) (ftz : Bool := true) : Word :=
  match x, y with
  | .fin s m e, .fin t n f => if m * n = 0 then zeroWord (s != t) else roundDy (s != t) (m * n) (e + f) ftz
  | _, _ => fmaFl x y (.fin false 0 0) ftz
/-- FP32 addition on words. -/
def fadd (a b : Word) : Word := fmaFl (f32in a) oneFl (f32in b)
/-- FP32 subtraction. -/
def fsub (a b : Word) : Word := fmaFl (f32in a) oneFl (negFl (f32in b))
/-- FP32 multiplication. -/
def fmul (a b : Word) : Word := mulFl (f32in a) (f32in b)
/-- FP32 fused multiply-add. -/
def ffma (a b c : Word) : Word := fmaFl (f32in a) (f32in b) (f32in c)

/-- Rank of a value for comparisons: −0 below +0 (R137). Finite values and infinities only. -/
def ordKey (w : Word) : Int := if bit w.toNat 31 then -1 - (w.toNat % 2 ^ 31 : Nat) else (w.toNat : Int)
/-- A word after flush and NaN canonicalisation. -/
def canon (w : Word) : Word := f32word (f32in w)
/-- The word is a NaN. -/
def isNan (w : Word) : Bool := f32val w = .nan
/-- max of R137. -/
def fmax (a b : Word) : Word :=
  if isNan a then canon b else if isNan b then canon a
  else if ordKey (canon a) < ordKey (canon b) then canon b else canon a
/-- min of R137. -/
def fmin (a b : Word) : Word :=
  if isNan a then canon b else if isNan b then canon a
  else if ordKey (canon b) < ordKey (canon a) then canon b else canon a
/-- a below b: −0 below +0, and a NaN loses to any number (Table 5.8, log 16). -/
def flt (a b : Word) : Bool :=
  if isNan b then false else if isNan a then true else decide (ordKey (canon a) < ordKey (canon b))

/-- recip, correctly rounded (R137). -/
def frecip (a : Word) : Word :=
  match f32in a with
  | .nan => nanWord
  | .inf s => zeroWord s
  | .fin s m e =>
    if m = 0 then infWord s
    else if 0 ≤ e then roundRat s 1 (m * 2 ^ e.toNat) else roundRat s (2 ^ (-e).toNat) m
/-- Integer square root, by bits from 2^k down. -/
def isqrt (n : Nat) : Nat → Nat → Nat
  | 0, a => if (a + 1) * (a + 1) ≤ n then a + 1 else a
  | k + 1, a => isqrt n k (if (a + 2 ^ (k + 1)) * (a + 2 ^ (k + 1)) ≤ n then a + 2 ^ (k + 1) else a)
/-- rsqrt, correctly rounded (R137): 1 / sqrt(m × 2^e), by the integer square root of 4 × the square at the result's quantum. -/
def frsqrt (a : Word) : Word :=
  match f32in a with
  | .nan => nanWord
  | .inf s => if s then nanWord else zeroWord false
  | .fin s m e =>
    if m = 0 then infWord s
    else if s then nanWord
    else
      let n : Nat := if 0 ≤ e then 1 else 2 ^ (-e).toNat
      let d : Nat := if 0 ≤ e then m * 2 ^ e.toNat else m
      let k := log2rat n d / 2 - 23
      let num := n * 2 ^ (2 * (1 - k)).toNat
      let den := d * 2 ^ (2 * (k - 1)).toNat
      let v := isqrt (num / den) 27 0
      let exact := decide (v * v * den = num)
      let q := if v % 2 = 1 ∧ (!exact ∨ v / 2 % 2 = 1) then v / 2 + 1 else v / 2
      assemble false q k true
/-- FP32 to INT32: ties to even, saturating, NaN gives 0 (Table 5.8). -/
def f2i (a : Word) : Word :=
  match f32in a with
  | .nan => 0
  | .inf s => if s then 0x80000000 else 0x7FFFFFFF
  | .fin s m e =>
    let v : Int := if 0 ≤ e then m * 2 ^ e.toNat else roundHalfEven m (2 ^ (-e).toNat)
    let v := if s then -v else v
    BitVec.ofInt 32 (if v < -(2 ^ 31) then -(2 ^ 31) else if 2 ^ 31 - 1 < v then 2 ^ 31 - 1 else v)
/-- Integer to FP32, correctly rounded. -/
def intToF32 (i : Int) (ftz : Bool := true) : Word := roundRat (decide (i < 0)) i.natAbs 1 ftz
/-- INT32 to FP32. -/
def i2f (a : Word) : Word := intToF32 a.toInt

/-- T(j): 2^(j/64) rounded to FP32, as significands at quantum 2^−23 (R138). -/
def expTable : List Nat :=
  [8388608, 8479954, 8572295, 8665641, 8760003, 8855394, 8951823, 9049301, 9147842, 9247455, 9348154, 9449948,
   9552851, 9656875, 9762032, 9868333]
  ++ [9975792, 10084422, 10194234, 10305242, 10417458, 10530897, 10645571, 10761494, 10878679, 10997140, 11116891,
   11237946, 11360319, 11484025, 11609078, 11735492]
  ++ [11863283, 11992466, 12123055, 12255067, 12388516, 12523418, 12659789, 12797645, 12937002, 13077877, 13220286,
   13364245, 13509772, 13656884, 13805598, 13955931]
  ++ [14107901, 14261526, 14416824, 14573813, 14732511, 14892937, 15055111, 15219050, 15384775, 15552304, 15721658,
   15892855, 16065917, 16240863, 16417715, 16596492]
/-- exp of R138. -/
def fexp (a : Word) : Word :=
  match f32in a with
  | .nan => nanWord
  | .inf s => if s then 0 else infWord false
  | .fin s m e =>
    let n : Nat := if 0 ≤ e then m * 2 ^ e.toNat else m
    let d : Nat := if 0 ≤ e then 1 else 2 ^ (-e).toNat
    if !s ∧ 8872283 * d < 100000 * n then infWord false
    else if s ∧ 100 * d < n then 0
    else
      let x := f32word (.fin s m e)
      let k : Int := (f2i (fmul x 0x42B8AA3B)).toInt
      let nk := f32in (intToF32 (-k))
      let r := fmaFl nk (f32in 0x3C317218) (f32in x)
      let r := fmaFl nk (f32in 0xAE02E308) (f32in r)
      let p := ffma r (ffma r (ffma r 0x3E2AAAAB 0x3F000000) 0x3F800000) 0x3F800000
      let j := (k % 64).toNat
      let ex := k / 64
      let y := mulFl (.fin false (expTable.getD j 0) (-23)) (f32in p)
      match f32in y with
      | .fin t q f => if (q : Int) * 2 ^ (f + ex + 400).toNat < 2 ^ (400 - 126) then 0 else roundDy t q (f + ex)
      | z => f32word z

/-- BF16 element to FP32 word (R95). -/
def bfWiden (n : Nat) : Word := BitVec.ofNat 32 (n % 65536 * 65536)
/-- FP32 word to BF16 bits: nearest, ties to even; a NaN stays a NaN (R95). -/
def bfNarrow (w : Word) : Nat :=
  if isNan w then 0x7FC0 else (roundHalfEven w.toNat 65536).toNat % 65536

/-! ## FP8 (R91 to R93) -/

/-- An FP8 code: none for NaN and infinity; otherwise sign, significand and exponent of the exact value. -/
def fp8 (e5m2 : Bool) (b : Nat) : Option (Bool × Nat × Int) :=
  if e5m2 then
    let e := bits b 6 2
    let m := bits b 1 0
    if e = 31 then none else if e = 0 then some (bit b 7, m, -16) else some (bit b 7, m + 4, (e : Int) - 17)
  else
    let e := bits b 6 3
    let m := bits b 2 0
    if e = 15 ∧ m = 7 then none else if e = 0 then some (bit b 7, m, -9) else some (bit b 7, m + 8, (e : Int) - 10)
/-- Exact product in units of 2^−18, rounded to nearest, ties to even when it is not a multiple; whether it was rounded. -/
def fp8mul (x y : Bool × Nat × Int) : Int × Bool :=
  let m := x.2.1 * y.2.1
  let e := x.2.2 + y.2.2 + 18
  let v : Int := if 0 ≤ e then m * 2 ^ e.toNat else roundHalfEven m (2 ^ (-e).toNat)
  let rounded := if 0 ≤ e then false else decide (m % 2 ^ (-e).toNat ≠ 0)
  (if x.1 != y.1 then -v else v, rounded)

end Sys2Proof.Machine
end

