-- ==== Sys2Proof/Machine/State.lean ====
section
/-! DEFINITION. The state of the module as plain data: every piece INVENTORY.md lists under State, the reasons a step stops,
and the state right after POR. Field defaults are the reset values. -/

namespace Sys2Proof.Machine

/-- Faults. The module has no fault that ends its run: every fault of the spec is an effect on State. The one constructor is
raised by no command; it is safe (it could only stop a run). -/
inductive Fault where
  /-- raised by nothing: kept so that the type is a closed inductive with a name -/
  | none
  deriving DecidableEq, Repr

/-- Refusals. -/
inductive Refusal where
  /-- raised by exec for a command without a meaning yet; safe: nothing is claimed of it -/
  | notModelled (mnemonic : String)
  /-- raised by a Cotis-2 command whose fields break a check of R189, so that installation refuses it; safe: it never runs -/
  | illFormed
  deriving DecidableEq, Repr

/-! ## Arrays (02) -/

/-- Bank states (Table 2.2). -/
inductive BankState where
  | empty | idle | compute | write | verify | failed
  deriving DecidableEq, Repr

/-- Weight layouts (Table 2.5). -/
inductive Layout where
  | w4 | w3 | w2 | ternary | w4s
  deriving DecidableEq, Repr

/-- Column map entry (Table 2.16); `lcol` 511 marks a failed spare (R60). -/
structure MapEntry where
  valid : Bool := false
  lcol : Nat := 0
  deriving DecidableEq, Repr

/-- One bank of one array (R30, R32). -/
structure ABank where
  st : BankState := .empty
  layout : Layout := .w4
  map : List MapEntry := [{}, {}, {}, {}]
  w4sMap : List MapEntry := [{}, {}, {}, {}]
  rows : Tab CellRow := []
  rewrites : Nat := 0
  trims : Tab (BitVec 6) := []
  shadow : Option (Tab (BitVec 6)) := none
  stuck0 : Tab CellRow := []
  stuck1 : Tab CellRow := []
  /-- a column map change waiting for the boundary (R60) -/
  nextMap : Option (List MapEntry) := none
  deriving DecidableEq, Repr

/-- Input buffer slot (2.3, R69, R70): `width` is the header's format code. `src`: where its vector lies. -/
structure InSlot where
  elems : Tab (BitVec 16) := []
  width : Option Nat := none
  signed : Bool := false
  src : Option Nat := none
  deriving DecidableEq, Repr

/-- One core (R96). -/
structure Core where
  bankA : ABank := {}
  bankB : ABank := {}
  bptrB : Bool := false
  capmode : Bool := false
  fenced : Bool := false
  slot0 : InSlot := {}
  slot1 : InSlot := {}
  sums0 : Tab Acc := []
  sums1 : Tab Acc := []
  nextSet1 : Bool := false
  acc : Tab Acc := []
  lastMismatch : Nat := 0
  sliceOk : Bool := true
  /-- a planned coppicing is asked for: a scrub, slice, margin or calibration found the core faulty (R367, R412) -/
  suspect : Bool := false
  sliceTick : Nat := 0
  sliceStep : Nat := 0
  /-- the slice under way runs under clock margin; the voltage margin run in which the core was tested last (R374) -/
  sliceMargin : Bool := false
  marginRun : Nat := 0
  deriving DecidableEq, Repr

/-! ## Stand (04, 05, 06) -/

/-- A PASS with the values it carries (R150, R157). `bankFix`: the bank a repeat must use (R80). -/
structure PassOp where
  slot : Nat
  bsel : Nat
  first : Nat
  nrows : Nat
  width : Nat
  sign : Bool
  dense : Bool
  acc : Bool
  tile : Option Nat
  bankFix : Option Bool := none
  deriving DecidableEq, Repr

/-- An RQNT with the values it carries (R158). -/
structure RqOp where
  firsto : Nat
  nout : Nat
  mode : Nat
  fmt : Nat
  sign : Bool
  gt : Nat
  gd : Nat
  tile : Option Nat
  deriving DecidableEq, Repr

/-- Instructions of a core queue (Table 6.1). -/
inductive CoreOp where
  | vld (slot : Nat) (addr : Nat)
  | pass (p : PassOp)
  | rqnt (r : RqOp)
  deriving DecidableEq, Repr

/-- A pass in the pipeline (R56): what it latched at issue; `reexec` the first mismatching cycle of its first execution;
`paired`: it also runs on core 16 (R287). -/
structure PassJob where
  op : PassOp
  bankB : Bool
  conflict : Bool
  budget : Nat
  bits : Nat
  reexec : Option Nat := none
  paired : Bool := false
  deriving DecidableEq, Repr

/-- A requantize step that its engine holds (R73): it waits for `earlier` passes to settle (R171), outputs below `next` are
written; `entries` is the entry buffer (R483); `rep`: it belongs to a sentinel repeat (R80). -/
structure RqJob where
  op : RqOp
  next : Nat := 0
  entries : List Word := []
  earlier : Nat := 0
  rep : Bool := false
  deriving DecidableEq, Repr

/-- A service position: its queue and engines (R150, R151); the first `nrep` operations of the queue belong to sentinel repeats
and stand ahead of the core's own (R80). -/
structure PosUnit where
  queue : List CoreOp := []
  nrep : Nat := 0
  passes : List PassJob := []
  rq : Option RqJob := none
  deriving DecidableEq, Repr

/-- A recorded step of a tile at a position, in issue order (R80, R83). For a pass, `bankB` is the bank its issue resolved
(none before it begins), `src` where its slot's vector lay, `cycles` its issue cycles. -/
inductive TileStep where
  | pass (pos : Nat) (op : PassOp) (bankB : Option Bool) (src : Option Nat) (cycles : Nat)
  | rqnt (pos : Nat) (op : RqOp)
  deriving DecidableEq, Repr

/-- A tile (R77 to R84): `word` its sentinel word, `thresh` and `mode` latched at its opening, `cost` the repeats of this
beat; `running`: its deferred repeat has started and has not had its verdict (Table 6.8). -/
structure Tile where
  uid : Nat
  num : Nat
  word : DWord
  thresh : Nat
  mode : Nat
  fmt : Nat
  steps : List TileStep := []
  vectors : List Nat := []
  outputs : Nat := 0
  clips : Nat := 0
  cost : Nat := 0
  first : Bool := true
  deferred : Bool := false
  running : Bool := false
  deriving DecidableEq, Repr

/-- Scratchpad bank power states (Table 4.9). -/
inductive BankPower where
  | on | closing | off | waking
  deriving DecidableEq, Repr

/-- A scratchpad bank (R102 to R105, R115). -/
structure SpadBank where
  power : BankPower := .on
  deadline : Nat := 0
  spare0 : Option Nat := none
  spare1 : Option Nat := none
  degraded : Bool := false
  corr : Tab Nat := []
  /-- rows due for repair: the row, after an uncorrectable read, the tick since when (R104, R373) -/
  due : List (Nat × Bool × Nat) := []
  copying : List (Nat × Nat) := []
  fieldRepairs : Nat := 0
  lastGrant : Nat := 20
  sliceTick : Nat := 0
  sliceStep : Nat := 0
  sliceMargin : Bool := false
  marginRun : Nat := 0
  deriving DecidableEq, Repr

/-- Window row states (Table 4.5). -/
inductive RowSt where
  | free
  | granted (sender accepted : Nat) (announced : Option Nat)
  | filled (sender : Nat)
  deriving DecidableEq, Repr

/-- Window states (R106, R115). -/
inductive WinSt where
  | closed | opened | closing
  deriving DecidableEq, Repr

/-- A receive window or relay slot (R106, R347). -/
structure Window where
  st : WinSt := .closed
  bank : Nat := 0
  first : Nat := 0
  count : Nat := 0
  gen : Nat := 0
  deadline : Nat := 0
  rows : Tab RowSt := []
  flags : BitVec 32 := 0
  fill : Tab Nat := []
  deriving DecidableEq, Repr

/-- A queued credit request (R108). -/
structure CreditReq where
  src : Nat
  sinc : Nat
  msg : CreqMsg
  deriving DecidableEq, Repr

/-- A voided credit that a late write may still name (R116). -/
structure Voided where
  slot : Nat
  gen : Nat
  row : Nat
  sender : Nat
  noticed : Bool
  deriving DecidableEq, Repr

/-- A credit unit (R96): the windows, the queue, the voided credits. -/
structure CreditUnit where
  windows : Tab Window := []
  queue : List CreditReq := []
  voids : List Voided := []
  deriving DecidableEq, Repr

/-- An entry of the sender credit table (R161). -/
structure SenderEntry where
  dest : Nat
  window : Nat
  row : Nat
  gen : Nat
  writes : Nat
  deriving DecidableEq, Repr

/-- An outstanding CREQ with its reservation (R161); `refused`: the tick of its refusal. -/
structure OutCreq where
  dest : Nat
  msg : CreqMsg
  refused : Option Nat := none
  deriving DecidableEq, Repr

/-- Instructions of the router outbound queue (Table 6.1) with captured values. -/
inductive OutOp where
  | creq (dest : Nat) (m : CreqMsg)
  | rwr (idx dest : Nat) (h : WriteHdr) (src : Nat) (vec : Bool)
  | mwr (idx desc : Nat) (h : WriteHdr) (src : Nat) (vec : Bool)
  | red (idx dest rid : Nat) (lead : Bool) (window row src : Nat)
  deriving DecidableEq, Repr

/-- Instructions of the DMU queue (Table 6.1) with captured values. -/
inductive DmuOp where
  | xld (bufY : Bool) (addr start count didx : Nat)
  | mma (mode m n k : Nat) (add xf yf : Bool) (xb yb : Nat)
  | mwo (wmode set m n addr : Nat) (scale : Word)
  | ada (handle : Word) (addr dst matrix start : Nat)
  | adb (handle : Word) (addr dst matrix start count : Nat)
  deriving DecidableEq, Repr

/-- Instructions of the vector unit queue (Table 6.1) with the addresses and values they carry; `c` is g[GC], g[GP] or absent. -/
inductive VecOp where
  | vop (func type : Nat) (d a b c : Nat) (n : Nat)
  | qnt (type : Nat) (d a b c : Nat) (n : Nat)
  | vtopk (k d a b n : Nat) (merge : Bool)
  | vsmp (d a k p : Nat)
  | vacc (d a b g : Nat)
  deriving DecidableEq, Repr

/-- A DMA instruction with the values it carries (R164). -/
structure DmaOp where
  idx : Nat
  dir : Bool
  tierB : Bool
  addr : Nat
  window : Nat
  row : Nat
  words : Nat
  src : Nat
  deriving DecidableEq, Repr

/-- An outstanding memory request (R327). -/
structure OutMem where
  node : Nat
  req : MemReq
  refused : Option Nat := none
  deriving DecidableEq, Repr

/-- The DMA that runs (R164): the window rows still to fill, the tags still to be answered. -/
structure DmaJob where
  window : Nat
  rows : List Nat
  tags : List Nat
  deriving DecidableEq, Repr

/-- The dynamic matrix unit (R125, R126). -/
structure Dmu where
  bufX : Tab Byte := []
  bufY : Tab Byte := []
  wx : Nat := 8
  wy : Nat := 8
  set0 : Tab DWord := []
  set1 : Tab DWord := []
  mode0 : Option Nat := none
  mode1 : Option Nat := none
  count : Nat := 0
  deriving DecidableEq, Repr

/-- Service map (Table 4.13). -/
structure SvcMap where
  fenced : Nat := 31
  valid : Bool := false
  spos : Nat := 0
  deriving DecidableEq, Repr

/-- A coppicing (R367 to R369). -/
structure Coppice where
  pos : Nat
  old : Nat
  urgent : Bool
  start : Nat
  verified : Bool := false
  micros : Nat := 0
  deriving DecidableEq, Repr

/-- A maintenance item due on a stand (R373). -/
structure MaintItem where
  kind : MaintKind
  since : Nat
  deriving DecidableEq, Repr

/-- A stand (R96). -/
structure Stand where
  pc : Nat := 0
  regs : Tab Word := []
  running : Bool := false
  bended : Bool := false
  backlog : List Instr := []
  spad : Tab Word := []
  wrongBits : Tab Nat := []
  banks : Tab SpadBank := []
  credit : CreditUnit := {}
  voidFlags : BitVec 16 := 0
  sender : List SenderEntry := []
  creqs : List OutCreq := []
  known : Tab Nat := []
  units : Tab PosUnit := []
  outQ : List OutOp := []
  dmuQ : List DmuOp := []
  vecQ : List VecOp := []
  dmaQ : List DmaOp := []
  dma : Option DmaJob := none
  mems : Tab OutMem := []
  nextTag : Nat := 0
  dmu : Dmu := {}
  tile : Option Tile := none
  tiles : List Tile := []
  tileSeq : Nat := 0
  svc : SvcMap := {}
  quarantined : Bool := false
  pairA : Option Nat := none
  pairB : Option Nat := none
  arrivals : Tab Nat := []
  arrived : Tab Bool := []
  coppice : Option Coppice := none
  /-- since when the controller has held the instruction at the front of `backlog` -/
  headSince : Nat := 0
  dogHold : Nat := 0
  dogBeats : List Nat := []
  maint : List MaintItem := []
  /-- the launch waits for a forced clearing: since this tick, for so many items (R373) -/
  clearing : Option (Nat × Nat) := none
  /-- steps done of the UNIT slice under way (R372) -/
  unitStep : Nat := 0
  deriving DecidableEq, Repr

/-! ## Network (07) -/

/-- A reduction entry (R219): `pkt` is the sum so far, with the lead's source when a lead is in. -/
structure RedEntry where
  pkt : Packet
  since : Nat
  deriving DecidableEq, Repr

/-- A router or a port endpoint's reduction side (R218, R219, R350). -/
structure Router where
  entries : List RedEntry := []
  combine : List (Packet × Nat) := []
  waiting : List Packet := []
  deriving DecidableEq, Repr

/-- A mesh link direction (R206, R375): `width` 0 full, 1 half, 2 failed. -/
structure Link where
  replay : List (BitVec 8 × BitVec 512) := []
  replays : List Nat := []
  width : Nat := 0
  /-- a LINK slice failed: the wire test follows (R372, R375) -/
  testDue : Bool := false
  deriving DecidableEq, Repr

/-- A seam link direction (R224, R225): substitutions (wire, spare). -/
structure Seam where
  wires : List (Nat × Nat) := []
  failed : List Nat := []
  width : Nat := 0
  replays : Nat := 0
  testDue : Bool := false
  deriving DecidableEq, Repr

/-- A unit with a node number (R326, R430): after POR, incarnation 1 and cause POR. -/
structure NodeInfo where
  inc : Nat := 1
  cause : Nat := 1
  away : Bool := false
  deriving DecidableEq, Repr

/-- The TIME domain (R196 to R202). -/
structure Time where
  tick : Nat := 0
  beat : Nat := 0
  len : Nat := 800
  originTick : Nat := 0
  originBeat : Nat := 0
  originDue : Bool := true
  start : Nat := 0
  slip : Nat := 0
  slipRaised : Bool := false
  launchDue : Bool := false
  hazardStop : Bool := false
  /-- beat counter and slip are frozen after a hazard stop (R203) -/
  frozen : Bool := false
  /-- launches wait for the resume limit after a stop (R404) -/
  resumeWait : Bool := false
  deriving DecidableEq, Repr

/-! ## Serving engine (08) -/

/-- A checked SUBMIT descriptor (Table 8.3). -/
structure Desc where
  tag : Nat
  cls : Nat
  pin : Bool
  spec : Nat
  nterm : Bool
  ntok : Bool
  nadm : Bool
  msixv : Nat
  quota : Nat
  epoch : Nat
  adapter : Nat
  deadline : Nat
  maxlen : Nat
  poff : Nat
  plen : Nat
  topk : Nat
  temp : Word
  topp : Word
  seed : DWord
  stops : List Word
  deriving DecidableEq, Repr

/-- Work in flight of a request (R253, R257). -/
structure Flight where
  step : Nat
  chunk : Bool
  entry : Nat
  first : Nat
  count : Nat
  last : Bool
  bankB : Bool
  deriving DecidableEq, Repr

/-- Request states that hold a slot (Table 8.7). -/
inductive ReqState where
  | prefill | generating | suspended (generating : Bool)
  deriving DecidableEq, Repr

/-- A request that holds a slot (R245). -/
structure Req where
  d : Desc
  rgen : Nat
  st : ReqState := .prefill
  ng : Nat
  admNo : Nat
  home : Nat := 0
  next : Nat := 0
  committed : Nat := 0
  l : Nat := 0
  x : Word := 0
  gk : Nat := 0
  stepNo : Nat := 1
  flight : List Flight := []
  losses : Nat := 0
  expl : Bool := false
  epoch : Nat
  bankB : Bool
  aslot : Option Nat := none
  handle : Nat := 0
  groups : Tab Nat := []
  suspendedAt : Nat := 0
  prompt : List Word := []
  deriving DecidableEq, Repr

/-- A deferred request (R246); `answered`: DEFER was recorded for it (R247, R238). -/
structure Deferred where
  d : Desc
  sampled : Nat
  seq : Nat
  answered : Bool := false
  deriving DecidableEq, Repr

/-- A mirror entry (R255). -/
structure Mirror where
  adm : Nat
  rslot : Nat
  rgen : Nat
  handle : Nat
  aslot : Option Nat
  bankB : Bool
  groups : Tab Nat := []
  deriving DecidableEq, Repr

/-- A completion record (Table 8.4) and the interrupt it asks for (R239). -/
structure Rec where
  tag : Nat
  status : Nat
  reason : Nat := 0
  rslot : Nat := 0
  pos : Nat := 0
  aux0 : Nat := 0
  aux1 : Nat := 0
  toks : List Word := []
  generated : Nat := 0
  vec : Option Nat := none
  deriving DecidableEq, Repr

/-- The sampling parameters that the batch table carries beside a row header (R254). -/
structure Sampling where
  topk : Nat := 0
  temp : Word := 0
  topp : Word := 0
  seed : DWord := 0
  deriving DecidableEq, Repr

/-- A row of the batch table (Table 8.8) with its request's sampling parameters and its page list. -/
structure BatchRow where
  slot : Nat
  adm : Nat
  kind : Nat := 0
  bankB : Bool := false
  last : Bool := false
  expl : Bool := false
  k : Nat := 0
  rslot : Nat := 0
  rgen : Nat := 0
  step : Nat := 0
  pos : Nat := 0
  token : Word := 0
  sampling : Sampling := {}
  pages : List Word := []
  deriving DecidableEq, Repr

/-- The serving engine. -/
structure Serving where
  state : Nat := 0
  stopDue : Bool := false
  scons : Nat := 0
  cprod : Nat := 0
  chead : Nat := 0
  sblock : Option Nat := none
  rslots : Tab (Option Req) := []
  rgens : Tab Nat := []
  deferred : List Deferred := []
  admNo : Nat := 0
  seqNo : Nat := 0
  held : List Rec := []
  fg : Rat := 0
  fs : Rat := 0
  groupsFreed : Nat := 0
  slotsFreed : Nat := 0
  mirrors : List Mirror := []
  batch : List BatchRow := []
  /-- page lists for the rows of other admitting modules: ADM, RSLOT, the list of the request (R255) -/
  peerPages : List (Nat × Nat × List Word) := []
  ann : List AnnEntry := []
  /-- the announcement block that step 6 wrote last -/
  annOut : List AnnEntry := []
  /-- terminated requests: tag, status, tokens committed, slot (R265) -/
  remembered : List (Nat × Nat × Nat × Nat) := []
  vecs : BitVec 16 := 0
  suspendDue : Bool := false
  kvErr : List (Bool × Nat) := []
  faultErr : List (Nat × Nat) := []
  deriving DecidableEq, Repr

/-! ## Weights, adapters, binaries (09, 06) -/

/-- A weight version in a bank (R275); `cap`, `peer`: CAP and SOURCE of its STAGE (R282, R297). -/
structure Version where
  epoch : Nat := 0
  layoutId : DWord := 0
  place : Nat := 0
  cap : Bool := false
  peer : Bool := false
  deriving DecidableEq, Repr

/-- Shard status codes (Table 9.4). -/
inductive ShardStatus where
  | absent | wanted | arrived | writing | verified | bad | missing | unplaceable
  deriving DecidableEq, Repr

/-- A shard of a bank as the installation record holds it (R276, R284): its status and its header. Its rows stand in tier B (R294). -/
structure Shard where
  st : ShardStatus := .absent
  attempt : Nat := 0
  peer : Bool := false
  paired : Bool := false
  w4s : BitVec 16 := 0
  deadline : Nat := 0
  hdr : List Byte := []
  done : BitVec 16 := 0
  deriving DecidableEq, Repr

/-- An open staging (R279). -/
structure Staging where
  cap : Bool
  peer : Bool
  place : Nat
  epoch : Nat
  layoutId : DWord
  deriving DecidableEq, Repr

/-- The switch (R289 to R292): states of Table 9.6. -/
structure Switch where
  st : Nat := 0
  epoch : Nat := 0
  nmod : Nat := 0
  grace : Nat := 0
  beat : Nat := 0
  members : Nat := 0
  completed : Bool := false
  retired : Bool := false
  pointerDone : Bool := false
  graceOpen : Bool := false
  deriving DecidableEq, Repr

/-- An adapter slot header, read from tier A (Table 9.9). -/
structure ASlot where
  ident : Nat := 0
  gen : Nat := 0
  st : Nat := 0
  refs : Nat := 0
  first : Nat := 0
  length : Nat := 0
  digest : List Byte := []
  deriving DecidableEq, Repr

/-- Weights and adapters. -/
structure Weights where
  verA : Version := {}
  verB : Version := {}
  current : Nat := 0
  ptrB : Bool := false
  capmode : Bool := false
  shards : Tab Shard := []
  staging : Option Staging := none
  sw : Switch := {}
  /-- entry beat of the last row allocated with each bank (R291) -/
  lastA : Option Nat := none
  lastB : Option Nat := none
  inboxFree : BitVec 16 := 0xFFFF
  cmds : List (List Byte) := []
  wres : Nat := 0
  scrubLeft : List Nat := []
  /-- begin of the scrub round, and whether SCRUB_NOW began it (R296) -/
  scrubStart : Nat := 0
  scrubAsap : Bool := false
  idMap : Tab Nat := []
  mapDue : List (Nat × Nat) := []
  unmapDue : List Nat := []
  ares : Nat := 0
  /-- master area bytes whose burst read uncorrectable (Table 12.3) -/
  masterErr : List Nat := []
  deriving DecidableEq, Repr

/-- The binary store (R190, R191): containers as their bytes. -/
structure Binary where
  current : Option (List Byte) := none
  staged : Option (List Byte) := none
  activate : Option Nat := none
  fresh : Bool := false
  b0 : Nat := 0
  res : Nat := 0
  deriving DecidableEq, Repr

/-! ## Memory (10) -/

/-- What a grant performs (R316): nothing of its own (an engine's request), a burst of a MEMREQ with the bytes read so far, or a
patrol read (R311). -/
inductive ArbWork where
  | engine
  | mem (p : Packet) (read : List Byte)
  | patrol (k : Nat)
  deriving DecidableEq, Repr

/-- A request in an arbiter (R320, R321): `burst` is the one that it waits for. -/
structure ArbReq where
  requester : Nat
  node : Nat
  burst : Nat
  lock : Bool
  since : Nat
  work : ArbWork := .engine
  deriving DecidableEq, Repr

/-- Counters of one requester (R324). -/
structure ArbStat where
  grants : BitVec 48 := 0
  wait : BitVec 48 := 0
  longest : Nat := 0
  deriving DecidableEq, Repr

/-- An arbiter (R319 to R325): `holder` holds the grant within a locked sequence, since a tick; `lock`: owner and its bursts. -/
structure Arbiter where
  queue : List ArbReq := []
  holder : Option (ArbReq × Nat) := none
  lastGrant : Tab Nat := []
  lock : Option (Nat × Nat × Nat) := none
  stats : Tab ArbStat := []
  deriving DecidableEq, Repr

/-- A stack's remap (Table 10.12). -/
structure Remap where
  valid : Bool := false
  copying : Bool := false
  pch : Nat := 0
  deriving DecidableEq, Repr

/-- The two tiers and the arbiters. -/
structure Mem where
  tierA : List Host.Cell := []
  tierB : List Host.Cell := []
  wrongA : Tab Nat := []
  wrongB : Tab Nat := []
  ueSeen : Tab Nat := []
  pchCorr : Tab Nat := []
  retire : List Nat := []
  patrol : Tab Nat := []
  /-- tick at which the patrol round of an endpoint began (R311) -/
  patrolStart : Tab Nat := []
  arbs : Tab Arbiter := []
  remaps : Tab Remap := []
  /-- incarnations of maintenance engines and of the engines behind arbiters 88 to 92, at 32 · arbiter + requester (R325, R326) -/
  engines : Tab Nat := []
  deriving DecidableEq, Repr

/-! ## Ports (11) -/

/-- A port (Table 11.4, R337, R341). -/
structure Port where
  st : Nat := 0
  mode : Nat := 0
  reason : Nat := 0
  peerPort : Nat := 0
  peerPos : Nat := 0
  gwok : Bool := false
  pcs : Bool := false
  lastHello : Nat := 0
  lastSent : Nat := 0
  /-- link-layer address of the partner: of its last valid hello, or of the gateway (R338, R354) -/
  peerMac : Nat := 0
  cable : Bool := false
  powered : Bool := false
  rounds : List Nat := []
  deriving DecidableEq, Repr

/-- A transport path (R344, R345). -/
structure Path where
  nextSeq : Nat := 0
  unacked : List (Frame × Nat) := []
  /-- frames for which the path has no place yet (R344) -/
  waiting : List Frame := []
  /-- frames of `unacked` already sent -/
  sent : Nat := 0
  win : Nat := 1
  expect : Nat := 0
  partner : Nat := 0
  deriving DecidableEq, Repr

/-- A row that a port endpoint delivers into windows (R348): the frame, its destinations and the credits obtained. -/
structure Holding where
  tag : Nat
  frame : Frame
  window : Nat
  row : Nat
  dests : List (Nat × Option Nat)
  refused : List (Nat × Nat) := []
  deriving DecidableEq, Repr

/-- A reduction that ends at a port endpoint (R350): parts sent and parts acknowledged. -/
structure RedJob where
  slot : Nat
  row : Nat
  count : Nat
  sent : List Nat := []
  acked : List Nat := []
  deriving DecidableEq, Repr

/-- A port endpoint (R334, R347). -/
structure Endpoint where
  credit : CreditUnit := {}
  rowWords : Tab Word := []
  delivering : List Frame := []
  holding : List Holding := []
  mems : List OutMem := []
  reds : List RedJob := []
  nextTag : Nat := 0
  /-- incarnations learned from answers (R209) -/
  known : Tab Nat := []
  deriving DecidableEq, Repr

/-- Flag unit channel (R355 to R357). -/
structure FlagChan where
  arrivedPhase : Nat := 0
  arrivals : List (Nat × Nat) := []
  sentPhase : Nat := 0
  done : Nat := 0
  deriving DecidableEq, Repr

/-- Ports, transport, flag unit and shard transfer. -/
structure Grove where
  ports : Tab Port := []
  paths : Tab Path := []
  endpoints : Tab Endpoint := []
  delivered : Tab Nat := []
  chans : Tab FlagChan := []
  frags : List (Nat × Nat × Bool × List Byte) := []
  requested : List (Nat × Bool) := []
  deriving DecidableEq, Repr

/-! ## Reliability (12) -/

/-- An error record (Table 12.8) before its SEQ. -/
structure ErrRec where
  cls : Nat
  sev : Nat
  beat : Nat := 0
  opcode : Nat := 0xFF
  unit : Nat := 0xFFFF
  sub : Nat := 0xFF
  wall : Nat := 0
  temp : Int := 0
  tsens : Nat := 0
  railch : Nat := 0
  rail : Nat := 0
  detail : List Byte := []
  deriving DecidableEq, Repr

/-- Errors, log, health and self-test. -/
structure Rel where
  health : Nat := 0
  degraded : Bool := false
  fsCause : Nat := 0
  fsBeat : Option Nat := none
  fsTick : Nat := 0
  uncovered : List (BitVec 16 × Byte × Byte) := []
  logCount : Nat := 0
  collector : List ErrRec := []
  cper : List (Nat × ErrRec) := []
  wall : Nat := 0
  wallSet : Bool := false
  foresterRestarts : Nat := 0
  restartTicks : List Nat := []
  sentLog : Nat := 0
  sliceCount : Nat := 0
  sweepStart : Nat := 0
  lastSweep : Nat := 0
  cmdSlice : List Byte := []
  /-- quadrant under voltage margin, and the number of voltage margin runs begun (R374) -/
  marginQ : Option Nat := none
  marginRun : Nat := 0
  /-- CORE and SPAD slices begun (R374) -/
  slicesBegun : Nat := 0
  /-- ends of the core steps that run (R371) -/
  stepTicks : List Nat := []
  /-- the effects of a fault stop are in force (R379) -/
  stopNow : Bool := false
  deriving DecidableEq, Repr

/-! ## Sensing (13) -/

/-- An ADC channel (R387 to R391, Table 13.11). -/
structure Adc where
  raw : Int := 0
  code : Int := 0
  settle : Nat := 0
  offset : Int := 0
  gain : Nat := 4194304
  shadow : Option (Int × Nat) := none
  calfail : Bool := false
  trigBusy : Bool := false
  deriving DecidableEq, Repr

/-- A diode or thermistor (R392 to R397). Readings in 1/64 degree. -/
structure Sensor where
  reading : Int := 0
  valid : Bool := false
  failed : Bool := false
  cause : Nat := 0
  misses : Nat := 0
  cadence : Nat := 0
  last : Nat := 0
  history : List (Nat × Int) := []
  deriving DecidableEq, Repr

/-- Sensing, thermal control and calibration. -/
structure Sense where
  adcs : Tab Adc := []
  diodes : Tab Sensor := []
  therms : Tab Sensor := []
  /-- repair record: ideality factor of a diode in 1/65536 and series resistance in milliohm (R392) -/
  ideality : Tab Nat := []
  seriesR : Tab Nat := []
  tlevel : Nat := 0
  plevel : Nat := 0
  /-- 0 running, 1 immediate stop decided, 2 STOPPING, 3 STOPPED, 4 HALTED (Table 13.10) -/
  stop : Nat := 0
  lastRise : Option Nat := none
  lastChange : Nat := 0
  belowSince : Nat := 0
  stopTick : Nat := 0
  stopBoundary : Option Nat := none
  vrefBad : Bool := false
  adcRunEnd : Bool := false
  adcRunDue : Bool := false
  adcMean : Int := 0
  adcLast : Nat := 0
  adcCommit : Nat := 0
  quadMean : Tab Int := []
  quadLast : Tab Nat := []
  quadCommit : Tab Nat := []
  quadPending : Tab Nat := []
  /-- THERMTRIP_N is released -/
  tripN : Bool := true
  deriving DecidableEq, Repr

/-! ## Power, reset, identity (14) -/

/-- A firmware image slot (R433): its bytes. -/
abbrev FwSlot := List Byte

/-- Power, reset and identity. -/
structure Power where
  state : Nat := 0
  vaux : Bool := true
  in48 : Bool := false
  railStep : Nat := 0
  seqFails : Nat := 0
  exitStep : Nat := 1
  floor : Nat := 0
  noSpare : List Nat := []
  /-- since when every sample exceeded the power limit (R423) -/
  aboveSince : Option Nat := none
  /-- since when every sample lay below 0.95 of the limit (R423) -/
  lowSince : Option Nat := none
  /-- tick of the latest change of the power level, and of its latest rise by the 1 s mean (R423) -/
  levelTick : Nat := 0
  lastSRise : Option Nat := none
  /-- the power level without the floor of R422 -/
  level : Nat := 0
  /-- samples of the last 1 s in mW, newest first (R423) -/
  samples : List Nat := []
  /-- input energy not yet a whole joule, in units of 10 nJ -/
  energy : Nat := 0
  /-- VCORE phases (R420, R421): 0 working, 1 spare, 2 failed -/
  phases : Tab Nat := [(16, 1), (33, 1), (50, 1), (67, 1)]
  cause : BitVec 32 := 0x10000000
  /-- records of the forester that wait until the die can log them (R405, R425, R431, R433) -/
  due : List ErrRec := []
  causeBeat : Nat := 0
  causeWall : Nat := 0
  rings : Tab Nat := [(1, 1)]
  lifecycle : Nat := 0
  debugNext : Nat := 0
  debug : Nat := 0
  fwA : FwSlot := []
  fwB : FwSlot := []
  running : Nat := 0
  recovery : Bool := false
  /-- the boot ROM has still to verify and start the forester (Table 14.5 step 1) -/
  fwCheck : Bool := true
  fwFloor : Nat := 0
  deviceKey : Bool := true
  scrapFuse : Bool := false
  cmdRes : Nat := 0
  upRes : Nat := 0
  spdmVersion : Bool := false
  spdmCaps : Bool := false
  spdmAlgs : Bool := false
  /-- transcripts of SPDM: of CHALLENGE in two parts, of MEASUREMENTS (log 50) -/
  spdmA : List Byte := []
  spdmB : List Byte := []
  spdmL : List Byte := []
  salt : Nat := 0
  deriving DecidableEq, Repr

/-! ## Host link and dictionary (15) -/

/-- The outputs of the module, newest first (log 7). -/
inductive Output where
  | answer (path : MPath) (bytes : List Byte)
  | spdm (path : MPath) (bytes : List Byte)
  | mailbox (ret : Nat) (bytes : List Byte)
  | mctp (bytes : List Byte)
  | ether (port : Nat) (e : Ether)
  | neighbour (port : Nat) (solicit : Bool) (addr : List Byte)
  | msix (vector : Nat)
  | hostData (bytes : List Byte)
  | hostDone
  | snoopMiss (addr : Nat)
  | flits (router dir : Nat) (seqs : List (BitVec 8))
  | vlan (port : Nat) (dst : List Byte) (dstPort : Nat) (bytes : List Byte)
  | sequence (step : Nat)
  deriving DecidableEq, Repr

/-- A staged OCTET write (R455). -/
structure Staged where
  path : MPath
  key : Nat
  data : List Byte
  tick : Nat
  expired : Bool := false
  deriving DecidableEq, Repr

/-- A Recount snapshot of a path (R463). -/
structure Snapshot where
  path : MPath
  bytes : List Byte
  tick : Nat
  deriving DecidableEq, Repr

/-- A request waiting on a path (R456, R458, R463): its message, when it came and in which beat, and where a VLAN answer goes. -/
structure QueuedReq where
  path : MPath
  msg : List Byte
  tick : Nat
  beat : Nat
  via : Option (Nat × List Byte × Nat) := none
  deriving DecidableEq, Repr

/-- The host link, MSI-X and the dictionary's own state. -/
structure HostIf where
  linkSt : Nat := 0
  proto : Nat := 0
  width : Nat := 0
  rate : Nat := 0
  flit : Bool := false
  memen : Bool := false
  msixen : Bool := false
  mbirq : Bool := false
  msixMask : BitVec 32 := 0xFFFFFFFF
  msixPend : BitVec 32 := 0
  msixDue : BitVec 32 := 0
  eid : Byte := 0
  staged : List Staged := []
  queued : List QueuedReq := []
  snapshots : List Snapshot := []
  nsnap : Nat := 0
  vlanLast : List (List Byte × Nat × List Byte) := []
  deriving DecidableEq, Repr

/-- The module. -/
structure State where
  pending : List Instr := []
  outbox : List Output := []
  freeCtr : Nat := 0
  settings : Tab Nat := []
  octets : Tab (List Byte) := []
  counters : Tab Nat := []
  time : Time := {}
  cores : Tab Core := []
  stands : Tab Stand := []
  nodes : Tab NodeInfo := []
  mesh : List Packet := []
  routers : Tab Router := []
  links : Tab Link := []
  seams : Tab Seam := []
  phases : Tab Nat := []
  serving : Serving := {}
  weights : Weights := {}
  binary : Binary := {}
  mem : Mem := {}
  grove : Grove := {}
  rel : Rel := {}
  sense : Sense := {}
  power : Power := {}
  host : HostIf := {}
  deriving DecidableEq, Repr

/-- The module right after POR: VAUX valid, 48 V not yet sequenced (R416, R425 step 1). -/
def State.reset : State := {}

end Sys2Proof.Machine
end

