-- ==== Sys2Proof/Machine/Ops.lean ====
section
/-! DEFINITION. The shared operations: access to units, counters, settings, error records, outputs, scratchpad, tier memory,
packets. -/

namespace Sys2Proof.Machine

/-- The outcome of every command of the module that has an effect. -/
abbrev Res := Host.Outcome State Fault Refusal

/-! ## Units -/

/-- The node numbers of the 5,000 stands (R19). -/
def allStands : List Nat := List.range 5000
/-- Stand st. -/
def State.stand (s : State) (st : Nat) : Stand := Tab.get {} s.stands st
/-- Replace stand st. -/
def State.setStand (s : State) (st : Nat) (v : Stand) : State := { s with stands := Tab.set {} s.stands st v }
/-- Change stand st. -/
def State.modStand (s : State) (st : Nat) (f : Stand → Stand) : State := s.setStand st (f (s.stand st))
/-- Array number of core c of stand st (2.9). -/
def arrayNo (st c : Nat) : Nat := st * 17 + c
/-- Core c of stand st. -/
def State.core (s : State) (st c : Nat) : Core := Tab.get {} s.cores (arrayNo st c)
/-- Change core c of stand st. -/
def State.modCore (s : State) (st c : Nat) (f : Core → Core) : State :=
  { s with cores := Tab.set {} s.cores (arrayNo st c) (f (s.core st c)) }
/-- Unit with node number n. -/
def State.node (s : State) (n : Nat) : NodeInfo := Tab.get {} s.nodes n
/-- Change unit n. -/
def State.modNode (s : State) (n : Nat) (f : NodeInfo → NodeInfo) : State :=
  { s with nodes := Tab.set {} s.nodes n (f (s.node n)) }
/-- Router or reduction side of node n. -/
def State.router (s : State) (n : Nat) : Router := Tab.get {} s.routers n
/-- Change the router of node n. -/
def State.modRouter (s : State) (n : Nat) (f : Router → Router) : State :=
  { s with routers := Tab.set {} s.routers n (f (s.router n)) }
/-- Port endpoint of node n. -/
def State.endpoint (s : State) (n : Nat) : Endpoint := Tab.get {} s.grove.endpoints n
/-- Change a port endpoint. -/
def State.modEndpoint (s : State) (n : Nat) (f : Endpoint → Endpoint) : State :=
  { s with grove := { s.grove with endpoints := Tab.set {} s.grove.endpoints n (f (s.endpoint n)) } }
/-- The credit unit at node n: of a stand, or of a port endpoint (R347). -/
def State.credit (s : State) (n : Nat) : CreditUnit :=
  if n < 5000 then (s.stand n).credit else (s.endpoint n).credit
/-- Change the credit unit at node n. -/
def State.modCredit (s : State) (n : Nat) (f : CreditUnit → CreditUnit) : State :=
  if n < 5000 then s.modStand n fun x => { x with credit := f x.credit }
  else s.modEndpoint n fun x => { x with credit := f x.credit }
/-- Port p. -/
def State.port (s : State) (p : Nat) : Port := Tab.get {} s.grove.ports p
/-- Change port p. -/
def State.modPort (s : State) (p : Nat) (f : Port → Port) : State :=
  { s with grove := { s.grove with ports := Tab.set {} s.grove.ports p (f (s.port p)) } }
/-- Arbiter n. -/
def State.arb (s : State) (n : Nat) : Arbiter := Tab.get {} s.mem.arbs n
/-- Change arbiter n. -/
def State.modArb (s : State) (n : Nat) (f : Arbiter → Arbiter) : State :=
  { s with mem := { s.mem with arbs := Tab.set {} s.mem.arbs n (f (s.arb n)) } }
/-- Next incarnation: up by 1 modulo 65,536, skipping 0 (R326). -/
def nextInc (n : Nat) : Nat := if (n + 1) % 65536 = 0 then 1 else (n + 1) % 65536

/-- Global column of a stand (R211). -/
def gcol (st : Nat) : Nat := st / 2500 * 50 + st % 50
/-- Row of a stand. -/
def grow (st : Nat) : Nat := st % 2500 / 50
/-- Stand at global column X, row y (R8, R211). -/
def standAt (x y : Nat) : Nat := x / 50 * 2500 + y * 50 + x % 50
/-- Quadrant of a stand: SW 0, NW 1, SE 2, NE 3 (R374). -/
def quadrant (st : Nat) : Nat := st / 2500 * 2 + (if 25 ≤ grow st then 1 else 0)

/-- Attachment stand of a node (Table 10.3, Table 11.1); a stand is its own. -/
def attach (n : Nat) : Nat :=
  if n < 5000 then n
  else if n < 5064 then
    let s := (n - 5000) / 8
    let k := (n - 5000) % 8
    let half := s / 4
    let x := if s % 4 = 0 ∨ s % 4 = 2 then 1 + 3 * k else 26 + 3 * k
    let y := if s % 4 < 2 then 0 else 49
    half * 2500 + y * 50 + x
  else if n < 5088 then
    let p := (n - 5064) / 2
    let e := (n - 5064) % 2
    if p < 6 then (2 + 4 * (2 * p + e)) * 50 else 2500 + (2 + 4 * (2 * (p - 6) + e)) * 50 + 49
  else if n < 5094 then (4 + 8 * (n - 5088)) * 50
  else if n < 5100 then 2500 + (4 + 8 * (n - 5094)) * 50 + 49
  else if n = 5100 then 16 * 50
  else if n = 5101 then 2500 + 16 * 50 + 49
  else if n = 5102 then 2500 + 24 * 50 + 49
  else if n = 5105 then 49 * 50
  else if n = 5106 then 24 * 50
  else 0

/-! ## Settings and counters -/

/-- Key of entry [index:sub] with the selected instance sel. -/
def entryKey (index sub : Nat) (sel : Nat := 0) : Nat := index * 256 + sub + sel * 16777216

/-- A setting with default d (R451). -/
def State.setting (s : State) (k d : Nat) : Nat :=
  match s.settings.find? (fun e => e.1 = k) with
  | some e => e.2
  | none => d
/-- Store a setting. A value equal to the default is stored too: it is the value written. -/
def State.putSetting (s : State) (k v : Nat) : State :=
  { s with settings := Tab.set (2 ^ 65) s.settings k v }
/-- An OCTET setting of n bytes; unwritten reads as zeros. -/
def State.octet (s : State) (k n : Nat) : List Byte := slice (Tab.get [] s.octets k) 0 n
/-- Store an OCTET setting. -/
def State.putOctet (s : State) (k : Nat) (v : List Byte) : State := { s with octets := Tab.set [] s.octets k v }
/-- A counter of R61. -/
def State.counter (s : State) (k : Nat) : Nat := Tab.get 0 s.counters k
/-- Add n to a counter, modulo 2^64. -/
def State.count (s : State) (k : Nat) (n : Nat := 1) : State :=
  { s with counters := Tab.set 0 s.counters k ((s.counter k + n) % 2 ^ 64) }
/-- Put an output in the outbox. -/
def State.emit (s : State) (o : Output) : State := { s with outbox := o :: s.outbox }
/-- Put a packet in the mesh. -/
def State.send (s : State) (p : Packet) : State := { s with mesh := s.mesh ++ [p] }
/-- Virtual channel of a packet (Table 7.6). -/
def vcOf (b : Body) : Nat :=
  match b with
  | .cgrant _ | .memrsp _ | .away .. => 0
  | .creq _ | .memreq _ | .mgmt .. => 1
  | .write .. | .mcast .. => 2
  | .reduce _ => 3
/-- No packet sent before p is still under way on p's channel from its source to its destination (R212). -/
def State.inOrder (s : State) (p : Packet) : Bool :=
  match s.mesh.find? fun q => decide (q.src = p.src ∧ q.dst = p.dst ∧ vcOf q.body = vcOf p.body) with
  | some q => decide (q = p)
  | none => true
/-- A packet in the mesh gives way to others, in its place; one from outside adds them. -/
def State.fork (s : State) (p : Packet) (qs : List Packet) : State :=
  { s with mesh := s.mesh.takeWhile (fun q => decide (q ≠ p)) ++ qs ++ (s.mesh.dropWhile fun q => decide (q ≠ p)).drop 1 }
/-- An arriving packet leaves the mesh. -/
def State.take (s : State) (p : Packet) : State := { s with mesh := dropFirst p s.mesh }
/-- A fresh free byte (log 9). -/
def State.freshByte (s : State) : Byte × State := (Config.freeByte s.freeCtr, { s with freeCtr := s.freeCtr + 1 })
/-- Mark MSI-X vector v as due at the next boundary (R450, Table 15.3). -/
def State.due (s : State) (v : Nat) : State :=
  { s with host := { s.host with msixDue := s.host.msixDue ||| BitVec.ofNat 32 (2 ^ v) } }

/-- Ticks of a span in microseconds (one tick is 10 ns). -/
def us (n : Nat) : Nat := 100 * n
/-- Ticks of a span in milliseconds. -/
def ms (n : Nat) : Nat := 100000 * n
/-- Ticks of a span in seconds. -/
def sec (n : Nat) : Nat := 100000000 * n

/-- Counters of waits that only clock cycles show (R101, R150, R171, R181, R321). -/
def timedCounters : List Nat := [0x523003, 0x525002, 0x525003, 0x525009, 0x527006]
/-- The waits of the time that passed: a free number of them each (log 2). -/
def State.countWaits (s : State) : State :=
  timedCounters.foldl (fun s k => { s.count k (Config.freeNat s.freeCtr) with freeCtr := s.freeCtr + 1 }) s
/-- n TIME ticks pass (R196): the throttled and power-limited ticks are counted (R400, R423), the wall clock counts
nanoseconds while it is set (R486), and the waits of that time are counted. -/
def State.advance (s : State) (n : Nat) : State :=
  let s := if 0 < max s.sense.tlevel s.sense.plevel ∧ n ≠ 0 then s.count 0x513002 n else s
  let s := if 0 < s.sense.plevel ∧ n ≠ 0 then s.count 0x511002 n else s
  let s := if s.rel.wallSet then { s with rel := { s.rel with wall := s.rel.wall + 10 * n } } else s
  let s := if n ≠ 0 then s.countWaits else s
  { s with time := { s.time with tick := s.time.tick + n } }

/-! ## Sensors for records -/

/-- Diode nearest a node (R393). -/
def nearestDiode (unit : Nat) : Nat :=
  if unit < 5107 then
    let st := attach unit
    st / 2500 * 32 + 4 * (4 * grow st / 25) + 2 * (st % 50) / 25
  else 0
/-- Diode d. -/
def State.diode (s : State) (d : Nat) : Sensor := Tab.get {} s.sense.diodes d
/-- Neighbours of a diode (R393). -/
def diodeNeighbours (d : Nat) : List Nat :=
  let i := d % 32
  let k := i % 4
  let j := i / 4
  let h := d / 32 * 32
  (if 0 < j then [h + (j - 1) * 4 + k] else []) ++ (if j < 7 then [h + (j + 1) * 4 + k] else [])
  ++ (if 0 < k then [h + j * 4 + k - 1] else if 32 ≤ d then [j * 4 + 3] else [])
  ++ (if k < 3 then [h + j * 4 + k + 1] else if d < 32 then [32 + j * 4] else [])
/-- Insert into a rising list. -/
def insertInt (x : Int) : List Int → List Int
  | [] => [x]
  | y :: t => if x ≤ y then x :: y :: t else y :: insertInt x t
/-- Sort rising. -/
def sortInts (l : List Int) : List Int := l.foldl (fun a x => insertInt x a) []
/-- Median; the mean of the middle two for an even number (R395). -/
def median (l : List Int) : Int :=
  let t := sortInts l
  if l.length % 2 = 1 then t.getD (l.length / 2) 0
  else (t.getD (l.length / 2 - 1) 0 + t.getD (l.length / 2) 0) / 2
/-- A diode whose own reading counts (R395, R396). -/
def Sensor.own (x : Sensor) : Bool := x.valid && !x.failed
/-- Readings of the valid neighbours of d. -/
def State.neighbourReadings (s : State) (d : Nat) : List Int :=
  ((diodeNeighbours d).filter fun n => (s.diode n).own).map fun n => (s.diode n).reading
/-- Largest of a list, or d for none. -/
def maxInt (d : Int) : List Int → Int
  | [] => d
  | x :: t => t.foldl max x
/-- The substitute of a diode (R396). -/
def State.substitute (s : State) (d : Nat) : Int :=
  let ns := s.neighbourReadings d
  if 2 ≤ ns.length then median ns
  else maxInt 0 ((((List.range 32).map (· + d / 32 * 32)).filter fun n => (s.diode n).own).map
    fun n => (s.diode n).reading) + 320
/-- What diode d reads as: its own reading, or its substitute when it is failed or its latest reading failed a check (R395,
R396). -/
def State.diodeValue (s : State) (d : Nat) : Int :=
  if (s.diode d).failed ∨ (s.diode d).misses ≠ 0 then s.substitute d else (s.diode d).reading

/-- Rail monitor channel of a unit's supply (13.1, log 12). -/
def railOf (unit : Nat) : Nat :=
  if unit < 5000 then 1 + quadrant unit
  else if unit < 5064 then 6
  else if unit < 5088 then 7
  else if unit < 5094 ∨ unit = 5100 ∨ unit = 5104 then 9
  else if unit < 5103 then 10
  else if unit = 5105 ∨ unit = 0xF000 then 13
  else if unit = 5106 then 1
  else if 0xF100 ≤ unit ∧ unit < 0xF144 then 1 + (unit - 0xF100) / 17
  else 0
/-- ADC channel n. -/
def State.adc (s : State) (n : Nat) : Adc := Tab.get {} s.sense.adcs n
/-- Inverse front-end gain of a rail channel: 24, 2 or 1 (Table 16.5). -/
def frontEnd (ch : Nat) : Nat := if ch = 72 then 24 else if ch = 85 ∨ ch = 86 then 2 else 1
/-- Reading of rail monitor r in mV: 0.390625 uV per code, front end divided out (R388, R474). -/
def State.railMv (s : State) (r : Nat) : Nat :=
  ((s.adc (72 + r)).code * frontEnd (72 + r) * 390625 / 1000000000).toNat

/-- Write an error record into the event collector, or drop it when it is full (R382). -/
def State.log (s : State) (r : ErrRec) : State :=
  let d := nearestDiode r.unit
  let r := { r with beat := s.time.beat, wall := if s.rel.wallSet then s.rel.wall else 0,
                    temp := s.diodeValue d, tsens := d, railch := railOf r.unit, rail := s.railMv (railOf r.unit) }
  if s.rel.collector.length < 4096 then { s with rel := { s.rel with collector := s.rel.collector ++ [r] } }
  else s.count 0x540002

/-- An error record by class, severity and detail; unnamed fields are those of a record that names no unit (Table 12.8). -/
def State.record (s : State) (cls sev : Nat) (detail : List Byte) (unit : Nat := 0xFFFF) (sub : Nat := 0xFF)
    (opcode : Nat := 0xFF) : State := s.log { cls, sev, unit, sub, opcode, detail }

/-- Health: FAULT_STOP and BOOT_FAILED stand above DEGRADED (R379, R380). -/
def State.degrade (s : State) : State :=
  if s.rel.health = 0 then { s with rel := { s.rel with health := 1, degraded := true } }.due 20
  else { s with rel := { s.rel with degraded := true } }

/-- Health as [0x4020:01] reads it: a fault stop shows from the next boundary (R379). -/
def Rel.healthNow (r : Rel) : Nat := if r.health = 2 ∧ !r.stopNow then b2n r.degraded else r.health
/-- The fault stop (R379): cause class; its effects begin at the next boundary. -/
def State.faultStop (s : State) (cls : Nat) : State :=
  if 2 ≤ s.rel.health then s
  else
    let s := { s with rel := { s.rel with health := 2, fsCause := cls, fsBeat := some s.time.beat, fsTick := s.time.tick } }
    let s := (s.count 0x540007).due 20
    s.log { cls := 0x0802, sev := 1, detail := leBytes 2 cls ++ leBytes 8 (s.rel.logCount + s.rel.collector.length - 1) }

/-! ## Scratchpad (04) -/

/-- Word address modulo 2^16. -/
def wa (a : Nat) : Nat := a % 65536
/-- Bank of a word address (R98). -/
def bankOf (a : Nat) : Nat := wa a / 2048
/-- Row of a word address within its bank (R98). -/
def rowOf (a : Nat) : Nat := wa a / 64 % 32
/-- Scratchpad bank b of a stand. -/
def Stand.bank (x : Stand) (b : Nat) : SpadBank := Tab.get {} x.banks b
/-- Change bank b. -/
def Stand.modBank (x : Stand) (b : Nat) (f : SpadBank → SpadBank) : Stand :=
  { x with banks := Tab.set {} x.banks b (f (x.bank b)) }
/-- A stored word. -/
def Stand.word (x : Stand) (a : Nat) : Word := Tab.get 0 x.spad (wa a)
/-- Words of one access (R99): from a, at most 8, within one row. -/
def accessLen (a n : Nat) : Nat := min n (min 8 (64 - wa a % 64))

/-- Position p becomes vacant (R364): passes in the pipeline settle without committing, instructions waiting for it are
discarded at hand-over and counted (R169), a requantize step under way ends. -/
def State.vacate (s : State) (st p : Nat) : State :=
  let u := Tab.get {} (s.stand st).units p
  let s := s.count 0x525004 u.queue.length
  s.modStand st fun x => { x with units := Tab.set {} x.units p {} }

/-- The stand is quarantined from now (R365): every position is vacant; counted and recorded once. -/
def State.quarantine (s : State) (st : Nat) (cause : Nat) : State :=
  if (s.stand st).quarantined then s
  else
    let s := (List.range 16).foldl (fun s p => s.vacate st p) s
    let s := s.modStand st fun x => { x with quarantined := true }
    (s.count 0x540006).log { cls := 0x020C, sev := 0, unit := st, detail := leBytes 1 cause }

/-- Both spare rows of a bank are in use. -/
def SpadBank.noSpare (k : SpadBank) : Bool := k.spare0.isSome && k.spare1.isSome
/-- A due row finds no spare left (R105): DEGRADED and a record. -/
def State.rowDegraded (s : State) (st b r : Nat) : State :=
  (s.modStand st fun x => x.modBank b fun k => { k with degraded := true }).log
    { cls := 0x0203, sev := 0, unit := st, sub := b, detail := leBytes 1 b ++ leBytes 1 r }
/-- A row becomes due for repair (R104), and stays due until it is repaired; with no spare left the bank is DEGRADED (R105). -/
def State.rowDue (s : State) (st b r : Nat) (ue : Bool) : State :=
  let k := (s.stand st).bank b
  if k.due.any (fun e => e.1 = r) then
    s.modStand st fun x => x.modBank b fun k => { k with due := k.due.map fun e => if e.1 = r then (r, e.2.1 || ue, e.2.2) else e }
  else
    let s := s.modStand st fun x => x.modBank b fun k => { k with due := k.due ++ [(r, ue, s.time.tick)] }
    if k.noSpare then s.rowDegraded st b r else s

/-- A read finds an uncorrectable word (R100, R365, R370, R104). -/
def State.spadUe (s : State) (st b r w opcode : Nat) : State :=
  let s := s.count 0x523002
  let s := s.log { cls := 0x0201, sev := 0, unit := st, sub := b, opcode := opcode,
                   detail := leBytes 1 b ++ leBytes 1 r ++ leBytes 1 w }
  (s.quarantine st 0).rowDue st b r true

/-- A read corrects a single-bit error (R100, R104). -/
def State.spadCorrected (s : State) (st b r : Nat) : State :=
  let s := s.count 0x523001
  let s := s.modStand st fun x => x.modBank b fun k => { k with corr := Tab.set 0 k.corr r (Tab.get 0 k.corr r + 1) }
  if s.setting 0x230003 4 ≤ Tab.get 0 ((s.stand st).bank b).corr r then s.rowDue st b r false else s

/-- Check codes of the n words from a (R100). -/
def State.readCodes (s : State) (st opcode : Nat) : Nat → Nat → State
  | _, 0 => s
  | a, n + 1 =>
    let e := Tab.get 0 (s.stand st).wrongBits (wa a)
    let s := if e = 0 then s
      else if e = 1 then s.spadCorrected st (bankOf a) (rowOf a)
      else s.spadUe st (bankOf a) (rowOf a) (wa a % 64) opcode
    State.readCodes s st opcode (a + 1) n

/-- A local access meets a bank in OFF (R118). -/
def State.offAccess (s : State) (st a opcode : Nat) : State :=
  s.log { cls := 0x0207, sev := 3, unit := st, sub := bankOf a, opcode := opcode,
          detail := leBytes 1 (bankOf a) ++ leBytes 2 (wa a) }

/-- A read of n words from a by a requester (R98 to R100, R118), access by access. `fuel` bounds the number of accesses. -/
def State.readAcc (s : State) (st req opcode : Nat) : Nat → Nat → Nat → List Word × State
  | 0, _, _ => ([], s)
  | fuel + 1, a, n =>
    if n = 0 then ([], s)
    else
      let k := accessLen a n
      let off := ((s.stand st).bank (bankOf a)).power = .off
      let ws := if off then List.replicate k 0 else (List.range k).map fun i => (s.stand st).word (a + i)
      let s := if off then s.offAccess st a opcode else s.readCodes st opcode a k
      let s := s.modStand st fun x => x.modBank (bankOf a) fun b => { b with lastGrant := req }
      let r := State.readAcc s st req opcode fuel (a + k) (n - k)
      (ws ++ r.1, r.2)

/-- Read n words from a. -/
def State.readWords (s : State) (st req opcode a n : Nat) : List Word × State := s.readAcc st req opcode n a n

/-- Place of requester r in the cyclic order that follows the last grant of a bank (R101). -/
def SpadBank.turn (k : SpadBank) (r : Nat) : Nat := (r + 20 - k.lastGrant) % 21
/-- Put r into a list that rises by f, behind its equals. -/
def insertBy (f : Nat → Nat) (r : Nat) : List Nat → List Nat
  | [] => [r]
  | y :: t => if f r < f y then r :: y :: t else y :: insertBy f r t
/-- Requesters that present accesses in one cycle, requester r at address `a r`: in the order in which their banks grant them
(R101). -/
def Stand.grantOrder (x : Stand) (a : Nat → Nat) (l : List Nat) : List Nat :=
  l.foldl (fun o r => insertBy (fun q => (x.bank (bankOf (a q))).turn q) r o) []

/-- A write of words from a by a requester (R99, R118): a write to an OFF bank is dropped and recorded; a write stores a
fresh code with every word (R100). -/
def State.writeAcc (s : State) (st req opcode : Nat) : Nat → Nat → List Word → State
  | 0, _, _ => s
  | fuel + 1, a, ws =>
    if ws = [] then s
    else
      let k := accessLen a ws.length
      let off := ((s.stand st).bank (bankOf a)).power = .off
      let s := if off then s.offAccess st a opcode
        else s.modStand st fun x =>
          { x with spad := Tab.setRun 0 x.spad (wa a) (ws.take k),
                   wrongBits := Tab.clear x.wrongBits fun i => decide (wa a ≤ i ∧ i < wa a + k) }
      let s := s.modStand st fun x => x.modBank (bankOf a) fun b => { b with lastGrant := req }
      State.writeAcc s st req opcode fuel (a + k) (ws.drop k)

/-- Write words from a. -/
def State.writeWords (s : State) (st req opcode a : Nat) (ws : List Word) : State :=
  s.writeAcc st req opcode ws.length a ws

/-! ## Tier memory (10) -/

/-- Addressable bytes of a tier (R304). -/
def tierSize (b : Bool) : Nat := if b then 1536000000000 else 504000000000
/-- One byte of a tier. -/
def State.tierByte (s : State) (b : Bool) (a : Nat) : Byte := Tab.get 0 (if b then s.mem.tierB else s.mem.tierA) a
/-- n bytes of a tier, as stored. -/
def State.tierBytes (s : State) (b : Bool) (a n : Nat) : List Byte := (List.range n).map fun i => s.tierByte b (a + i)
/-- Store bytes in a tier; bytes beyond the tier are not stored. -/
def State.putTier (s : State) (b : Bool) (a : Nat) (bs : List Byte) : State :=
  let bs := bs.take (tierSize b - a)
  if b then { s with mem := { s.mem with tierB := Tab.setRun 0 s.mem.tierB a bs } }
  else { s with mem := { s.mem with tierA := Tab.setRun 0 s.mem.tierA a bs } }
/-- Wrong symbols of a burst (R305). -/
def State.wrongBurst (s : State) (b : Bool) (burst : Nat) : Nat :=
  Tab.get 0 (if b then s.mem.wrongB else s.mem.wrongA) burst
/-- Fresh check bits for a burst. -/
def State.freshBurst (s : State) (b : Bool) (burst : Nat) : State :=
  if b then { s with mem := { s.mem with wrongB := Tab.set 0 s.mem.wrongB burst 0 } }
  else { s with mem := { s.mem with wrongA := Tab.set 0 s.mem.wrongA burst 0 } }

/-- Endpoint node of a tier byte address (R307, R308). -/
def endpointOf (b : Bool) (a : Nat) : Nat :=
  let u := a / 256
  if b then 5064 + 2 * (u % 24 % 12) + u % 24 / 12
  else 5000 + 8 * (u % 512 % 8) + u % 512 / 8 % 8
/-- Pseudo-channel of a tier-A address, as stack x 64 + endpoint x 8 + channel (R307). -/
def pchOf (a : Nat) : Nat :=
  let q := a / 256 % 512
  q % 8 * 64 + q / 8 % 8 * 8 + q / 64

/-! ## Packets (07) -/

/-- Incarnations that a unit has learned: a stand, or a port endpoint. -/
def State.knownBy (s : State) (me : Nat) : Tab Nat := if me < 5000 then (s.stand me).known else (s.endpoint me).known
/-- An incarnation as node `me` knows it: valid only when it has learned it (R209). -/
def State.knownInc (s : State) (me dst : Nat) : Bool × Nat :=
  let k := Tab.get 0 (s.knownBy me) dst
  (decide (k ≠ 0), k)
/-- A packet from node src to node dst with the incarnations of R209. -/
def State.packet (s : State) (src dst : Nat) (body : Body) : Packet :=
  match body with
  | .mcast .. | .reduce .. => { src, dst, dincv := false, sinc := (s.node src).inc, dinc := 0, body }
  | _ =>
    let k := s.knownInc src dst
    { src, dst, dincv := k.1, sinc := (s.node src).inc, dinc := if k.1 then k.2 else 0, body }
/-- A reply to the holder of incarnation `dinc` (R120, R315). -/
def State.reply (s : State) (src dst dinc : Nat) (body : Body) : Packet :=
  { src, dst, dincv := true, sinc := (s.node src).inc, dinc, body }
/-- Incarnation a is earlier than b (R326: numbers rise by 1 modulo 65,536). -/
def incEarlier (a b : Nat) : Bool := a ≠ b ∧ 32768 ≤ (a + 65536 - b) % 65536
/-- A stand or a port endpoint learns the incarnation of a partner (R209). -/
def State.learn (s : State) (me src inc : Nat) : State :=
  if me < 5000 then s.modStand me fun x => { x with known := Tab.set 0 x.known src inc }
  else s.modEndpoint me fun e => { e with known := Tab.set 0 e.known src inc }

/-- Payload words of a remote write header (Table 4.8), word 0 low. -/
def encHdr (h : WriteHdr) : Nat :=
  h.window % 16 * 2 ^ 60 + h.row % 32 * 2 ^ 55 + h.gen % 256 * 2 ^ 47 + h.offset % 64 * 2 ^ 41 + h.length % 128 * 2 ^ 34
  + b2n h.final * 2 ^ 33 + h.nwrites % 128 * 2 ^ 26 + h.reserved.toNat
/-- Decode of Table 4.8. -/
def decHdr (n : Nat) : WriteHdr :=
  { window := bits n 63 60, row := bits n 59 55, gen := bits n 54 47, offset := bits n 46 41, length := bits n 40 34,
    final := bit n 33, nwrites := bits n 32 26, reserved := BitVec.ofNat 26 n }
/-- CREQ payload word (Table 4.6). -/
def encCreq (m : CreqMsg) : Nat :=
  m.window % 16 * 2 ^ 28 + m.count % 64 * 2 ^ 22 + b2n m.mode * 2 ^ 21 + m.row % 32 * 2 ^ 16 + m.tag % 65536
/-- Type code of a packet (Table 7.9). -/
def bodyType : Body → Nat
  | .creq .. => 0 | .cgrant .. => 1 | .write .. => 2 | .mcast .. => 3 | .reduce .. => 4
  | .memreq .. => 5 | .memrsp .. => 6 | .away .. => 7 | .mgmt .. => 8
/-- First two payload words of a packet, for an AWAY answer (R120, Table 7.9); those of a bitmap multicast are of its bitmap (log
114). -/
def firstTwo : Body → Word × Word
  | .creq m => (BitVec.ofNat 32 (encCreq m), 0)
  | .write h _ => (BitVec.ofNat 32 (encHdr h), BitVec.ofNat 32 ((encHdr h) / 2 ^ 32))
  | .mcast r h _ =>
    if r.bitmapMode then (r.bitmap.setWidth 32, (r.bitmap >>> 32).setWidth 32)
    else (BitVec.ofNat 32 (encHdr h), BitVec.ofNat 32 ((encHdr h) / 2 ^ 32))
  | .memrsp m => (m.data.getD 0 0, m.data.getD 1 0)
  | .memreq m =>
    match m.whdr with
    | some h => (BitVec.ofNat 32 (encHdr h), BitVec.ofNat 32 ((encHdr h) / 2 ^ 32))
    | none => (m.data.getD 0 0, m.data.getD 1 0)
  | .mgmt _ d => (d.getD 0 0, d.getD 1 0)
  | .cgrant .. | .reduce .. | .away .. => (0, 0)

/-- A unit is out of service (R327). -/
def State.isAway (s : State) (n : Nat) : Bool := (s.node n).away
/-- The AWAY answer to a packet for a unit out of service (R213, R327): stands count 0x5260:09, edge units 0x5270:08. -/
def State.answerAway (s : State) (p : Packet) : State :=
  let w := firstTwo p.body
  let a : Packet := { src := p.dst, dst := p.src, dincv := true, sinc := (s.node p.dst).inc, dinc := p.sinc,
                      body := .away (bodyType p.body) w.1 w.2 }
  (if p.dst < 5000 then s.count 0x526009 else s.count 0x527008).send a

/-- The ARITH clock runs (R402, R403) and the module is RUNNING (R425). -/
def State.arith (s : State) : Bool := s.power.state = 3 && s.sense.stop < 3
/-- The controller of stand st is in its beat: launched, BEND not issued, in service, clock running (R149, R180). -/
def State.inBeat (s : State) (st : Nat) : Bool :=
  s.arith && (s.stand st).running && !(s.stand st).bended && !s.isAway st && (s.stand st).clearing.isNone

/-- g[r]; g0 reads 0 (R149). -/
def Stand.reg (x : Stand) (r : Nat) : Word := if r = 0 then 0 else Tab.get 0 x.regs r
/-- Write g[r]; g0 ignores writes (R149). -/
def Stand.putReg (x : Stand) (r : Nat) (v : Word) : Stand :=
  if r = 0 then x else { x with regs := Tab.set 0 x.regs r v }
/-- g[r] of stand st as a number. -/
def State.g (s : State) (st r : Nat) : Nat := ((s.stand st).reg r).toNat

/-- Position p is paired with core 16, in either bank (R287). -/
def Stand.paired (x : Stand) (p : Nat) : Bool := x.pairA = some p ∨ x.pairB = some p
/-- The core that fills position p of stand st, if one does (R97, R364, R365); a paired position needs core 16 too (Table 12.7). -/
def State.fill (s : State) (st p : Nat) : Option Nat :=
  let x := s.stand st
  if x.quarantined then none
  else
    let c := if x.svc.valid ∧ x.svc.spos = p then 16 else p
    if (s.core st c).fenced then none
    else if x.paired p ∧ (s.core st 16).fenced then none
    else some c

end Sys2Proof.Machine
end

