-- ==== Sys2Proof/Machine/Operands.lean ====
section
/-! DEFINITION. Operand forms: vector headers and element formats (03), RAW48 elements, route descriptors (07), and the reads
and writes of vectors in a scratchpad. -/

namespace Sys2Proof.Machine

/-- Vector header fields (Table 3.4). -/
structure Hdr where
  pend : Bool
  fmt : Nat
  signed : Bool
  tile : Nat
  count : Nat
  deriving DecidableEq, Repr

/-- Decode of Table 3.4. -/
def decVec (w : Word) : Hdr :=
  let n := w.toNat
  { pend := bit n 31, fmt := bits n 30 28, signed := bit n 27, tile := bits n 26 11, count := bits n 10 0 }

/-- Encode of Table 3.4. -/
def encVec (h : Hdr) : Word :=
  BitVec.ofNat 32 (b2n h.pend * 2 ^ 31 + h.fmt % 8 * 2 ^ 28 + b2n h.signed * 2 ^ 27 + h.tile % 65536 * 2 ^ 11 + h.count % 2048)

/-- Bits per element (Table 3.3). -/
def fmtBits (f : Nat) : Nat :=
  if f = 0 then 2 else if f = 1 then 3 else if f = 2 then 4 else if f = 3 then 6 else if f = 4 then 8
  else if f = 5 then 16 else if f = 6 then 32 else 64
/-- Elements per word (Table 3.3); RAW48 takes two words each (R66). -/
def perWord (f : Nat) : Nat :=
  if f = 0 then 16 else if f = 1 then 10 else if f = 2 then 8 else if f = 3 then 5 else if f = 4 then 4
  else if f = 5 then 2 else 1
/-- Element words of a vector of `count` elements (R66). -/
def elemWords (f count : Nat) : Nat := if f = 7 then 2 * count else ceilDiv count (perWord f)
/-- Lower bound of a format (Table 3.3). -/
def fmtLo (f : Nat) (signed : Bool) : Int :=
  if f = 7 then -(2 ^ 47) else if signed then -(2 ^ (fmtBits f - 1)) else if 5 ≤ f then -(2 ^ (fmtBits f - 1)) else 0
/-- Upper bound of a format (Table 3.3); A16 and INT32 exist only in signed form (R65). -/
def fmtHi (f : Nat) (signed : Bool) : Int :=
  if f = 7 then 2 ^ 47 - 1 else if signed ∨ 5 ≤ f then 2 ^ (fmtBits f - 1) - 1 else 2 ^ fmtBits f - 1
/-- Ladder of Table 3.9: the next wider format. -/
def wider (f : Nat) (signed : Bool) : Option Nat :=
  if f < 4 then some (f + 1) else if f = 4 ∧ signed then some 5 else none

/-- Element i of a vector's element words (formats 0 to 6), as stored bits (R66). -/
def rawElem (f : Nat) (ws : List Word) (i : Nat) : Nat :=
  (ws.getD (i / perWord f) 0).toNat / 2 ^ (i % perWord f * fmtBits f) % 2 ^ fmtBits f
/-- Value of element i under a signedness. -/
def elemInt (f : Nat) (signed : Bool) (ws : List Word) (i : Nat) : Int :=
  if signed then signedOf (fmtBits f) (rawElem f ws i) else rawElem f ws i
/-- RAW48 element i as an accumulator value: the low 48 bits (Table 3.5). -/
def rawAcc (ws : List Word) (i : Nat) : Acc :=
  BitVec.ofNat 48 ((ws.getD (2 * i) 0).toNat + (ws.getD (2 * i + 1) 0).toNat * 2 ^ 32)
/-- The two words of a RAW48 element (Table 3.5, R71). -/
def rawWords (a : Acc) : List Word :=
  let n := lowBits 64 a.toInt
  [BitVec.ofNat 32 n, BitVec.ofNat 32 (n / 2 ^ 32)]
/-- Element words of a RAW48 vector. -/
def rawVector : List Acc → List Word
  | [] => []
  | a :: t => rawWords a ++ rawVector t
/-- One packed word from values, first value lowest (R66). -/
def packWord (b : Nat) : List Int → Nat
  | [] => 0
  | v :: t => lowBits b v + 2 ^ b * packWord b t
/-- Element words of a packed vector; `fuel` bounds the number of words. -/
def packVec (f : Nat) : Nat → List Int → List Word
  | 0, _ => []
  | n + 1, vs =>
    if vs = [] then [] else BitVec.ofNat 32 (packWord (fmtBits f) (vs.take (perWord f))) :: packVec f n (vs.drop (perWord f))

/-- R73: the requantized value before the clip. -/
def requantV (acc m : Int) (sh : Nat) (z : Int) : Int :=
  (if sh = 0 then acc * m else roundHalfEven (acc * m) (2 ^ sh)) + z
/-- Clip to bounds (R73). -/
def clip (lo hi v : Int) : Int := if v < lo then lo else if hi < v then hi else v
/-- v lies outside the bounds (R73). -/
def clips (lo hi v : Int) : Bool := v < lo ∨ hi < v

/-- A requantizer table entry (R72, Table 3.6): M, s, z; bits 15:6 of word 1 are ignored. -/
def decEntry (w0 w1 : Word) : Int × Nat × Int := (w0.toInt, bits w1.toNat 5 0, signedOf 16 (bits w1.toNat 31 16))

/-! ## Vectors in a scratchpad -/

/-- Header of the vector at a, without an access (for the PEND test of R68). -/
def Stand.vec (x : Stand) (a : Nat) : Hdr := decVec (x.word a)
/-- The vector at a waits (R68). -/
def Stand.pendAt (x : Stand) (a : Nat) : Bool := (x.vec a).pend

/-- Read a vector: its header word, then element words in address order (R156, R68). Formats as `count` and the header say. -/
def State.readVector (s : State) (st req opcode a : Nat) : Hdr × List Word × State :=
  let r := s.readWords st req opcode a 1
  let h := decVec (r.1.headD 0)
  let n := if h.count = 0 ∨ 1024 < h.count then 0 else elemWords h.fmt h.count
  let q := r.2.readWords st req opcode (a + 1) n
  (h, q.1, q.2)

/-- Read n elements of a headerless array of words from a. -/
def State.readArray (s : State) (st req opcode a n : Nat) : List Word × State := s.readWords st req opcode a n

/-- Write a RAW48 vector with its header (R67, Table 3.5). -/
def State.writeRaw (s : State) (st req opcode a : Nat) (vs : List Acc) : State :=
  s.writeWords st req opcode a
    (encVec { pend := false, fmt := 7, signed := true, tile := 0, count := vs.length } :: rawVector vs)

/-- Write part of a packed vector: elements i0, i0 + 1, … of the vector at `a`. A word whose first element belongs to this
part starts from 0; otherwise the part is added to the elements already written (R66). Writes word by word of one group. -/
def State.writeElems (s : State) (st req opcode a f i0 : Nat) (vs : List Int) : State :=
  if f = 7 then s.writeWords st req opcode (a + 1 + 2 * i0) (rawVector (vs.map fun v => BitVec.ofInt 48 v))
  else
    let e := perWord f
    let k := i0 % e
    let old := if k = 0 then 0 else ((s.stand st).word (a + 1 + i0 / e)).toNat % 2 ^ (k * fmtBits f)
    let prev := (List.range k).map fun j => ((old / 2 ^ (j * fmtBits f) % 2 ^ fmtBits f : Nat) : Int)
    s.writeWords st req opcode (a + 1 + i0 / e) (packVec f (k + vs.length) (prev ++ vs))

/-! ## Errors of operands and programs -/

/-- An OPERAND record (class 0x0208): rule label number, FMT or mode. -/
def State.operandErr (s : State) (st opcode rule x : Nat) : State :=
  s.log { cls := 0x0208, sev := 3, opcode := opcode, unit := st, detail := leBytes 2 rule ++ leBytes 1 x }
/-- A PROGRAM record (class 0x0209): rule label number, instruction index. -/
def State.programErr (s : State) (st opcode rule idx : Nat) : State :=
  s.log { cls := 0x0209, sev := 3, opcode := opcode, unit := st, detail := leBytes 2 rule ++ leBytes 2 idx }

/-! ## Routes (R214) -/

/-- Decode a route descriptor from its nine words; only word 0 counts for a rectangle. -/
def decRoute (ws : List Word) : Route :=
  let w := (ws.getD 0 0).toNat
  { bitmapMode := bit w 31, x0 := bits w 30 24, x1 := bits w 23 17, y0 := bits w 16 11, y1 := bits w 10 5,
    reserved := BitVec.ofNat 5 w, bitmap := BitVec.ofNat 256 (leNat (bytesOf (ws.drop 1))) }
/-- Stand (X, y) is named by the route. -/
def routeNames (r : Route) (x y : Nat) : Bool :=
  if r.bitmapMode then r.x0 ≤ x ∧ x < r.x0 + 16 ∧ r.y0 ≤ y ∧ y < r.y0 + 16 ∧
    r.bitmap.getLsbD (16 * (y - r.y0) + (x - r.x0))
  else r.x0 ≤ x ∧ x ≤ r.x1 ∧ r.y0 ≤ y ∧ y ≤ r.y1
/-- The named stands in route order: ascending X, then ascending y (R216). -/
def routeStands (r : Route) : List Nat :=
  let xs := if r.bitmapMode then (List.range 16).map (· + r.x0) else (List.range (r.x1 + 1 - r.x0)).map (· + r.x0)
  let ys := if r.bitmapMode then (List.range 16).map (· + r.y0) else (List.range (r.y1 + 1 - r.y0)).map (· + r.y0)
  xs.flatMap fun x => (ys.filter fun y => routeNames r x y).map fun y => standAt x y
/-- A malformed descriptor (R214). -/
def routeMalformed (r : Route) : Bool :=
  if r.bitmapMode then
    decide (r.reserved ≠ 0 ∨ r.x1 ≠ 0 ∨ r.y1 ≠ 0) ||
    (List.range 256).any fun k => r.bitmap.getLsbD k && decide (99 < r.x0 + k % 16 ∨ 49 < r.y0 + k / 16)
  else decide (r.reserved ≠ 0 ∨ r.x1 < r.x0 ∨ r.y1 < r.y0 ∨ 99 < r.x1 ∨ 49 < r.y1)

end Sys2Proof.Machine
end

