-- ==== Sys2Proof/Machine/Arrays.lean ====
section
/-! DEFINITION. One array and one pass (02): layouts, column maps, counts, the pass test, pass sums, commit. -/

namespace Sys2Proof.Machine

/-- Code of a layout (Table 2.5). -/
def layoutCode (l : Layout) : Nat :=
  match l with
  | .w4 => 0 | .w3 => 1 | .w2 => 2 | .ternary => 3 | .w4s => 4
/-- Layout of a code, when the code is not reserved. -/
def layoutOf (n : Nat) : Option Layout :=
  if n = 0 then some .w4 else if n = 1 then some .w3 else if n = 2 then some .w2 else if n = 3 then some .ternary
  else if n = 4 then some .w4s else none
/-- Code of a bank state (Table 2.2). -/
def bankCode (b : BankState) : Nat :=
  match b with
  | .empty => 0 | .idle => 1 | .compute => 2 | .write => 3 | .verify => 4 | .failed => 5
/-- Columns per output k (Table 2.5). -/
def colsPer (l : Layout) : Nat :=
  match l with
  | .w4 => 4 | .w3 => 3 | .w2 => 2 | .ternary => 2 | .w4s => 7
/-- Outputs per array (Table 2.5). -/
def outputsOf (l : Layout) : Nat :=
  match l with
  | .w4 => 64 | .w3 => 85 | .w2 => 128 | .ternary => 128 | .w4s => 36
/-- Plane weights of one output by offset (Table 2.5). -/
def planes (l : Layout) : List Int :=
  match l with
  | .w4 => [1, 2, 4, -8] | .w3 => [1, 2, -4] | .w2 => [1, -2] | .ternary => [1, -1] | .w4s => [1, 2, 4, -1, -2, -4, -8]
/-- Plane weight pw(c) of data column c; 0 in unused columns (R41, R48). -/
def pw (l : Layout) (c : Nat) : Int := if c < colsPer l * outputsOf l then (planes l).getD (c % colsPer l) 0 else 0

/-- Spare named for logical column c by a map whose entries serve physical columns from `base` up. -/
def spareFor (base : Nat) (m : List MapEntry) (c : Nat) : Option Nat :=
  (m.zipIdx.find? fun e => e.1.valid && e.1.lcol == c).map fun e => base + e.2
/-- Physical column that serves logical column c (R31); in W4S the unused columns 252 to 255 serve further ones (2.5, R60), and
in W3 the unused column 255 may serve a check column (Table 9.5). -/
def ABank.phys (b : ABank) (c : Nat) : Nat :=
  match spareFor 264 b.map c with
  | some p => p
  | none =>
    match if b.layout = .w4s ∨ b.layout = .w3 then spareFor 252 b.w4sMap c else none with
    | some p => p
    | none => c
/-- Cells of physical row r as the sense paths see them: what was written, overridden by stuck cells (log 10). -/
def ABank.cells (b : ABank) (r : Nat) : CellRow :=
  (Tab.get 0 b.rows r ||| Tab.get 0 b.stuck1 r) &&& ~~~(Tab.get 0 b.stuck0 r)
/-- Fixed pattern of calibration row Ck (Table 2.1, R410): all 0, all 1, even columns 1, odd columns 1. -/
def calRow (k : Nat) : CellRow :=
  let even : CellRow := BitVec.ofNat 268 (((List.range 134).map fun i => 2 ^ (2 * i)).sum)
  match k with
  | 0 => 0
  | 1 => ~~~0
  | 2 => even
  | _ => ~~~even
/-- Cells of calibration row Ck as the sense paths see them: physical rows 1,024 to 1,027 hold the pattern and may hold stuck cells. -/
def ABank.calCells (b : ABank) (k : Nat) : CellRow :=
  (calRow k ||| Tab.get 0 b.stuck1 (1024 + k)) &&& ~~~(Tab.get 0 b.stuck0 (1024 + k))
/-- Physical column c reads the pattern in all four calibration rows, as its trim needs (R410). -/
def ABank.calOk (b : ABank) (c : Nat) : Bool := (List.range 4).all fun k => (b.calCells k).getLsbD c == (calRow k).getLsbD c
/-- The stored bit of row r in logical column c. -/
def ABank.cell (b : ABank) (r c : Nat) : Bool := (b.cells r).getLsbD (b.phys c)
/-- Integer weight w(r, o) that the data columns of a row spell under the layout (R48). -/
def ABank.weight (b : ABank) (r o : Nat) : Int :=
  ((planes b.layout).zipIdx.map fun e => if b.cell r (o * colsPer b.layout + e.2) then e.1 else 0).sum
/-- Bank of a core. -/
def Core.bank (c : Core) (b : Bool) : ABank := if b then c.bankB else c.bankA
/-- Change a bank of a core. -/
def Core.modBank (c : Core) (b : Bool) (f : ABank → ABank) : Core :=
  if b then { c with bankB := f c.bankB } else { c with bankA := f c.bankA }
/-- Bank that a select value names (Table 2.3): true is bank B. -/
def Core.select (c : Core) (bsel : Nat) : Bool :=
  if bsel = 0 then c.bptrB else if bsel = 1 then !c.bptrB else bsel = 3
/-- Input buffer slot of a core. -/
def Core.slot (c : Core) (k : Nat) : InSlot := if k = 0 then c.slot0 else c.slot1
/-- Replace a slot. -/
def Core.putSlot (c : Core) (k : Nat) (v : InSlot) : Core := if k = 0 then { c with slot0 := v } else { c with slot1 := v }

/-- Activation width of a pass: the larger of its own field and the slot's header width (R70). -/
def passBits (op : PassOp) (sl : InSlot) : Nat :=
  match sl.width with
  | some f => max (fmtBits op.width) (fmtBits f)
  | none => fmtBits op.width
/-- Rows driven N (R45). -/
def passRows (op : PassOp) : Nat := min (op.first + op.nrows) 1024 - op.first
/-- Row groups g (R46). -/
def groups (n budget : Nat) : Nat := ceilDiv n budget
/-- Issue cycles of a pass (R46). -/
def passCycles (op : PassOp) (bits budget : Nat) : Nat := bits * groups (passRows op) budget
/-- Activation weight aw(j) (R40). -/
def aw (b : Nat) (signed : Bool) (j : Nat) : Int := if signed ∧ j + 1 = b then -(2 ^ j) else 2 ^ j
/-- Rows of group q (R46). -/
def groupRows (op : PassOp) (budget q : Nat) : List Nat :=
  (List.range (min budget (passRows op - q * budget))).map (· + op.first + q * budget)
/-- Input bit x(r, j) of row r (R38). -/
def inBit (sl : InSlot) (r j : Nat) : Bool := (Tab.get 0 sl.elems r).getLsbD j
/-- Exact count n(c, t) of logical column c in cycle t (R38, R39, R46). -/
def count0 (op : PassOp) (sl : InSlot) (b : ABank) (budget c t : Nat) : Nat :=
  let g := groups (passRows op) budget
  ((groupRows op budget (t % g)).filter fun r => inBit sl r (t / g) && b.cell r c).length
/-- Count with the wrong amounts of this execution (log 10); a tree is 11 bits wide (R39). -/
def countN (op : PassOp) (sl : InSlot) (b : ABank) (budget : Nat) (ds : List Disturb) (c t : Nat) : Nat :=
  let n := count0 op sl b budget c t
  match ds.filter fun d => d.cycle = t ∧ d.column = c with
  | [] => n
  | e => lowBits 11 ((n : Int) + (e.map fun d => d.delta).sum)
/-- Weighted data sum of a cycle, before its reduction modulo 256 (R52). -/
def dataSum (l : Layout) (n : Nat → Nat) : Int := ((List.range 256).map fun c => pw l c * (n c : Int)).sum
/-- Weighted check sum of a cycle (R52). -/
def checkSum (n : Nat → Nat) : Int := ((List.range 8).map fun p => (2 : Int) ^ p * (n (256 + p) : Int)).sum
/-- Cycle t matches (R52): residues agree and no count exceeds the rows driven. -/
def cycleOk (op : PassOp) (sl : InSlot) (b : ABank) (budget : Nat) (ds : List Disturb) (t : Nat) : Bool :=
  let n := fun c => countN op sl b budget ds c t
  let driven := (groupRows op budget (t % groups (passRows op) budget)).length
  decide (dataSum b.layout n % 256 = checkSum n % 256) && (List.range 264).all fun c => decide (n c ≤ driven)
/-- First mismatching cycle of an execution, none when the pass matches (R52). -/
def firstBad (op : PassOp) (sl : InSlot) (b : ABank) (budget bits : Nat) (ds : List Disturb) : Option Nat :=
  (List.range (passCycles op bits budget)).find? fun t => !cycleOk op sl b budget ds t
/-- Pass sum of output o (R41). -/
def passSum (op : PassOp) (sl : InSlot) (b : ABank) (budget bits : Nat) (ds : List Disturb) (o : Nat) : Int :=
  let g := groups (passRows op) budget
  ((List.range (passCycles op bits budget)).map fun t =>
    aw bits op.sign (t / g) *
      ((planes b.layout).zipIdx.map fun e => e.1 * (countN op sl b budget ds (o * colsPer b.layout + e.2) t : Int)).sum).sum
/-- Commit of pass sums to the block accumulators (R42). -/
def commitAcc (acc : Tab Acc) (add : Bool) (sums : List Int) : Tab Acc :=
  Tab.setRun 0 acc 0 (sums.zipIdx.map fun e =>
    (if add then Tab.get 0 acc e.2 else 0) + BitVec.ofInt 48 e.1)

/-- Row residue S(r) of a list of output weights (R51). -/
def residue (ws : List Int) : Nat := (ws.sum % 256).toNat

/-- The array holds a wrong or unusable bank: passes may select a bank only in COMPUTE (Table 2.2). -/
def ABank.usable (b : ABank) : Bool := b.st = .compute

end Sys2Proof.Machine
end

