-- ==== Sys2Proof/Machine/Container.lean ====
section
/-! DEFINITION. Reading a binary container (06 section 6.8): header, stand map, beat tables, tile table, participants. -/

namespace Sys2Proof.Machine

/-- PERIOD (Table 6.15). -/
def conPeriod (b : List Byte) : Nat := field b 12 4
/-- FLAGS. -/
def conFlags (b : List Byte) : Nat := field b 6 2
/-- NPROG. -/
def conNprog (b : List Byte) : Nat := field b 20 2
/-- NSCHED. -/
def conNsched (b : List Byte) : Nat := field b 22 2
/-- NTILE. -/
def conNtile (b : List Byte) : Nat := field b 24 4
/-- BUILD. -/
def conBuild (b : List Byte) : Nat := field b 32 8
/-- LAYOUT_ID. -/
def conLayout (b : List Byte) : Nat := field b 40 8
/-- PROG_OFF. -/
def conProg (b : List Byte) : Nat := field b 48 8
/-- SMAP_OFF. -/
def conSmap (b : List Byte) : Nat := field b 56 8
/-- SCHED_OFF. -/
def conSched (b : List Byte) : Nat := field b 64 8
/-- TILE_OFF. -/
def conTile (b : List Byte) : Nat := field b 72 8
/-- BAR_OFF. -/
def conBar (b : List Byte) : Nat := field b 80 8
/-- SIG_OFF. -/
def conSig (b : List Byte) : Nat := field b 88 8

/-- Offset of a stand's program image, and its beat table number (Table 6.16). -/
def conStand (b : List Byte) (st : Nat) : Nat × Nat :=
  (conProg b + field b (conSmap b + 16 * st) 8, field b (conSmap b + 16 * st + 8) 2)
/-- LENGTH of the image at an offset. -/
def conImageLen (b : List Byte) (o : Nat) : Nat := field b o 4
/-- Instruction i of the image at an offset (R152). -/
def conInstr (b : List Byte) (o i : Nat) : Nat := field b (o + 8 + 8 * i) 8
/-- Beat table entry of table t in slot s (Table 6.13). -/
def conEntry (b : List Byte) (t s : Nat) : Nat := field b (conSched b + (t * conPeriod b + s) * 8) 8
/-- Sentinel words of the tile table. -/
def conTiles (b : List Byte) : List Nat := (List.range (conNtile b)).map fun i => field b (conTile b + 8 * i) 8
/-- Sentinel word of tile n (Table 3.8). -/
def conTileWord (b : List Byte) (n : Nat) : Option Nat := (conTiles b).find? fun w => bits w 15 0 = n
/-- Stand n participates in channel c (Table 6.16). -/
def conPart (b : List Byte) (c n : Nat) : Bool := bit (field b (conBar b + 640 * c + n / 8) 1) (n % 8)

/-- Schedule slot of beat n (R179). -/
def State.slotOf (s : State) (n : Nat) : Nat :=
  match s.binary.current with
  | some b => if conPeriod b = 0 then 0 else ((n : Int) - s.binary.b0).toNat % conPeriod b
  | none => 0
/-- Layout identifier of the computing bank's version (R190, R293). -/
def State.computing (s : State) : Version := if s.weights.ptrB then s.weights.verB else s.weights.verA
/-- The current binary's slots are taken as NONE: fault stop (R379), a binary that does not match the computing bank's
version (R293), a hazard stop (R184) or no binary. -/
def State.slotsNone (s : State) : Bool :=
  match s.binary.current with
  | none => true
  | some b =>
    s.rel.stopNow || s.rel.marginQ.isSome || decide (s.computing.epoch ≠ 0 ∧ s.computing.layoutId.toNat ≠ conLayout b)
/-- Beat table entry of a stand for beat n; none when the slot is NONE (R179, R180). -/
def State.entryOf (s : State) (st n : Nat) : Option Nat :=
  match s.binary.current with
  | none => none
  | some b =>
    let e := conEntry b (conStand b st).2 (s.slotOf n)
    if s.slotsNone ∨ bit e 15 then none else some e
/-- The program counter of a stand stands beyond its image in the current binary (R180). -/
def State.pastImage (s : State) (st : Nat) : Bool :=
  match s.binary.current with
  | some b => decide (conImageLen b (conStand b st).1 ≤ (s.stand st).pc)
  | none => false
/-- The controller of stand st can issue (R149, R180). -/
def State.canIssue (s : State) (st : Nat) : Bool := s.inBeat st && !s.pastImage st
/-- Participants of a channel under the current binary. -/
def State.participates (s : State) (c n : Nat) : Bool :=
  match s.binary.current with
  | some b => conPart b c n
  | none => false
/-- A forced clearing of the stand is open (R373): since its launch, for at most 32 us [0x2100:05]. -/
def State.forcedOpen (s : State) (st : Nat) : Bool :=
  match (s.stand st).clearing with
  | some (t, _) => decide (s.time.tick ≤ t + us 32)
  | none => false
/-- Beat n is a clearing beat for core c of a stand (R181): for a spare core always; positions by CCORE; no binary: nothing is
scheduled. -/
def State.clearCore (s : State) (st c n : Nat) : Bool :=
  match s.binary.current with
  | none => true
  | some b =>
    let e := conEntry b (conStand b st).2 (s.slotOf n)
    let x := s.stand st
    if c = 16 then !x.svc.valid || bit e (48 + x.svc.spos)
    else bit e (48 + c) || (x.svc.valid && x.svc.spos == c)
/-- Beat n is a clearing beat for scratchpad bank k of a stand (R181). -/
def State.clearBank (s : State) (st k n : Nat) : Bool :=
  match s.binary.current with
  | none => true
  | some b => bit (conEntry b (conStand b st).2 (s.slotOf n)) (16 + k)
/-- Core c of a stand is in a clearing beat, or in a forced clearing (R181, R373). -/
def State.clearingCore (s : State) (st c : Nat) : Bool := s.forcedOpen st || s.clearCore st c s.time.beat
/-- Scratchpad bank k of a stand is in a clearing beat, or in a forced clearing (R181, R373). -/
def State.clearingBank (s : State) (st k : Nat) : Bool := s.forcedOpen st || s.clearBank st k s.time.beat
/-- One of the beats that ran in the last n ticks is a clearing beat by f: beats of the length in force, back to the schedule's start,
one period at most (log 129). -/
def State.clearedIn (s : State) (n : Nat) (f : Nat → Bool) : Bool :=
  match s.binary.current with
  | none => true
  | some b =>
    let k := min (min (n / max 1 s.time.len) (s.time.beat - s.binary.b0) + 1) (max 1 (conPeriod b))
    (List.range k).any fun i => f (s.time.beat - i)
/-- The running beat is shortened (R200, R201). -/
def State.shortened (s : State) : Bool := s.time.slip ≠ 0

end Sys2Proof.Machine
end

