-- ==== Sys2Proof/Machine/Credits.lean ====
section
/-! DEFINITION. Receive windows and credits (04 sections 4.4, 4.5): grants, accepted and dropped writes, closing, voiding. A
credit unit belongs to a stand or to a port endpoint, whose relay slots are windows (R347). -/

namespace Sys2Proof.Machine

/-- Window slot k of a credit unit. -/
def CreditUnit.win (u : CreditUnit) (k : Nat) : Window := Tab.get {} u.windows k
/-- Change window slot k. -/
def CreditUnit.modWin (u : CreditUnit) (k : Nat) (f : Window → Window) : CreditUnit :=
  { u with windows := Tab.set {} u.windows k (f (u.win k)) }
/-- State of row r of a window. -/
def Window.row (w : Window) (r : Nat) : RowSt := Tab.get .free w.rows r
/-- Replace the state of row r. -/
def Window.putRow (w : Window) (r : Nat) (v : RowSt) : Window := { w with rows := Tab.set .free w.rows r v }
/-- Rows of the pool, lowest first (R107). -/
def Window.freeRows (w : Window) : List Nat := (List.range w.count).filter fun r => w.row r = .free
/-- The pool is full (R114). -/
def Window.full (w : Window) : Bool := w.rows = []
/-- A row number is filled. -/
def RowSt.isFilled (r : RowSt) : Bool := match r with | .filled _ => true | _ => false
/-- Mask of a list of bit numbers. -/
def maskOf (l : List Nat) : Nat := (l.map fun i => 2 ^ i).sum

/-- A CREQ is malformed for a window (R108). -/
def creqMalformed (w : Window) (m : CreqMsg) : Bool :=
  decide (m.count = 0) || (if m.mode then decide (m.count ≠ 1) || decide (w.count ≤ m.row)
    else decide (m.row ≠ 0) || decide (w.count < m.count))
/-- Rows that a grantable CREQ takes (R108): the named row, or the lowest FREE rows; none when the pool is too small. -/
def creqRows (w : Window) (m : CreqMsg) : Option (List Nat) :=
  if m.mode then (if w.row m.row = .free then some [m.row] else none)
  else if m.count ≤ w.freeRows.length then some (w.freeRows.take m.count) else none

/-- Send a CGRANT from node n (Table 4.7). -/
def State.sendGrant (s : State) (n dst dinc window status gen mask tag : Nat) : State :=
  s.send (s.reply n dst dinc (.cgrant { window, status, gen, mask := BitVec.ofNat 32 mask, tag }))

/-- Grant rows of window k to a request (R107, R108). -/
def State.grant (s : State) (n : Nat) (q : CreditReq) (rows : List Nat) : State :=
  let s := s.modCredit n fun u => u.modWin q.msg.window fun w =>
    rows.foldl (fun w r => w.putRow r (.granted q.src 0 none)) w
  (s.count 0x523005 rows.length).sendGrant n q.src q.sinc q.msg.window 0 ((s.credit n).win q.msg.window).gen
    (maskOf rows) q.msg.tag

/-- Answer a CREQ at node n (R108). -/
def State.answerCreq (s : State) (n : Nat) (q : CreditReq) : State :=
  let w := (s.credit n).win q.msg.window
  if w.st ≠ .opened then s.sendGrant n q.src q.sinc q.msg.window 1 w.gen 0 q.msg.tag
  else if creqMalformed w q.msg then s.sendGrant n q.src q.sinc q.msg.window 3 w.gen 0 q.msg.tag
  else
    let behind := (s.credit n).queue.any fun e => e.msg.window = q.msg.window
    match if behind then none else creqRows w q.msg with
    | some rows => s.grant n q rows
    | none =>
      if (s.credit n).queue.length < 16 then s.modCredit n fun u => { u with queue := u.queue ++ [q] }
      else (s.count 0x52300A).sendGrant n q.src q.sinc q.msg.window 2 w.gen 0 q.msg.tag

/-- Serve the credit queue in arrival order, never a later request of one window before an earlier one (R108). `blocked`:
windows with an earlier request still waiting. -/
def State.serveGo (n : Nat) : List CreditReq → List Nat → State → State
  | [], _, s => s
  | q :: t, blocked, s =>
    let w := (s.credit n).win q.msg.window
    if w.st ≠ .opened then
      State.serveGo n t blocked
        ((s.modCredit n fun u => { u with queue := dropFirst q u.queue }).sendGrant n q.src q.sinc q.msg.window 1 w.gen 0 q.msg.tag)
    else if q.msg.window ∈ blocked then State.serveGo n t blocked s
    else match creqRows w q.msg with
      | some rows => State.serveGo n t blocked ((s.modCredit n fun u => { u with queue := dropFirst q u.queue }).grant n q rows)
      | none => State.serveGo n t (q.msg.window :: blocked) s
/-- Serve the credit queue of node n; requests for windows not OPEN are answered BANK_OFF (R115). -/
def State.serveQueue (s : State) (n : Nat) : State := State.serveGo n (s.credit n).queue [] s

/-- Slots 0 to 15. -/
def slots16 : List Nat := List.range 16
/-- Window slots of bank b that are not CLOSED. -/
def CreditUnit.inBank (u : CreditUnit) (b : Nat) : List Nat :=
  slots16.filter fun k => (u.win k).st ≠ .closed && (u.win k).bank == b
/-- A window becomes CLOSED: rows forgotten, generation and flags kept (R106, R110). -/
def Window.shut (w : Window) : Window := { gen := w.gen, flags := w.flags }
/-- Void a window's GRANTED and FILLED rows and close it; its generation rises when a credit was voided (R106, R115). Keeps
what a late write may name (R116). -/
def CreditUnit.voidWin (u : CreditUnit) (k : Nat) : CreditUnit :=
  let w := u.win k
  let vs := w.rows.filterMap fun e =>
    match e.2 with
    | .granted snd _ _ => some { slot := k, gen := w.gen, row := e.1, sender := snd, noticed := false : Voided }
    | _ => none
  { (u.modWin k fun w => { w.shut with gen := if w.rows = [] then w.gen else (w.gen + 1) % 256 }) with voids := u.voids ++ vs }
/-- Close a window whose pool is full (R115). -/
def CreditUnit.shutWin (u : CreditUnit) (k : Nat) : CreditUnit := u.modWin k Window.shut

/-- The words of a bank become 0 with valid codes (R118, R119); an OFF bank has lost its contents (R115). -/
def Stand.clearBank (x : Stand) (b : Nat) : Stand :=
  { x with spad := Tab.clear x.spad fun a => decide (a / 2048 = b),
           wrongBits := Tab.clear x.wrongBits fun a => decide (a / 2048 = b) }
/-- Bank b of a stand enters OFF with its windows CLOSED (R115). -/
def Stand.bankOff (x : Stand) (b : Nat) : Stand :=
  let x := { x with credit := (x.credit.inBank b).foldl (fun u k => u.shutWin k) x.credit }
  (x.clearBank b).modBank b fun k => { k with power := .off, deadline := 0 }

/-- Windows and banks in CLOSING whose pools are full finish (R115). A window closed before its bank closes on its own. -/
def Stand.settle (x : Stand) : Stand :=
  let x := (List.range 32).foldl (fun x b =>
    if (x.bank b).power = .closing ∧ (x.credit.inBank b).all (fun k => (x.credit.win k).full) then x.bankOff b else x) x
  { x with credit := slots16.foldl (fun u k =>
      let w := u.win k
      if w.st = .closing ∧ w.full ∧ ((x.bank w.bank).power ≠ .closing ∨ w.deadline < (x.bank w.bank).deadline) then u.shutWin k
      else u) x.credit }
/-- The same for a port endpoint: its slots lie in no bank. -/
def Endpoint.settle (e : Endpoint) : Endpoint :=
  { e with credit := slots16.foldl (fun u k =>
      if (u.win k).st = .closing ∧ (u.win k).full then u.shutWin k else u) e.credit }
/-- Settle the credit unit of node n. -/
def State.settle (s : State) (n : Nat) : State :=
  if n < 5000 then s.modStand n Stand.settle else s.modEndpoint n Endpoint.settle

/-! ## Writes -/

/-- A WRITE_DROPPED record and its counter (R110, R111, R116). -/
def State.dropWrite (s : State) (n src : Nat) (h : WriteHdr) (rule : Nat) : State :=
  (s.count 0x523007).log
    { cls := 0x0205, sev := 3, unit := n,
      detail := leBytes 1 h.window ++ leBytes 1 h.row ++ leBytes 2 src ++ leBytes 1 h.gen ++ leBytes 2 rule }
/-- A late write (R116): dropped; the first one under a voided credit sends CREDIT_VOID. -/
def State.lateWrite (s : State) (n src sinc : Nat) (h : WriteHdr) : State :=
  let s := s.dropWrite n src h 116
  let hit := fun (v : Voided) => v.slot = h.window ∧ v.gen = h.gen ∧ v.row = h.row ∧ v.sender = src ∧ v.noticed = false
  if (s.credit n).voids.any fun v => decide (hit v) then
    let s := s.modCredit n fun u =>
      { u with voids := updFirst (fun v => decide (hit v)) (fun v => { v with noticed := true }) u.voids }
    (s.count 0x523008).sendGrant n src sinc h.window 4 h.gen (2 ^ h.row) 0
  else s
/-- Store words of an accepted write: in the scratchpad through requester 19, or in the endpoint's row (R109, R347). -/
def State.storeRow (s : State) (n slot row offset : Nat) (ws : List Word) : State :=
  if n < 5000 then
    let w := (s.credit n).win slot
    s.writeWords n 19 0xFF (w.bank * 2048 + (w.first + row) * 64 + offset) ws
  else s.modEndpoint n fun e => { e with rowWords := Tab.setRun 0 e.rowWords ((slot * 32 + row) * 64 + offset) ws }
/-- A row is complete: FINAL accepted and the count reached (R110). -/
def RowSt.complete (r : RowSt) : Bool :=
  match r with
  | .granted _ n (some m) => decide (n = m)
  | _ => false
/-- A remote write at node n from the holder `src` (R109, R110, R111, R116, R120). `stale`: addressed to an earlier
incarnation. A write under a row whose count is complete, but which is not FILLED yet, is dropped as one after it (DESIGN CHOICE, log
119). -/
def State.remoteWrite (s : State) (n src sinc : Nat) (stale : Bool) (h : WriteHdr) (ws : List Word) : State :=
  let w := (s.credit n).win h.window
  if stale ∨ h.gen ≠ w.gen then s.lateWrite n src sinc h
  else if w.st = .closed ∨ 64 < h.offset + h.length ∨ h.reserved ≠ 0 ∨ h.length ≠ ws.length then s.dropWrite n src h 111
  else match w.row h.row with
    | .granted snd k m =>
      if snd ≠ src then s.dropWrite n src h 111
      else if (RowSt.granted snd k m).complete then s.dropWrite n src h 110
      else
        let s := s.storeRow n h.window h.row h.offset ws
        s.modCredit n fun u => u.modWin h.window fun w =>
          w.putRow h.row (.granted snd (k + 1) (if h.final then some h.nwrites else m))
    | .filled snd => s.dropWrite n src h (if snd = src then 110 else 111)
    | .free => s.dropWrite n src h 111

/-! ## Forced closes (R115) -/

/-- The FORCED_CLOSE counter and record. -/
def State.forcedRecord (s : State) (n bank : Nat) (ks rows : List Nat) : State :=
  (s.count 0x523006).log
    { cls := 0x0206, sev := 3, unit := n, sub := bank,
      detail := leBytes 1 bank ++ leBytes 2 (maskOf ks) ++ leBytes 4 (maskOf rows) }
/-- Logical rows of the bank that a window's listed rows are. -/
def Window.bankRows (w : Window) : List Nat := w.rows.map fun e => w.first + e.1
/-- Bank b is forced OFF. -/
def State.forceBank (s : State) (st b : Nat) : State :=
  let u := (s.stand st).credit
  let ks := u.inBank b
  let rows := ks.flatMap fun k => (u.win k).bankRows
  let s := s.modStand st fun x =>
    ({ x with credit := ks.foldl (fun u k => u.voidWin k) x.credit }.clearBank b).modBank b fun k =>
      { k with power := .off, deadline := 0 }
  s.forcedRecord st b ks rows
/-- Window k is forced closed; its bank stays ON, or enters OFF when it is CLOSING and its pool is now full. -/
def State.forceWindow (s : State) (n k : Nat) : State :=
  let w := (s.credit n).win k
  let s := s.modCredit n fun u => u.voidWin k
  (s.forcedRecord n w.bank [k] w.bankRows).settle n

end Sys2Proof.Machine
end

