-- ==== Sys2Proof/Machine/Flags.lean ====
section
/-! DEFINITION. Conditions that a stand computes from its state: fill mask, completion of units, waits, phases. -/

namespace Sys2Proof.Machine

/-- Service fill mask: bit p set when a core fills position p (Table 6.5, R364). -/
def State.fillMask (s : State) (st : Nat) : Nat := maskOf ((List.range 16).filter fun p => (s.fill st p).isSome)
/-- Unit of position p. -/
def Stand.pos (x : Stand) (p : Nat) : PosUnit := Tab.get {} x.units p
/-- Change the unit of position p. -/
def Stand.modPos (x : Stand) (p : Nat) (f : PosUnit → PosUnit) : Stand := { x with units := Tab.set {} x.units p (f (x.pos p)) }
/-- Nothing handed to the position is incomplete (R176). -/
def PosUnit.idle (u : PosUnit) : Bool := u.queue.isEmpty && u.passes.isEmpty && u.rq.isNone
/-- Tiles that must reach a verdict before the beat is complete: closed and not deferred (R176, R177). -/
def Stand.waitingTiles (x : Stand) : Nat := (x.tiles.filter fun t => !t.deferred).length
/-- A TOPEN finds fewer than four tiles waiting, the open tile that it closes and those with a deferred repeat among them (R159). -/
def Stand.tileRoom (x : Stand) : Bool := decide (x.tiles.length + b2n x.tile.isSome < 4)
/-- WAIT's condition (R176). -/
def Stand.waitMet (x : Stand) (cores : BitVec 16) (dmu vec net dma tile : Bool) : Bool :=
  ((List.range 16).all fun p => !cores.getLsbD p || (x.pos p).idle) && (!dmu || x.dmuQ.isEmpty) && (!vec || x.vecQ.isEmpty) &&
  (!net || (x.outQ.isEmpty && x.creqs.isEmpty)) && (!dma || (x.dma.isNone && x.dmaQ.isEmpty)) && (!tile || x.waitingTiles == 0)
/-- The stand's beat is complete (R177): nothing launched, or BEND issued, queues empty, engines idle, tiles settled or
deferred. A quarantined or fenced position holds nothing (R364). -/
def Stand.complete (x : Stand) : Bool :=
  !x.running ||
  (x.bended && x.backlog.isEmpty && x.waitMet 0xFFFF true true true true true && x.mems.isEmpty)
/-- Phase count of a barrier channel (R226). -/
def State.phase (s : State) (c : Nat) : Nat := Tab.get 0 s.phases c
/-- Arrival count of a stand on a channel (R226). -/
def Stand.arrivalsOn (x : Stand) (c : Nat) : Nat := Tab.get 0 x.arrivals c
/-- The stand has arrived on the channel since its reset (R165). -/
def Stand.hasArrived (x : Stand) (c : Nat) : Bool := Tab.get false x.arrived c
/-- BWT waits on the channel (R165, R226). -/
def State.bwtWaits (s : State) (st c : Nat) : Bool :=
  s.participates c st && (s.stand st).hasArrived c && decide (s.phase c < (s.stand st).arrivalsOn c)

/-- Index of the instruction issued last: the program counter has moved past it (R149). -/
def State.idx (s : State) (st : Nat) : Nat := (s.stand st).pc - 1
/-- The controller counts an issue and moves on (R149, [0x5250:01]). -/
def State.issued (s : State) (st : Nat) : State :=
  (s.count 0x525001).modStand st fun x => { x with pc := x.pc + 1 }
/-- Issue of a Cotis-2 instruction (R149, R150): an idle controller ignores it (log 8); a controller that holds an instruction,
or must hold this one, keeps it behind the others; otherwise it takes effect. -/
def State.issue (s : State) (st : Nat) (i : Instr) (ready : Bool) (eff : State → State) : State :=
  if !s.canIssue st then s
  else if (s.stand st).backlog.isEmpty && ready then eff (s.issued st)
  else s.modStand st fun x =>
    { x with backlog := x.backlog ++ [i], headSince := if x.backlog.isEmpty then s.time.tick else x.headSince }

/-- Uid and number of the tile with a uid, open or closed. -/
def Stand.tileOf (x : Stand) (uid : Nat) : Option Tile :=
  match x.tile with
  | some t => if t.uid = uid then some t else x.tiles.find? fun t => t.uid = uid
  | none => x.tiles.find? fun t => t.uid = uid
/-- Change the tile with a uid. -/
def Stand.modTile (x : Stand) (uid : Nat) (f : Tile → Tile) : Stand :=
  { x with tile := x.tile.map fun t => if t.uid = uid then f t else t,
           tiles := x.tiles.map fun t => if t.uid = uid then f t else t }

end Sys2Proof.Machine
end

