-- ==== Sys2Proof/Machine/Cores.lean ====
section
/-! DEFINITION. Core queues and engines (06 Table 6.1, 02, 03): VLD, PASS and its verdict, RQNT and its outputs. -/

namespace Sys2Proof.Machine

/-- Engine of a core instruction: 0 loader, 1 pass sequencer, 2 requantizer (Table 6.1). -/
def engOf (o : CoreOp) : Nat := match o with | .vld .. => 0 | .pass .. => 1 | .rqnt .. => 2
/-- Instructions of the queue already handed to engines that still wait there: an engine holds at most two (R151). -/
def handed : List CoreOp → Nat → Nat → Nat → Nat
  | [], _, _, _ => 0
  | o :: t, a, b, c =>
    match engOf o with
    | 0 => if a < 2 then handed t (a + 1) b c + 1 else 0
    | 1 => if b < 2 then handed t a (b + 1) c + 1 else 0
    | _ => if c < 2 then handed t a b (c + 1) + 1 else 0
/-- Operations of the queue that wait in the engines: a running pass and a running requantize step leave room for one more. -/
def PosUnit.inEngines (u : PosUnit) (l : List CoreOp) : Nat := handed l 0 (b2n !u.passes.isEmpty) (b2n u.rq.isSome)
/-- The core queue of 16 has room (R150); operations of repeats take no place in it. -/
def PosUnit.room (u : PosUnit) : Bool := decide (u.queue.length - max u.nrep (u.inEngines u.queue) < 16)
/-- A loaded slot or a pass of the operation concerns input slot k. -/
def CoreOp.loads (o : CoreOp) (k : Nat) : Bool := match o with | .vld s _ => s == k | _ => false
/-- The operation is a pass that reads slot k. -/
def CoreOp.passOn (o : CoreOp) (k : Nat) : Bool := match o with | .pass p => p.slot == k | _ => false
/-- The operation is a pass. -/
def CoreOp.isPass (o : CoreOp) : Bool := match o with | .pass _ => true | _ => false
/-- The pass sequencer is free (R57): a pass may issue in the cycle after the last issue cycle of the one before it. Until the verdict
of the oldest pass, four cycles after its own last issue cycle (R56), the passes behind it issue for three cycles at most before
another one can. -/
def PosUnit.seqFree (u : PosUnit) : Bool := decide (((u.passes.drop 1).map fun j => passCycles j.op j.bits j.budget).sum ≤ 3)
/-- Interlocks of Table 6.8 for an operation behind `ahead` (R151, R171, R68). A requantize step is taken by a free requantizer, which
reads its entries and then waits for the passes (R483). -/
def State.coreReady (s : State) (st p : Nat) (ahead : List CoreOp) (o : CoreOp) : Bool :=
  let u := (s.stand st).pos p
  ahead.all (fun a => engOf a ≠ engOf o) && u.inEngines ahead == ahead.length &&
  match o with
  | .vld k a => !ahead.any (CoreOp.passOn · k) && !u.passes.any (fun j => j.op.slot == k) && !(s.stand st).pendAt a
  | .pass q => !ahead.any (CoreOp.loads · q.slot) && u.seqFree
  | .rqnt _ => u.rq.isNone

/-- Fill slot k of the core of a position, and of core 16 when the position is paired with it (R287). -/
def State.fillSlot (s : State) (st p c k : Nat) (v : InSlot) : State :=
  let s := s.modCore st c fun x => x.putSlot k v
  if (s.stand st).paired p then s.modCore st 16 fun x => x.putSlot k v else s
/-- A load into an input buffer slot (R156, R69): header, then elements extended by SIGNED, zeros beyond COUNT. -/
def State.beginVld (s : State) (st p c k a : Nat) : State :=
  let r := s.readWords st p 0x10 a 1
  let h := decVec (r.1.headD 0)
  if 5 < h.fmt ∨ h.count = 0 ∨ 1024 < h.count then
    (r.2.fillSlot st p c k { src := some a }).operandErr st 0x10 69 h.fmt
  else
    let q := r.2.readWords st p 0x10 (a + 1) (elemWords h.fmt h.count)
    let vs := (List.range h.count).map fun i => BitVec.ofInt 16 (elemInt h.fmt h.signed q.1 i)
    q.2.fillSlot st p c k { elems := Tab.setRun 0 [] 0 vs, width := some h.fmt, signed := h.signed, src := some a }

/-- Row budget of the pass that runs at a position: the latest that issued, until it is settled (log 14); the earlier ones have driven
their last rows (R57). A pair drives its rows on two cores. -/
def PosUnit.budget (u : PosUnit) : Nat := match u.passes.getLast? with | some j => if j.paired then 2 * j.budget else j.budget | none => 0
/-- Row budgets of the passes running in the stand beside that of position p (R44, R151). -/
def Stand.budgets (x : Stand) (p : Nat) : Nat := (x.units.map fun e => if e.1 = p then 0 else e.2.budget).sum
/-- Cycles of an execution in excess of one row group (R47). -/
def splitCycles (op : PassOp) (bits budget : Nat) : Nat := bits * (groups (passRows op) budget - 1)
/-- Fill in what the issue of a tile's pass resolved (R80). -/
def fillStep (p : Nat) (bankB : Bool) (src : Option Nat) (cycles : Nat) : List TileStep → List TileStep
  | [] => []
  | .pass q o none s c :: t =>
    if q = p then .pass q o (some bankB) src cycles :: t else .pass q o none s c :: fillStep p bankB src cycles t
  | x :: t => x :: fillStep p bankB src cycles t
/-- A pass issues (R33, R43 to R47): bank, budget and width are latched. A dense pass that a pairing also issues on core 16 (R287) is
judged as one request of 512 and counted once, while it runs with two budgets and its split cycles count twice (DESIGN CHOICE, log
116). -/
def State.beginPass (s : State) (st p c : Nat) (op : PassOp) : State :=
  let x := s.core st c
  let sl := x.slot op.slot
  let bankB := op.bankFix.getD (x.select op.bsel)
  let dense := op.dense && decide ((s.stand st).budgets p + 512 ≤ s.setting 0x220003 4096)
  let budget := if dense then 512 else 256
  let bits := passBits op sl
  let pair := if bankB then (s.stand st).pairB = some p else (s.stand st).pairA = some p
  let s := s.count 0x522001 (splitCycles op bits budget * (if pair then 2 else 1))
  let s := if dense then s.count 0x522002 else if op.dense then s.count 0x522003 else s
  s.modStand st fun y =>
    let y := y.modPos p fun u => { u with passes := u.passes ++ [{ op, bankB, budget, bits, paired := decide pair,
                                                                    conflict := !(x.bank bankB).usable }] }
    match op.tile with
    | some uid => y.modTile uid fun t => { t with steps := fillStep p bankB sl.src (passCycles op bits budget) t.steps }
    | none => y

/-- Passes of a list of operations. -/
def passesIn (l : List CoreOp) : Nat := (l.filter CoreOp.isPass).length
/-- The requantizer takes a step (R483): it reads its table entries into the entry buffer, while it waits for the `n` earlier passes
of its core; RAW48 needs none (log 111). A stand that the read quarantined has lost the step. -/
def State.beginRqnt (s : State) (st p : Nat) (r : RqOp) (n : Nat) (rep : Bool) : State :=
  let s := s.modStand st fun x => x.modPos p fun u => { u with rq := some { op := r, earlier := n, rep } }
  if r.mode = 2 then s
  else
    let e := s.readWords st p 0x12 (r.gt + 2 * r.firsto) (2 * r.nout)
    e.2.modStand st fun x => x.modPos p fun u => { u with rq := u.rq.map fun j => { j with entries := e.1 } }
/-- Begin an operation on the core that fills the position; `ahead` stands before it in the queue. -/
def State.beginCore (s : State) (st p c : Nat) (ahead : List CoreOp) (o : CoreOp) : State :=
  let u := (s.stand st).pos p
  let s := s.modStand st fun x => x.modPos p fun u =>
    { u with queue := u.queue.eraseIdx ahead.length, nrep := if ahead.length < u.nrep then u.nrep - 1 else u.nrep }
  match o with
  | .vld k a => s.beginVld st p c k a
  | .pass q => s.beginPass st p c q
  | .rqnt r => s.beginRqnt st p r (passesIn ahead + u.passes.length) (decide (ahead.length < u.nrep))
/-- A deferred repeat runs on position p: the core's own instructions wait until it has finished (Table 6.8). -/
def Stand.repeatHolds (x : Stand) (p : Nat) : Bool :=
  x.tiles.any fun t => t.running && t.steps.any fun e => (match e with | .pass q .. => q | .rqnt q _ => q) == p
/-- Operations that may begin: all, or those of repeats. -/
def Stand.mayBegin (x : Stand) (p : Nat) : List CoreOp :=
  if x.repeatHolds p then (x.pos p).queue.take (x.pos p).nrep else (x.pos p).queue
/-- The first operation that can begin, with those that stand before it. -/
def State.firstReady (s : State) (st p : Nat) : List CoreOp → List CoreOp → Option (List CoreOp × CoreOp)
  | _, [] => none
  | ahead, o :: t => if s.coreReady st p ahead o then some (ahead, o) else s.firstReady st p (ahead ++ [o]) t
/-- Hand over and begin every operation of a position that can begin (R150, R151); `fuel` is the queue's length. -/
def State.pumpCore (st p c : Nat) : Nat → State → State
  | 0, s => s
  | fuel + 1, s =>
    match s.firstReady st p [] ((s.stand st).mayBegin p) with
    | none => s
    | some e => State.pumpCore st p c fuel (s.beginCore st p c e.1 e.2)
/-- Begin what can begin at position p. -/
def State.pumpPos (s : State) (st p : Nat) : State :=
  match s.fill st p with
  | none => s.vacate st p
  | some c => State.pumpCore st p c ((s.stand st).pos p).queue.length s
/-- Hand an operation to position p; an unfilled position discards it (R169). -/
def State.handOver (s : State) (st p : Nat) (o : CoreOp) : State :=
  if (s.fill st p).isNone then s.count 0x525004
  else (s.modStand st fun x => x.modPos p fun u => { u with queue := u.queue ++ [o] }).pumpPos st p

/-- Positions of a mask in ascending order. -/
def posOf (m : BitVec 16) : List Nat := (List.range 16).filter fun p => m.getLsbD p
/-- Every queue that the instruction needs has room (R150). -/
def State.coresRoom (s : State) (st : Nat) (m : BitVec 16) : Bool := (posOf m).all fun p => ((s.stand st).pos p).room

/-! ## VLD, PASS, RQNT -/

/-- VLD (R156): loaders that meet at a bank go in the order of its grants (R101). -/
def effVld (st : Nat) (pos : BitVec 16) (slot a stride : Nat) (s : State) : State :=
  ((s.stand st).grantOrder (fun p => wa (a + p * stride)) (posOf pos)).foldl
    (fun s p => s.handOver st p (.vld slot (wa (a + p * stride)))) s
/-- VLD. -/
def execVld (st : StandId) (pos : BitVec 16) (slot : Fin 2) (ga : Reg) (stride : BitVec 16) (s : State) : Res :=
  .next (s.issue st (.vld st pos slot ga stride) (s.coresRoom st pos)
    (effVld st pos slot (s.g st ga) stride.toNat))

/-- Checks of R189 on PASS: NROWS 1 to 1,024, WIDTH 0 to 5. -/
def passFields (nrows : Fin 2048) (width : Fin 8) : Bool := decide (1 ≤ nrows.val ∧ nrows.val ≤ 1024 ∧ width.val ≤ 5)
/-- PASS (R157): inside an open tile the pass belongs to it (R159). -/
def effPass (st : Nat) (pos : BitVec 16) (op : PassOp) (s : State) : State :=
  let uid := (s.stand st).tile.map fun t => t.uid
  let op := { op with tile := uid }
  (posOf pos).foldl (fun s p =>
    let s := match uid with
      | some u => if (s.fill st p).isSome then
          s.modStand st fun x => x.modTile u fun t => { t with steps := t.steps ++ [TileStep.pass p op none none 0] } else s
      | none => s
    s.handOver st p (.pass op)) s
/-- PASS. -/
def execPass (st : StandId) (pos : BitVec 16) (slot : Fin 2) (bsel : Fin 4) (first : Fin 1024) (nrows : Fin 2048)
    (width : Fin 8) (sign dense acc : Bool) (s : State) : Res :=
  if passFields nrows width then
    .next (s.issue st (.pass st pos slot bsel first nrows width sign dense acc) (s.coresRoom st pos)
      (effPass st pos { slot, bsel, first, nrows, width, sign, dense, acc, tile := none }))
  else .refused .illFormed

/-- Checks of R158 and R189 on RQNT. -/
def rqntFields (firsto : Fin 128) (nout : Fin 256) (mode : Fin 4) (fmt : Fin 8) (sign : Bool) : Bool :=
  decide (1 ≤ nout.val ∧ firsto.val + nout.val ≤ 128 ∧ mode.val ≤ 2 ∧
    (mode.val = 0 → fmt.val ≤ 5 ∧ (fmt.val = 5 → sign = true)))
/-- RQNT (R158). -/
def effRqnt (st p : Nat) (op : RqOp) (s : State) : State :=
  let uid := (s.stand st).tile.map fun t => t.uid
  let op := { op with tile := uid }
  let s := match uid with
    | some u => if (s.fill st p).isSome then
        s.modStand st fun x => x.modTile u fun t => { t with steps := t.steps ++ [TileStep.rqnt p op] } else s
    | none => s
  s.handOver st p (.rqnt op)
/-- RQNT. -/
def execRqnt (st : StandId) (p : Pos) (firsto : Fin 128) (nout : Fin 256) (mode : Fin 4) (fmt : Fin 8) (sign : Bool)
    (gt gd : Reg) (s : State) : Res :=
  if rqntFields firsto nout mode fmt sign then
    .next (s.issue st (.rqnt st p firsto nout mode fmt sign gt gd) ((s.stand st).pos p).room
      (effRqnt st p { firsto, nout, mode, fmt, sign, gt := s.g st gt, gd := s.g st gd, tile := none }))
  else .refused .illFormed

/-! ## Verdicts -/

/-- Core c of position p is fenced (R54, R364). -/
def State.fence (s : State) (st p c : Nat) (bankB : Bool) : State :=
  let s := (s.count 0x522006).modCore st c fun x => { x with fenced := true }
  let s := s.log { cls := 0x0102, sev := 0, unit := st, sub := c, opcode := 0x11,
                   detail := leBytes 1 p ++ leBytes 1 (b2n bankB) }
  s.vacate st p
/-- The oldest pass of position p is settled: a requantize step waits for one pass less, and the sequencer goes on with the next
(R57). -/
def State.popPass (s : State) (st p : Nat) : State :=
  (s.modStand st fun x => x.modPos p fun u =>
    { u with passes := u.passes.drop 1, rq := u.rq.map fun j => { j with earlier := j.earlier - 1 } }).pumpPos st p
/-- Pass sums of every output of the layout. -/
def jobSums (x : Core) (j : PassJob) (ds : List Disturb) : List Int :=
  let b := x.bank j.bankB
  (List.range (outputsOf b.layout)).map fun o => passSum j.op (x.slot j.op.slot) b j.budget j.bits ds o
/-- The next pass-sum set takes the sums of an execution (R42, R57). -/
def Core.putSums (x : Core) (v : List Int) : Core :=
  let t : Tab Acc := Tab.setRun 0 [] 0 (v.map fun i => BitVec.ofInt 48 i)
  if x.nextSet1 then { x with sums1 := t, nextSet1 := false } else { x with sums0 := t, nextSet1 := true }
/-- Settle a bank-select conflict (R35): counted, recorded, nothing commits, no check. -/
def State.settleConflict (s : State) (st p c : Nat) (j : PassJob) : State :=
  ((s.count 0x522007).log
    { cls := 0x0103, sev := 3, unit := st, sub := c, opcode := 0x11,
      detail := leBytes 1 j.op.bsel ++ leBytes 1 (bankCode ((s.core st c).bank j.bankB).st) }).popPass st p
/-- Commit of a matching pass (R42, R54), on both cores of a pair (R287). -/
def State.commitPass (s : State) (st p c : Nat) (j : PassJob) (ds : List Disturb) : State :=
  let f := fun (ds : List Disturb) (x : Core) =>
    { x.putSums (jobSums x j ds) with acc := commitAcc x.acc j.op.acc (jobSums x j ds) }
  let s := s.modCore st c (f ds)
  let s := if j.paired then s.modCore st 16 (f []) else s
  let s := match j.reexec with
    | none => s
    | some t => (s.count 0x522005).log
      { cls := 0x0101, sev := 2, unit := st, sub := c, opcode := 0x11,
        detail := leBytes 1 (b2n j.bankB) ++ leBytes 2 t ++ leBytes 2 j.op.first ++ leBytes 2 j.op.nrows }
  s.popPass st p
/-- The failed pass issues again, and every later one after it (R54, R55, R47). A discarded pass keeps the bank and the budget it
latched: its dense request is neither judged nor counted again, its split cycles are (DESIGN CHOICE, log 117). -/
def State.reexecute (s : State) (st p t : Nat) : State :=
  let js := ((s.stand st).pos p).passes
  let s := s.count 0x522001 (js.map fun j => splitCycles j.op j.bits j.budget * (if j.paired then 2 else 1)).sum
  s.modStand st fun x => x.modPos p fun u =>
    { u with passes := match u.passes with
      | [] => []
      | j :: r => { j with reexec := some t } :: r }
/-- First mismatching cycle of a job on a core (R52). -/
def jobBad (x : Core) (j : PassJob) (ds : List Disturb) : Option Nat :=
  firstBad j.op (x.slot j.op.slot) (x.bank j.bankB) j.budget j.bits ds
/-- An execution mismatched on core c (R54): counted, dated, its sums latched but not committed. -/
def State.noteMismatch (s : State) (st c : Nat) (j : PassJob) (ds : List Disturb) : State :=
  (s.count 0x522004).modCore st c fun y => { y.putSums (jobSums y j ds) with lastMismatch := s.time.beat }
/-- The verdict of the oldest pass of position p (R52, R54 to R56). A pair re-executes together, and each core has its own
test (R287); a second mismatch fences the core that shows it. -/
def State.verdict (s : State) (st p : Nat) (ds : List Disturb) : State :=
  match s.fill st p, ((s.stand st).pos p).passes with
  | some c, j :: _ =>
    if j.conflict then s.settleConflict st p c j
    else
      match jobBad (s.core st c) j ds, if j.paired then jobBad (s.core st 16) j [] else none with
      | none, none => s.commitPass st p c j ds
      | some t, none =>
        let s := s.noteMismatch st c j ds
        if j.reexec.isSome then s.fence st p c j.bankB else s.reexecute st p t
      | none, some t =>
        let s := s.noteMismatch st 16 j []
        if j.reexec.isSome then s.fence st p 16 j.bankB else s.reexecute st p t
      | some t, some v =>
        let s := (s.noteMismatch st c j ds).noteMismatch st 16 j []
        if j.reexec.isSome then (s.fence st p c j.bankB).fence st p 16 j.bankB else s.reexecute st p (min t v)
  | _, _ => s
/-- PASS_VERDICT. -/
def execPassVerdict (st : StandId) (p : Pos) (disturb : List Disturb) (s : State) : Res := .next (s.verdict st p disturb)

/-- Format and signedness of a requantize step's output (R158, R80). -/
def rqFormat (x : Stand) (r : RqOp) : Nat × Bool :=
  if r.mode = 1 then (6, true) else if r.mode = 2 then (7, true)
  else match r.tile.bind x.tileOf with
    | some t => (t.fmt, bit t.word.toNat 25)
    | none => (r.fmt, r.sign)
/-- Block accumulator of output o of a position; a paired one takes 36 and above from core 16 (R287). -/
def State.accOf (s : State) (st p c o : Nat) : Acc :=
  if (s.stand st).paired p ∧ 36 ≤ o then Tab.get 0 (s.core st 16).acc (o - 36) else Tab.get 0 (s.core st c).acc o
/-- The next group of up to four outputs of position p (R71 to R75, R77, R158), by the entries in its buffer (R483), once the earlier
passes of the core have committed (R171). -/
def State.rqOutput (s : State) (st p : Nat) : State :=
  match s.fill st p, (((s.stand st).pos p).rq).filter fun j => j.earlier == 0 with
  | some c, some j =>
    let r := j.op
    let f := rqFormat (s.stand st) r
    let n := min 4 (r.nout - j.next)
    let o := r.firsto + j.next
    let tile := r.tile.bind fun u => (s.stand st).tileOf u
    let accs := (List.range n).map fun i => (s.accOf st p c (o + i)).toInt
    let vs := accs.zipIdx.map fun a =>
      if r.mode = 2 then a.1
      else
        let d := decEntry (j.entries.getD (2 * (j.next + a.2)) 0) (j.entries.getD (2 * (j.next + a.2) + 1) 0)
        requantV a.1 d.1 d.2.1 d.2.2
    let lo := fmtLo f.1 f.2
    let hi := fmtHi f.1 f.2
    let clipped := if r.mode = 2 then 0 else (vs.filter fun v => clips lo hi v).length
    let s := if j.next = 0 then
        s.writeWords st p 0x12 r.gd [encVec
          { pend := tile.isSome, fmt := f.1, signed := f.2, count := r.nout,
            tile := match tile with | some t => t.num | none => 0 }]
      else s
    let s := s.writeElems st p 0x12 r.gd f.1 j.next (if r.mode = 2 then vs else vs.map (clip lo hi))
    let s := if r.mode = 2 then s else (s.count 0x522201 n).count 0x522202 clipped
    let s := s.modStand st fun x =>
      let x := x.modPos p fun u =>
        { u with rq := if j.next + n < r.nout then some { j with next := j.next + n } else none }
      match r.tile with
      | none => x
      | some uid => x.modTile uid fun t =>
          { t with outputs := if r.mode = 2 then t.outputs else t.outputs + n, clips := t.clips + clipped,
                   vectors := if r.gd ∈ t.vectors then t.vectors else t.vectors ++ [r.gd] }
    if j.next + n < r.nout then s else s.pumpPos st p
  | _, _ => s
/-- REQUANTIZER_OUTPUT. -/
def execRequantizerOutput (st : StandId) (p : Pos) (s : State) : Res := .next (s.rqOutput st p)

end Sys2Proof.Machine
end

