-- ==== Sys2Proof/Machine/Grove.lean ====
section
/-! DEFINITION. Port endpoints, transport paths, routes, relay slots and the flag unit (11): what commands of several chapters
share. -/

namespace Sys2Proof.Machine

/-! ## Places and settings (R339, R340, R361) -/

/-- Node of the endpoint of a port (Table 11.1). -/
def portNode (p : Nat) : Nat := 5088 + p
/-- Own place. -/
def State.ownPlace (s : State) : Nat := s.setting (entryKey 0x2600 0x0C) 0
/-- Own grove identifier. -/
def State.groveId (s : State) : Nat := s.setting (entryKey 0x2600 1) 0
/-- Own position. -/
def State.position (s : State) : Nat := s.setting (entryKey 0x2600 2) 0
/-- Entry of a place in the place table [0x2600:0B]. -/
def State.placeEntry (s : State) (n : Nat) : List Byte := slice (s.octet (entryKey 0x2600 0x0B) 3200) (40 * n) 40
/-- A place lies in this module's grove. -/
def State.inGrove (s : State) (n : Nat) : Bool := field (s.placeEntry n) 0 4 = s.groveId
/-- Position of a place in its grove. -/
def State.placePos (s : State) (n : Nat) : Nat := field (s.placeEntry n) 4 1 % 16
/-- Digest of the grove map (R340). -/
def State.mapDigest (s : State) : List Byte := (sha256 (s.octet (entryKey 0x2600 3) 128)).take 8
/-- Serial number that the grove map gives a position. -/
def State.mapSerial (s : State) (pos : Nat) : Nat := field (s.octet (entryKey 0x2600 3) 128) (8 * pos) 8
/-- Neighbours of a position: row by ascending column, then column by ascending row (R339). -/
def neighbours (p : Nat) : List Nat :=
  ((List.range 4).map fun c => p / 4 * 4 + c).filter (· ≠ p) ++ ((List.range 4).map fun r => 4 * r + p % 4).filter (· ≠ p)
/-- Index of a neighbour, when it is one. -/
def neighbourIdx (p n : Nat) : Option Nat := (List.range 6).find? fun k => (neighbours p).getD k 16 = n
/-- Port of the neighbour that port q is cabled to (R339). -/
def partnerPort (p q : Nat) : Nat :=
  match neighbourIdx ((neighbours p).getD (q % 6) 16) p with
  | some j => j + 6 * (q / 6)
  | none => 16
/-- A port is UP. -/
def State.portUp (s : State) (p : Nat) : Bool := (s.port p).st = 3

/-! ## Paths (R344, R345) -/

/-- Key of a path: grove ports have one partner, canopy ports one path per peer (R344). -/
def pathKey (port peer : Nat) : Nat := port + 16 * (if port < 12 then 0 else peer)
/-- Path. -/
def State.path (s : State) (port peer : Nat) : Path := Tab.get {} s.grove.paths (pathKey port peer)
/-- Change a path. -/
def State.modPath (s : State) (port peer : Nat) (f : Path → Path) : State :=
  { s with grove := { s.grove with paths := Tab.set {} s.grove.paths (pathKey port peer) (f (s.path port peer)) } }
/-- Frames a path holds (R344). -/
def pathCap (port : Nat) : Nat := if port < 12 then 512 else 1024
/-- Space that the endpoint advertises in WIN (R348). -/
def State.ownWin (s : State) (port : Nat) : Nat :=
  let e := s.endpoint (portNode port)
  pathCap port - e.delivering.length - e.holding.length - e.mems.length
/-- A header that this module fills (Table 11.5). -/
def State.frameHdr (s : State) (port peer kind dplace : Nat) : Frame :=
  { ver := 1, kind := kind, hops := 0, retx := false, splace := s.ownPlace, dplace := dplace, sinc := (s.node (portNode port)).inc,
    dinc := (s.path port peer).partner, key := 0, seq := 0, ack := (s.path port peer).expect, win := s.ownWin port,
    grove := s.groveId, info := 0, payload := [] }
/-- Header fields that belong to the hop a frame takes. -/
def State.onHop (s : State) (port peer : Nat) (f : Frame) : Frame :=
  { f with sinc := (s.node (portNode port)).inc, dinc := (s.path port peer).partner, ack := (s.path port peer).expect,
           win := s.ownWin port, grove := s.groveId }

/-! ## Frames on the wire (R338, R342, R343) -/

/-- MAC address of a port (R338). -/
def portMac (p : Nat) : Nat := Config.baseMac.toNat + p
/-- The broadcast address, to which hellos go. -/
def broadcast : Nat := 2 ^ 48 - 1
/-- EtherType of transport frames on grove ports. -/
def transportType : Nat := 0x88B5
/-- Bytes of a frame (Table 11.5): the 32-byte header and the payload, in network byte order. -/
def encFrame (f : Frame) : List Byte :=
  beBytes 1 (f.ver * 16 + f.kind) ++ beBytes 1 (f.hops * 64 + b2n f.retx) ++ beBytes 2 f.payload.length ++ beBytes 1 f.splace ++
    beBytes 1 f.dplace ++ beBytes 2 f.sinc ++ beBytes 2 f.dinc ++ beBytes 2 f.key ++ beBytes 4 f.seq ++ beBytes 4 f.ack ++
    beBytes 2 f.win ++ [0, 0] ++ beBytes 4 f.grove ++ beBytes 4 f.info ++ f.payload
/-- Frame that bytes spell. -/
def decFrame (b : List Byte) : Frame :=
  let n := fun o k => beNat (slice b o k)
  { ver := n 0 1 / 16, kind := n 0 1 % 16, hops := n 1 1 / 64, retx := bit (n 1 1) 0, splace := n 4 1, dplace := n 5 1, sinc := n 6 2,
    dinc := n 8 2, key := n 10 2, seq := n 12 4, ack := n 16 4, win := n 20 2, grove := n 24 4, info := n 28 4, payload := b.drop 32 }
/-- A reserved bit of the header or of the payload of a frame's kind is 1 (Tables 11.5 to 11.7). -/
def frameReserved (b : List Byte) : Bool :=
  let n := fun o k => beNat (slice b o k)
  let k := n 0 1 % 16
  decide (bits (n 1 1) 5 1 ≠ 0) || !zeros b 22 2 ||
    (if k = 0 then !zeros b 43 5
     else if k = 2 ∨ k = 3 then decide (bits (n 10 2) 7 4 ≠ 0 ∨ bits (n 28 4) 26 16 ≠ 0 ∨ 64 ≤ n 35 1 ∨ 8192 ≤ n 36 2 ∨ 16 ≤ n 38 1 ∨ 32 ≤ n 39 1)
     else if k = 4 then !zeros b 33 3
     else if k = 6 then decide (n 28 4 % 65536 ≠ 0)
     else false)
/-- Ones' complement sum of 16-bit words. -/
def sum16 : List Byte → Nat
  | a :: b :: t => a.toNat * 256 + b.toNat + sum16 t
  | [a] => a.toNat * 256
  | [] => 0
/-- UDP checksum of a pseudo-header and a datagram whose checksum field is 0. -/
def udpSum (b : List Byte) : Nat :=
  let fold := fun (n : Nat) => n % 65536 + n / 65536
  let c := 65535 - fold (fold (fold (sum16 b)))
  if c = 0 then 65535 else c
/-- Own address of a canopy port [0x2610:04]. -/
def State.ownAddr (s : State) (p : Nat) : List Byte := s.octet (entryKey 0x2610 4 p) 16
/-- IPv6 packet that carries a transport frame to a peer's address (R342). -/
def State.packet6 (s : State) (p peer : Nat) (b : List Byte) : List Byte :=
  let n := 8 + b.length
  let ends := s.ownAddr p ++ beBytes 16 peer
  let udp := s.setting (entryKey 0x2600 9) 51200
  let h := beBytes 2 udp ++ beBytes 2 udp ++ beBytes 2 n
  beBytes 4 (6 * 2 ^ 28 + s.setting (entryKey 0x2610 7 p) 0 * 2 ^ 22) ++ beBytes 2 n ++ [17, 64] ++ ends ++ h ++
    beBytes 2 (udpSum (ends ++ beBytes 4 n ++ [0, 0, 0, 17] ++ h ++ [0, 0] ++ b)) ++ b
/-- A frame as it leaves a port. Its link-layer destination is the partner's address, which the last valid hello or the gateway's
answer gave (DEDUCED, log 135). -/
def State.onWire (s : State) (p peer : Nat) (f : Frame) : Ether :=
  let peerEnd := if p < 12 ∧ f.kind = 0 then broadcast else (s.port p).peerMac
  { dst := peerEnd, src := portMac p, vlan := none, etype := if p < 12 then transportType else 0x86DD,
    data := if p < 12 then encFrame f else s.packet6 p peer (encFrame f) }
/-- Send a frame: counted, and emitted on its port. -/
def State.emitFrame (s : State) (p peer : Nat) (f : Frame) : State := (s.count 0x528001).emit (.ether p (s.onWire p peer f))

/-- Send what the partner's WIN allows and has not been sent (R344); `fuel` bounds the frames. -/
def State.pumpPath (port peer : Nat) : Nat → State → State
  | 0, s => s
  | k + 1, s =>
    let p := s.path port peer
    if s.portUp port ∧ p.sent < p.unacked.length ∧ p.sent < p.win then
      match p.unacked[p.sent]? with
      | none => s
      | some e =>
        let f := s.onHop port peer e.1
        let s := s.modPath port peer fun p => { p with unacked := p.unacked.set p.sent (f, s.time.tick), sent := p.sent + 1 }
        State.pumpPath port peer k (s.emitFrame port peer f)
    else s
/-- A frame takes a place of a path and the next sequence number; a full path makes it wait (R344). -/
def Path.put (p : Path) (cap now : Nat) (f : Frame) : Path :=
  if p.unacked.length < cap then
    { p with unacked := p.unacked ++ [({ f with seq := p.nextSeq }, now)], nextSeq := (p.nextSeq + 1) % 2 ^ 32 }
  else { p with waiting := p.waiting ++ [f] }
/-- Waiting frames take the places of a path, in order. -/
def Path.refill (p : Path) (cap now : Nat) : Path := p.waiting.foldl (fun p f => p.put cap now f) { p with waiting := [] }
/-- Put a frame on a path. -/
def State.pathSend (s : State) (port peer : Nat) (f : Frame) : State :=
  let s := s.modPath port peer fun p => { p with waiting := p.waiting ++ [f] }.refill (pathCap port) s.time.tick
  State.pumpPath port peer (s.path port peer).unacked.length s
/-- An ACK frame (Table 11.6). -/
def State.sendAck (s : State) (port peer : Nat) : State :=
  s.emitFrame port peer (s.frameHdr port peer 1 0)

/-! ## Routes (R352, R354) -/

/-- The two ports of the pair to neighbour k, `first` before the other. -/
def pairPorts (k : Nat) (east : Bool) : List Nat := if east then [k + 6, k] else [k, k + 6]
/-- Paths of R352 from position a to position b, each as its first-hop ports in order; `east`: half of the named port. -/
def grovePaths (a b : Nat) (east : Bool) : List (List Nat) :=
  let via := fun (e : Bool) (m : Nat) => match neighbourIdx a m with | some k => pairPorts k e | none => []
  match neighbourIdx a b with
  | some k => pairPorts k east :: (((List.range 16).filter fun m => (neighbours a).contains m && (neighbours b).contains m).map
      fun m => via false m)
  | none => [via east (a / 4 * 4 + b % 4), via false (b / 4 * 4 + a % 4)]
/-- First-hop port for a position, and whether it lies on a path other than the first. -/
def State.groveHop (s : State) (b : Nat) (east : Bool) : Option (Nat × Bool) :=
  let ps := (grovePaths s.position b east).zipIdx.flatMap fun e => e.1.map fun p => (p, decide (0 < e.2))
  ps.find? fun e => s.portUp e.1

/-! ## Relay slots (R346, R347, R350) -/

/-- A relay entry or delivery descriptor (Table 11.7). -/
structure Relay where
  kind : Nat
  port : Nat
  dplace : Nat
  rows : Nat
  dnode : Nat
  dwindow : Nat
  drow : Nat
  dest : Nat
  deriving DecidableEq, Repr

/-- Decode of 16 bytes, little-endian in the dictionary, network order in frames (R6). -/
def decRelay (net : Bool) (b : List Byte) : Relay :=
  let n := fun o k => if net then beNat (slice b o k) else field b o k
  { kind := n 0 1, port := n 1 1, dplace := n 2 1, rows := n 3 1 % 64, dnode := n 4 2 % 8192, dwindow := n 6 1 % 16,
    drow := n 7 1 % 32, dest := n 8 8 }
/-- Delivery descriptor of a frame, in network byte order. -/
def encRelay (r : Relay) : List Byte :=
  beBytes 1 r.kind ++ beBytes 1 r.port ++ beBytes 1 r.dplace ++ beBytes 1 r.rows ++ beBytes 2 r.dnode ++ beBytes 1 r.dwindow ++
    beBytes 1 r.drow ++ beBytes 8 r.dest
/-- Words in network byte order. -/
def beWordBytes (ws : List Word) : List Byte := ws.flatMap fun w => beBytes 4 w.toNat
/-- Relay entry of a slot. -/
def State.relayEntry (s : State) (port slot : Nat) : Relay :=
  decRelay false (s.octet (entryKey 0x2620 4 (port * 16 + slot)) 16)
/-- The relay build matches the current binary (R346). -/
def State.relayBuild (s : State) : Bool :=
  match s.binary.current with
  | some b => s.setting (entryKey 0x2620 1) 0 == conBuild b
  | none => false
/-- The entry of a slot applies. -/
def State.relayOn (s : State) (port slot : Nat) : Bool := s.relayBuild && (s.relayEntry port slot).kind ≠ 0
/-- Open or close a relay slot as its entry applies; an OPEN one takes the ROWS of its entry (R347). -/
def State.applyRelay (s : State) (p i : Nat) : State :=
  let w := (s.credit (portNode p)).win i
  if s.relayOn p i then
    let n := (s.relayEntry p i).rows
    if w.st = .opened ∧ w.count = n then s
    else if w.st = .opened then s.modCredit (portNode p) fun u => u.modWin i fun w => { w with count := n }
    else s.modCredit (portNode p) fun u => u.modWin i fun w => { w with st := .opened, count := n, gen := 0, rows := [] }
  else if w.st = .closed then s else s.modCredit (portNode p) fun u => u.shutWin i
/-- Every relay slot as its entry applies; requests waiting for a slot that closed are answered BANK_OFF (R347, R108). -/
def State.applyRelays (s : State) : State :=
  let s := (List.range 224).foldl (fun s k => s.applyRelay (k / 16) (k % 16)) s
  (List.range 14).foldl (fun s p => s.serveQueue (portNode p)) s
/-- FILL of a row after the next use (R347). -/
def Window.nextFill (w : Window) (row : Nat) : Nat := (Tab.get 0 w.fill row + 1) % 65536
/-- Make rows of a slot FREE again: the queue is served and a full closing pool closes (R112). -/
def State.freeRows (s : State) (node slot : Nat) (rows : List Nat) : State :=
  ((s.modCredit node fun u => u.modWin slot fun w => rows.foldl (fun w r => w.putRow r .free) w).serveQueue node).settle node
/-- Rows of a reduction's result (R220). -/
def redRows (row count : Nat) : List Nat := (List.range (ceilDiv (1 + 2 * count) 64)).map (· + row)
/-- Parts of a reduction (R217). -/
def redPartCount (count : Nat) : Nat := ceilDiv count 32
/-- Note a part of a job, opening the job at its first. -/
def noteRed (l : List RedJob) (slot row count : Nat) (f : RedJob → RedJob) : List RedJob :=
  if l.any fun j => j.slot = slot ∧ j.row = row then
    l.map fun j => if j.slot = slot ∧ j.row = row then f j else j
  else l ++ [f { slot := slot, row := row, count := count }]
/-- Job of a slot row. -/
def Endpoint.red (e : Endpoint) (slot row : Nat) : Option RedJob := e.reds.find? fun j => j.slot = slot ∧ j.row = row
/-- The first hop acknowledged a frame of this module (R347, R350), or its data is lost (R345, log 25): the slot row is free. -/
def State.frameGone (s : State) (f : Frame) : State :=
  if f.splace ≠ s.ownPlace ∨ f.hops ≠ 0 then s
  else
    let port := f.key / 256
    let slot := f.key % 16
    let node := portNode port
    if f.kind = 2 then s.freeRows node slot [f.info / 2 ^ 27]
    else if f.kind = 3 then
      let part := f.info / 2 ^ 27
      let row := bits (beNat (slice f.payload 16 4)) 27 23
      match (s.endpoint node).red slot row with
      | none => s
      | some j =>
        let j := { j with acked := part :: j.acked.erase part }
        if j.acked.length = redPartCount j.count then
          (s.modEndpoint node fun x => { x with reds := x.reds.filter fun k => !(k.slot == slot && k.row == row) }).freeRows
            node slot (redRows row j.count)
        else s.modEndpoint node fun x => { x with reds := noteRed x.reds slot row j.count fun _ => j }
    else s

/-! ## Frames on their way (R352, R354) -/

/-- Discard a frame with no way on (R352): counted and recorded; what it held is free (log 25). -/
def State.unreachable (s : State) (f : Frame) : State :=
  ((s.count 0x528009).record 0x0602 0 (leBytes 1 f.dplace ++ leBytes 1 f.kind)).frameGone f
/-- Address of a place for canopy port c, from the place table [0x2600:0B] (R354); a peer is named by its address. -/
def State.peerAddr (s : State) (place c : Nat) : Nat := beNat (slice (s.placeEntry place) (8 + 16 * (c - 12)) 16)
/-- Address of the shard peer [0x2640:01] (R358). -/
def State.shardPeer (s : State) : Nat := beNat (s.octet (entryKey 0x2640 1) 16)
/-- Send a frame toward its place by R352 and R354; `port` is the named port, or the port of arrival. -/
def State.route (s : State) (port : Nat) (f : Frame) : State :=
  if s.inGrove f.dplace then
    match s.groveHop (s.placePos f.dplace) (decide (6 ≤ port ∧ port ≠ 12)) with
    | none => s.unreachable f
    | some (p, alt) => (if alt then s.count 0x528008 else s).pathSend p 0 f
  else
    let c := if port = 13 then 13 else 12
    let o := 25 - c
    if !s.portUp c && s.portUp o then s.pathSend o (s.peerAddr f.dplace o) f
    else s.pathSend c (s.peerAddr f.dplace c) f
/-- A slot row became FILLED: its FILL rises and it leaves as a RELAY frame (R347). -/
def State.relaySend (s : State) (node slot row : Nat) : State :=
  let port := node - 5088
  let e := s.relayEntry port slot
  let fill := ((s.credit node).win slot).nextFill row
  let s := s.modCredit node fun u => u.modWin slot fun w => { w with fill := Tab.set 0 w.fill row fill }
  let d := if e.kind = 3 ∨ e.kind = 4 then { e with dest := e.dest + 256 * row } else e
  let ws := Tab.getRun 0 (s.endpoint node).rowWords ((slot * 32 + row) * 64) 64
  s.route e.port { s.frameHdr port 0 2 e.dplace with
    key := port * 256 + slot, info := row * 2 ^ 27 + fill, payload := encRelay d ++ beWordBytes ws }
/-- A complete part at an endpoint leaves as a REDUCE frame (R350); with the last one the lead's rows become FILLED. -/
def State.reduceSend (s : State) (node : Nat) (m : PartMsg) : State :=
  let port := node - 5088
  let e := s.relayEntry port m.window
  let fill := ((s.credit node).win m.window).nextFill m.row
  let word := m.window * 2 ^ 28 + m.row * 2 ^ 23 + m.gen % 256 * 2 ^ 15 + m.count * 16
  let s := s.modEndpoint node fun x =>
    { x with reds := noteRed x.reds m.window m.row m.count fun j => { j with sent := m.part :: j.sent.erase m.part } }
  let s := match (s.endpoint node).red m.window m.row with
    | some j =>
      if j.sent.length = redPartCount m.count then
        s.modCredit node fun u => u.modWin m.window fun w =>
          { ((redRows m.row m.count).foldl (fun (w : Window) (r : Nat) => match w.row r with
              | .granted snd _ _ => w.putRow r (.filled snd)
              | _ => w) w) with fill := Tab.set 0 w.fill m.row fill }
      else s
    | none => s
  s.route e.port { s.frameHdr port 0 3 e.dplace with
    key := port * 256 + m.window, info := m.part * 2 ^ 27 + fill,
    payload := encRelay e ++ beWordBytes (BitVec.ofNat 32 word :: rawVector m.elems) }

/-! ## The flag unit (R355 to R357) -/

/-- Channel of the flag unit. -/
def State.chan (s : State) (c : Nat) : FlagChan := Tab.get {} s.grove.chans c
/-- Change a channel. -/
def State.modChan (s : State) (c : Nat) (f : FlagChan → FlagChan) : State :=
  { s with grove := { s.grove with chans := Tab.set {} s.grove.chans c (f (s.chan c)) } }
/-- Members of a channel, ascending (R355). -/
def State.members (s : State) (c : Nat) : List Nat :=
  if 64 ≤ c then List.range s.weights.sw.members
  else if s.relayBuild then
    let b := s.octet (entryKey 0x2630 2 c) 10
    (List.range 80).filter fun n => bit (field b (n / 8) 1) (n % 8)
  else []
/-- The channel is extended to other modules (R355). -/
def State.extended (s : State) (c : Nat) : Bool := (s.members c).any fun n => n ≠ s.ownPlace
/-- Root of a channel: its lowest member. -/
def State.root (s : State) (c : Nat) : Nat := (s.members c).headD s.ownPlace
/-- Send a BARRIER frame (Table 11.6): OP 1 ARRIVE, 2 COMPLETE, 3 WITHDRAW, 4 WITHDRAWN. -/
def State.sendBarrier (s : State) (c q op dplace : Nat) : State :=
  s.route 0 { s.frameHdr 0 0 4 dplace with key := c, info := q, payload := beBytes 1 op ++ [0, 0, 0] }
/-- Apply COMPLETE(q) (R356): a phase already passed is ignored, and so is a switch completion at a disarmed module (R357). -/
def State.applyComplete (s : State) (c q : Nat) : State :=
  if q ≤ (s.chan c).done then s
  else if c = 64 ∧ s.weights.sw.st ≠ 2 ∧ s.weights.sw.st ≠ 3 then s
  else
    let s := (s.modChan c fun x => { x with done := q, arrivals := x.arrivals.filter fun a => decide (q < a.2) }).count 0x52800C
    if c < 64 then { s.count 0x526101 with phases := Tab.set 0 s.phases c q }
    else if c = 64 then { s with weights := { s.weights with sw := { s.weights.sw with completed := true } } }
    else { s with weights := { s.weights with sw := { s.weights.sw with retired := true } } }
/-- The root holds an arrival (R356 step 2); with every member's it sends COMPLETE. -/
def State.rootArrive (s : State) (c q place : Nat) : State :=
  if q ≤ (s.chan c).done ∨ q ≤ (s.chan c).sentPhase then s
  else
    let s := s.modChan c fun x => { x with arrivals := if (place, q) ∈ x.arrivals then x.arrivals else x.arrivals ++ [(place, q)] }
    let ms := s.members c
    if ms ≠ [] ∧ ms.all fun n => (s.chan c).arrivals.contains (n, q) then
      let s := s.modChan c fun x => { x with sentPhase := q }
      ((ms.filter fun n => n ≠ s.ownPlace).foldl (fun s n => s.sendBarrier c q 2 n) s).applyComplete c q
    else s
/-- The module's own condition for phase q holds: ARRIVE(q) to the root, once (R356 step 1). In a fault stop the flag unit makes
no further arrivals (R379). -/
def State.flagArrive (s : State) (c q : Nat) : State :=
  if q ≤ (s.chan c).arrivedPhase ∨ s.rel.stopNow then s
  else
    let s := s.modChan c fun x => { x with arrivedPhase := q }
    if s.root c = s.ownPlace then s.rootArrive c q s.ownPlace else s.sendBarrier c q 1 (s.root c)
/-- Participants of a channel under the current binary. -/
def State.participants (s : State) (c : Nat) : List Nat := allStands.filter fun n => s.participates c n
/-- Every local participant's arrival count exceeds the phase count (R226). -/
def State.allArrived (s : State) (c : Nat) : Bool :=
  let ps := s.participants c
  decide (ps ≠ []) && ps.all fun n => decide (s.phase c < (s.stand n).arrivalsOn c)
/-- An extended channel whose local condition holds arrives (R356). -/
def State.flagCheck (s : State) (c : Nat) : State :=
  if s.extended c && s.allArrived c then s.flagArrive c (s.phase c + 1) else s

end Sys2Proof.Machine
end

