-- ==== Sys2Proof/Machine/Units.lean ====
section
/-! DEFINITION. Stand reset and units that leave service (04 section 4.6, 06 R149, 10 section 10.5). -/

namespace Sys2Proof.Machine

/-- Everything a stand reset does inside the stand (R119, R149): windows voided and closed, queues and credits gone, banks ON
with requester 0 next (R101), words 0, registers 0, controller idle. Row maps, service map and arrival counts stay (R103, R228); so
do the corrected-error counts of the rows and the rows due for repair (DESIGN CHOICE, log 115). -/
def Stand.reset (x : Stand) : Stand :=
  let cu := slots16.foldl (fun u k => u.voidWin k) x.credit
  { x with
    pc := 0, regs := [], running := false, bended := false, backlog := [], spad := [], wrongBits := [],
    banks := Tab.mapVals {} (fun _ b => { b with power := .on, deadline := 0, copying := [], lastGrant := 20 }) x.banks,
    credit := { cu with queue := [] }, voidFlags := 0, sender := [], creqs := [], known := [], units := [], outQ := [],
    dmuQ := [], vecQ := [], dmaQ := [], dma := none, clearing := none, unitStep := 0, mems := [], dmu := {}, tile := none, tiles := [], arrived := [], headSince := 0, dogHold := 0 }
/-- Input buffers, pass sums and block accumulators of a core at 0 (R149). -/
def Core.clear (c : Core) : Core :=
  { c with slot0 := {}, slot1 := {}, sums0 := [], sums1 := [], nextSet1 := false, acc := [] }
/-- A unit leaves service: its next incarnation, the cause of its reset (R326, R430). -/
def State.leave (s : State) (n cause : Nat) (away : Bool) : State :=
  s.modNode n fun u => { inc := nextInc u.inc, cause := cause, away := away || u.away }
/-- Stand reset (R119). -/
def State.resetStand (s : State) (st cause : Nat) (away : Bool) : State :=
  let s := (List.range 17).foldl (fun s c => s.modCore st c Core.clear) s
  (s.modStand st Stand.reset).leave st cause away
/-- A port endpoint's transport reset (R345): its relay slots are voided and closed, frames in delivery are gone. -/
def Endpoint.reset (e : Endpoint) : Endpoint :=
  let cu := slots16.foldl (fun u k => u.voidWin k) e.credit
  { e with credit := { cu with queue := [] }, rowWords := [], delivering := [], holding := [], mems := [], reds := [],
           known := [] }
/-- Transport reset of a port (R345): its paths start again, its relay slots are opened again as their entries apply. -/
def State.resetPort (s : State) (p cause : Nat) (away : Bool) : State :=
  let s := { s with grove := { s.grove with paths := Tab.clear s.grove.paths fun k => k % 16 == p } }
  ((s.modEndpoint (portNode p) Endpoint.reset).leave (portNode p) cause away).applyRelays
/-- Reset of the unit at node n (R325, R326, R428): a stand, a port endpoint, or a unit without state of its own here. -/
def State.resetUnit (s : State) (n cause : Nat) : State :=
  if n < 5000 then s.resetStand n cause true
  else if 5088 ≤ n ∧ n < 5102 then s.resetPort (n - 5088) cause true
  else s.leave n cause true

/-- STAND_RESET (R119): a UNIT reset of the stand; the stand answers AWAY until it returns to service. -/
def execStandReset (st : StandId) (s : State) : Res := .next ((s.resetStand st 5 true).count 0x512002)

end Sys2Proof.Machine
end

