-- ==== Sys2Proof/Machine/Memory.lean ====
section
/-! DEFINITION. The memory tiers and the arbiters (10): bursts and their owners, requests, patrol, remap, arbitration. -/

namespace Sys2Proof.Machine

/-! ## Bursts (R305, R370) -/

/-- Header of adapter slot n as it stands in tier A (Table 9.9). -/
def State.slotHdr (s : State) (n : Nat) : ASlot :=
  let b := s.tierBytes false (n * 16777216) 64
  { ident := field b 0 4, gen := field b 4 2, st := field b 6 1, refs := field b 8 4, first := field b 12 4,
    length := field b 16 4, digest := slice b 32 32 }
/-- Write the header of adapter slot n (Table 9.9). -/
def State.putSlotHdr (s : State) (n : Nat) (a : ASlot) : State :=
  s.putTier false (n * 16777216)
    (leBytes 4 a.ident ++ leBytes 2 a.gen ++ leBytes 1 a.st ++ leBytes 1 0 ++ leBytes 4 a.refs ++ leBytes 4 a.first ++
      leBytes 4 a.length ++ List.replicate 12 0 ++ slice a.digest 0 32)
/-- KV pool base of a tier (R310). -/
def State.kvBase (s : State) (b : Bool) : Nat := s.setting (if b then 0x250006 else 0x250005) 100000000000
/-- What the owner of an uncorrectable burst does (Table 12.3). -/
def State.ownerUe (s : State) (b : Bool) (a : Nat) : State :=
  if s.kvBase b ≤ a then { s with serving := { s.serving with kvErr := s.serving.kvErr ++ [(b, a)] } }
  else if b then
    if 64000000000 ≤ a ∧ a < 69265920000 then
      { s with weights := { s.weights with masterErr := s.weights.masterErr ++ [a] } }
    else if 69265920000 ≤ a then
      { s with serving := { s.serving with faultErr := s.serving.faultErr ++ [(Config.privateOwner (a / 64), 2)] } }
    else s
  else if a < 68719476736 then
    let n := a / 16777216
    let h := s.slotHdr n
    let s := { s with serving := { s.serving with faultErr := s.serving.faultErr ++ [(n, 3)] },
                      weights := { s.weights with idMap := s.weights.idMap.filter fun e => e.2 ≠ n + 1 } }
    if h.st = 2 then s.putSlotHdr n { h with st := 3 } else s
  else s.faultStop 0x0501
/-- A pseudo-channel is due for retirement (R377): added once. -/
def State.retirePch (s : State) (p : Nat) : State :=
  if p ∈ s.mem.retire then s else { s with mem := { s.mem with retire := s.mem.retire ++ [p] } }
/-- History of a burst that was read (R377): a burst uncorrectable twice, or 1,024 corrected bursts of a pseudo-channel. -/
def State.burstNote (s : State) (b : Bool) (a w : Nat) : State :=
  if b ∨ w = 0 then s
  else
    let p := pchOf a
    if w = 1 then
      let n := Tab.get 0 s.mem.pchCorr p + 1
      let s := { s with mem := { s.mem with pchCorr := Tab.set 0 s.mem.pchCorr p n } }
      if 1024 ≤ n then s.retirePch p else s
    else
      let n := Tab.get 0 s.mem.ueSeen (a / 64) + 1
      let s := { s with mem := { s.mem with ueSeen := Tab.set 0 s.mem.ueSeen (a / 64) n } }
      if 2 ≤ n then s.retirePch p else s
/-- A read of one burst by a node (R305); `bound`: the burst goes to the node, and a stand is quarantined by an uncorrectable one
(R365, R370). -/
def State.burstRead (s : State) (b : Bool) (node k : Nat) (bound : Bool := true) : State :=
  let w := s.wrongBurst b k
  let s := s.burstNote b (64 * k) w
  if w = 0 then s
  else if w = 1 then s.count (if b then 0x527003 else 0x527001)
  else
    let s := (s.count (if b then 0x527004 else 0x527002)).log
      { cls := 0x0501, sev := 0, unit := endpointOf b (64 * k),
        detail := leBytes 1 (b2n b) ++ leBytes 8 (64 * k) ++ leBytes 2 node }
    (if bound ∧ node < 5000 then s.quarantine node 1 else s).ownerUe b (64 * k)
/-- Bursts that n bytes from a touch, ascending. -/
def burstsOf (a n : Nat) : List Nat := if n = 0 then [] else (List.range ((a + n - 1) / 64 + 1 - a / 64)).map (· + a / 64)
/-- Endpoints out of service that n bytes from a touch: each refuses the request of an engine that uses the tiers directly, once per
256-byte unit, which the engine resends (R327, log 82). -/
def State.refusedAt (s : State) (b : Bool) (a n : Nat) : Nat :=
  if n = 0 then 0 else ((List.range ((a + n - 1) / 256 + 1 - a / 256)).filter fun i => s.isAway (endpointOf b (256 * (a / 256 + i)))).length
/-- Count those refusals; requests of stands and ports are refused where they arrive. -/
def State.tierAsk (s : State) (b : Bool) (a n node : Nat) : State :=
  if node < 5104 then s else s.count 0x527008 (s.refusedAt b a n)
/-- Read n bytes of a tier for a node: the bytes, and the state after the bursts' codes were checked. -/
def State.tierRead (s : State) (b : Bool) (a n node : Nat) : List Byte × State :=
  (s.tierBytes b a n, (burstsOf a n).foldl (fun s k => s.burstRead b node k) (s.tierAsk b a n node))
/-- Write bytes for a node (R316): a burst written in part is read for the merge; every burst gets fresh check bits. -/
def State.tierWrite (s : State) (b : Bool) (a : Nat) (bs : List Byte) (node : Nat) : State :=
  let s := (burstsOf a bs.length).foldl (fun s k =>
    let whole := decide (a ≤ 64 * k ∧ 64 * k + 64 ≤ a + bs.length)
    (if whole then s else s.burstRead b node k false).freshBurst b k) (s.tierAsk b a bs.length node)
  s.putTier b a bs

/-! ## Requests (R314 to R316) -/

/-- A MEMREQ that R208 and R314 call malformed: reserved OP, a reserved bit of the write header, or a payload that does not match its length. -/
def memMalformed (m : MemReq) : Bool :=
  decide (2 < m.op) ||
  (if m.op = 1 then decide (m.data.length ≠ m.wm1 + 1 ∨ m.whdr ≠ none)
   else if m.op = 2 then (match m.whdr with | some h => decide (h.length ≠ m.wm1 + 1 ∨ h.reserved ≠ 0 ∨ m.data ≠ []) | none => true)
   else decide (m.data ≠ [] ∨ m.whdr ≠ none))
/-- Every word lies in the tier and at this endpoint (R315). -/
def memInRange (m : MemReq) (node : Nat) : Bool :=
  decide (4 * (m.waddr + m.wm1 + 1) ≤ tierSize m.tierB) && endpointOf m.tierB (4 * m.waddr) == node &&
  decide (m.waddr % 64 + m.wm1 ≤ 63)
/-! ## Remap (R306, R377) -/

/-- Tier and byte address of the k-th burst of an endpoint's devices, in ascending address (R307, R308). -/
def endpointBurst (node k : Nat) : Bool × Nat :=
  if node < 5064 then
    let stack := (node - 5000) / 8
    let e := (node - 5000) % 8
    (false, ((k / 32) * 512 + stack + 8 * e + 64 * (k / 4 % 8)) * 256 + 64 * (k % 4))
  else
    let e := (node - 5064) % 2 * 12 + (node - 5064) / 2
    (true, ((k / 4) * 24 + e) * 256 + 64 * (k % 4))
/-- Remap of a stack. -/
def State.remap (s : State) (k : Nat) : Remap := Tab.get {} s.mem.remaps k
/-- Change a stack's remap. -/
def State.modRemap (s : State) (k : Nat) (f : Remap → Remap) : State :=
  { s with mem := { s.mem with remaps := Tab.set {} s.mem.remaps k (f (s.remap k)) } }
/-- PSEUDO_CHANNEL_REMAP (R306, R377): a retired pseudo-channel is copied to the reserves; uncorrectable bursts are copied as
read with fresh check bits and a record each; the remap takes effect at the next boundary. With the stack's remap in use,
health becomes DEGRADED. -/
def execPseudoChannelRemap (stack : Fin 8) (pch : Fin 64) (s : State) : Res :=
  let p := stack.val * 64 + pch.val
  if p ∉ s.mem.retire then .next s
  else
    let s := { s with mem := { s.mem with retire := s.mem.retire.erase p } }
    if (s.remap stack).valid ∨ (s.remap stack).copying then .next s.degrade
    else
      let mine := s.mem.wrongA.filter fun e => pchOf (64 * e.1) = p
      let bad := mine.filter fun e => 2 ≤ e.2
      let s := bad.foldl (fun s e => 
        s.record 0x0501 0 (leBytes 1 0 ++ leBytes 8 (64 * e.1) ++ leBytes 2 (endpointOf false (64 * e.1)))
          (unit := endpointOf false (64 * e.1))) s
      let s := mine.foldl (fun s e => s.freshBurst false e.1) s
      let s := s.log { cls := 0x0502, sev := 2, unit := 5000 + stack.val * 8 + pch.val / 8,
                       detail := leBytes 1 stack.val ++ leBytes 1 pch.val ++ leBytes 4 bad.length }
      .next (s.modRemap stack fun _ => { valid := false, copying := true, pch := pch })
/-- A finished copy takes effect at a boundary (R306 step 4). -/
def State.remapBoundary (s : State) : State :=
  let m := Tab.mapVals {} (fun _ r => if r.copying then { r with valid := true, copying := false } else r) s.mem.remaps
  { s with mem := { s.mem with remaps := m } }

/-! ## Arbiters (R319 to R325) -/

/-- Requesters of an arbiter (Table 10.8). -/
def requesters (a : Nat) : Nat := if a < 88 then 21 else if a < 90 then 5 else 4
/-- Default rank (Table 10.8). -/
def defaultRank (a r : Nat) : Nat :=
  if a < 88 then (if r < 16 then 1 else if r = 16 then 2 else if r = 17 then 1 else if r = 18 then 2 else if r = 19 then 1 else 0)
  else if a < 90 then (if r = 0 then 3 else if r = 1 then 2 else if r = 2 then 1 else 0)
  else if a < 92 then (if r = 0 then 1 else if r = 1 then 3 else if r = 2 then 2 else 0)
  else (if r = 0 then 3 else if r = 1 then 2 else if r = 2 then 1 else 0)
/-- Rank entry [0x2510:06] of a requester of an arbiter. -/
def rankKey (a r : Nat) : Nat := entryKey 0x2510 6 (a * 32 + r)
/-- Rank in force (R319). -/
def State.rank (s : State) (a r : Nat) : Nat := s.setting (rankKey a r) (defaultRank a r)
/-- Clock cycles of an arbiter per TIME tick (Table 7.1, Table 10.8); 90 and 91 have no frequency in the spec (log 103). -/
def arbCycles (a : Nat) : Nat := if a < 88 then 12 else if a < 90 then 6 else if a < 92 then Config.arbClock else 2
/-- Requester chosen at a rank: the first with a request after the last granted one, in cyclic order (R320). -/
def cyclicPick (n last : Nat) (has : Nat → Bool) : Option Nat :=
  ((List.range n).map fun i => (last + 1 + i) % n).find? has
/-- The request granted next (R320, R323): the lock owner's alone while a sequence lasts. -/
def State.arbPick (s : State) (a : Nat) : Option ArbReq :=
  let x := s.arb a
  match x.lock with
  | some l => x.queue.find? fun q => q.requester = l.1 ∧ q.node = l.2.1
  | none =>
    let n := requesters a
    let top := (x.queue.map fun q => s.rank a q.requester).foldl max 0
    let last := Tab.get (n - 1) x.lastGrant top
    match cyclicPick n last fun r => s.rank a r == top && x.queue.any fun q => q.requester == r with
    | some r => x.queue.find? fun q => q.requester = r
    | none => none
/-- Counters of a requester after a grant that waited w cycles (R324). -/
def ArbStat.grant (t : ArbStat) (w : Nat) : ArbStat :=
  { grants := t.grants + 1, wait := t.wait + BitVec.ofNat 48 w, longest := min (max t.longest w) 0xFFFFFFFF }
/-- Locked sequence after a granted burst with or without LOCK (R323): opened, continued to its 16th burst, or ended. -/
def lockAfter (l : Option (Nat × Nat × Nat)) (requester node : Nat) (lock : Bool) : Option (Nat × Nat × Nat) :=
  match l with
  | some (r, n, k) => if lock ∧ k + 1 < 16 then some (r, n, k + 1) else none
  | none => if lock then some (requester, node, 1) else none
/-- Requester number of a node at a memory endpoint (Table 10.8): a stand's group, or the edge unit's own number. -/
def requesterOf (node : Nat) : Nat :=
  if node < 5000 then gcol node / 25 + 4 * min (grow node / 13) 3
  else if node < 5088 then 20
  else if node < 5104 then 19
  else if node = 5104 then 16
  else if node = 5105 then 17
  else 18

/-! ## What a grant performs (R315, R316) -/

/-- Last burst of a request. -/
def memLast (m : MemReq) : Nat := (m.waddr + m.wm1) / 16
/-- Answer to a request performed to its end (Tables 10.5, 10.6): `bs` are the bytes read. -/
def State.memReply (s : State) (node : Nat) (p : Packet) (m : MemReq) (bs : List Byte) : State :=
  let rsp := fun (ws : List Word) => s.send (s.reply node p.src p.sinc (.memrsp { status := 0, tierB := m.tierB, tag := m.tag, wm1 := m.wm1, data := ws }))
  if m.op = 1 then rsp []
  else match m.whdr with
    | some h => s.send (s.reply node p.src p.sinc (.write h (wordsOf bs)))
    | none => rsp (wordsOf bs)
/-- One burst of a MEMREQ: its part is written, or read and kept; after the last one the answer is sent. -/
def State.memBurst (s : State) (node : Nat) (q : ArbReq) (p : Packet) (m : MemReq) (bs : List Byte) : State × Option ArbReq :=
  let a := 4 * m.waddr
  let lo := max a (64 * q.burst)
  let hi := min (a + 4 * (m.wm1 + 1)) (64 * q.burst + 64)
  let r := if m.op = 1 then (bs, s.tierWrite m.tierB lo (slice (bytesOf m.data) (lo - a) (hi - lo)) p.src)
    else let r := s.tierRead m.tierB lo (hi - lo) p.src
      (bs ++ r.1, r.2)
  if memLast m ≤ q.burst then (r.2.memReply node p m r.1, none)
  else (r.2, some { q with burst := q.burst + 1, since := s.time.tick, work := .mem p r.1 })
/-- The end of a patrol round: counted; the next one begins an interval after this one began, and with it the interval over which
corrections are counted (R311, R377). -/
def State.patrolEnd (s : State) (node : Nat) : State :=
  let s := s.count 0x52700B
  let t0 := Tab.get 0 s.mem.patrolStart node + sec (s.setting 0x25000A 86400)
  let pc := Tab.clear s.mem.pchCorr fun p => decide (5000 + p / 64 * 8 + p / 8 % 8 = node)
  { s with mem := { s.mem with patrol := Tab.set 0 s.mem.patrol node 0, patrolStart := Tab.set 0 s.mem.patrolStart node t0, pchCorr := pc } }
/-- A patrol read: a single error is corrected in place, an uncorrectable burst is left as read (R311). -/
def State.patrolBurst (s : State) (node k : Nat) : State :=
  let e := endpointBurst node k
  let w := s.wrongBurst e.1 (e.2 / 64)
  let s := s.burstRead e.1 node (e.2 / 64)
  let s := if w = 1 then s.freshBurst e.1 (e.2 / 64) else s
  let s := { s with mem := { s.mem with patrol := Tab.set 0 s.mem.patrol node (k + 1) } }
  if tierSize e.1 ≤ (endpointBurst node (k + 1)).2 then s.patrolEnd node else s
/-- What the grant of a request performs: the state, and the request when bursts of it are left. -/
def State.serveReq (s : State) (node : Nat) (q : ArbReq) : State × Option ArbReq :=
  match q.work with
  | .engine => (s, none)
  | .patrol k => (s.patrolBurst node k, none)
  | .mem p bs =>
    match p.body with
    | .memreq m => s.memBurst node q p m bs
    | _ => (s, none)
/-- LOCK of the burst that a request waits for; the last of several bursts ends the sequence (DESIGN CHOICE, log 127). -/
def ArbReq.lockNow (q : ArbReq) : Bool :=
  q.lock && match q.work with
    | .mem p _ => (match p.body with
      | .memreq m => decide (m.waddr / 16 = memLast m ∨ q.burst < memLast m)
      | _ => true)
    | _ => true
/-- A queue after the grant of one of its requests: gone, or in its place for its next burst. -/
def afterGrant (q : ArbReq) (left : Option ArbReq) (l : List ArbReq) : List ArbReq :=
  match left with
  | none => l.erase q
  | some r => l.map fun o => if o = q then r else o
/-- One grant (R320, R323, R324): its burst is performed; the holder keeps the grant within a locked sequence alone. -/
def State.grantReq (s : State) (arb : Nat) (q : ArbReq) : State :=
  let w := (s.time.tick - q.since) * arbCycles arb
  let opened := (s.arb arb).lock.isNone && q.lockNow
  let rank := s.rank arb q.requester
  let d := requesters arb - 1
  let r := s.serveReq (5000 + arb) q
  let s := r.1.modArb arb fun x =>
    let l := lockAfter x.lock q.requester q.node q.lockNow
    { x with queue := afterGrant q r.2 x.queue, holder := if l.isSome then some (q, s.time.tick) else none, lock := l,
             lastGrant := Tab.set d x.lastGrant rank q.requester,
             stats := Tab.set {} x.stats q.requester ((Tab.get {} x.stats q.requester).grant w) }
  if opened then s.count 0x527007 else s
/-- ARBITER_GRANT (R320): at a break point the chosen request is granted. -/
def execArbiterGrant (arb : Fin 93) (s : State) : Res :=
  match s.arbPick arb with
  | none => .next s
  | some q => .next (s.grantReq arb q)

/-! ## Stuck holders (R325) -/

/-- The requester is an engine without a node: a controller's maintenance engine, or one behind arbiters 88 to 92 (R325, log 110). -/
def engineReq (arb r : Nat) : Bool := decide (88 ≤ arb) || r == 20
/-- An engine without a node leaves service: its next incarnation (R326). -/
def State.engineReset (s : State) (arb requester : Nat) : State :=
  let k := 32 * arb + requester
  { s with mem := { s.mem with engines := Tab.set 1 s.mem.engines k (nextInc (Tab.get 1 s.mem.engines k)) } }
/-- Arbiter whose own resource is the unit at a node: a memory controller endpoint, or a canopy port (Table 10.8). -/
def arbiterOf (node : Nat) : Option Nat :=
  if 5000 ≤ node ∧ node < 5088 then some (node - 5000) else if node = 5100 then some 90 else if node = 5101 then some 91 else none
/-- A parked request is answered AWAY (R327): the packet it came by, or its engine's node. -/
def State.parkedOne (s : State) (node : Nat) (q : ArbReq) : State :=
  match q.work with
  | .mem p _ => s.answerAway { p with dst := node }
  | _ => (s.count 0x527008).send (s.reply node q.node (s.node q.node).inc (.away 5 0 0))
/-- The arbiter of a unit that leaves service answers its parked requests and empties its queue (R327, R428). -/
def State.parkedAway (s : State) (node : Nat) : State :=
  match arbiterOf node with
  | none => s
  | some a =>
    let q := (s.arb a).queue
    q.foldl (fun s r => s.parkedOne node r) (s.modArb a fun x => { x with queue := [] })
/-- The unit behind a stuck request is reset: a node's unit, or an engine (R325, R326). -/
def State.resetHolder (s : State) (arb : Nat) (q : ArbReq) : State :=
  if engineReq arb q.requester then s.engineReset arb q.requester else (s.parkedAway q.node).resetUnit q.node 5
/-- The holder of an arbiter that has made no progress for the watchdog time. -/
def State.stuck (s : State) (arb : Nat) : Option ArbReq :=
  match (s.arb arb).holder with
  | some (q, t) => if t + us (s.setting 0x250007 10) ≤ s.time.tick then some q else none
  | none => none
/-- The watchdog fires: the stuck holder loses the grant and the lock, and its unit is reset (R325). -/
def State.watchdog (s : State) (arb : Nat) : State :=
  match s.stuck arb with
  | none => s
  | some q =>
    let s := (s.modArb arb fun x => { x with holder := none, lock := none }).resetHolder arb q
    ((s.count 0x527005).count 0x512002).record 0x0503 0 (leBytes 1 arb ++ leBytes 1 q.requester ++ leBytes 2 q.node)
      (unit := if arb < 88 then 5000 + arb else 0xFFFF) (sub := q.requester)
/-- ARBITER_WATCHDOG (R325). -/
def execArbiterWatchdog (arb : Fin 93) (s : State) : Res := .next (s.watchdog arb)

/-! ## Arrival (R321) -/

/-- The requester owns the arbiter's locked sequence. -/
def Arbiter.ownedBy (x : Arbiter) (q : ArbReq) : Bool :=
  match x.lock with | some l => decide (l.1 = q.requester ∧ l.2.1 = q.node) | none => false
/-- An entry of the queue is free for the request: one of the 32 is kept for the owner of a locked sequence. -/
def Arbiter.room (x : Arbiter) (q : ArbReq) : Bool := decide (x.queue.length < 31) || (x.ownedBy q && decide (x.queue.length < 32))
/-- Nothing waits, and no other's locked sequence is open: a request is granted on arrival. -/
def Arbiter.idle (x : Arbiter) (q : ArbReq) : Bool := x.queue.isEmpty && (x.lock.isNone || x.ownedBy q)
/-- The owner's next locked request is progress (R325). -/
def Arbiter.progress (x : Arbiter) (q : ArbReq) (now : Nat) : Arbiter :=
  if x.ownedBy q ∧ q.lock then { x with holder := x.holder.map fun h => (h.1, now) } else x
/-- A request takes an entry. -/
def State.park (s : State) (arb : Nat) (q : ArbReq) : State :=
  s.modArb arb fun x => { x.progress q s.time.tick with queue := x.queue ++ [q] }
/-- The watchdog acts before a locked request of the holder that comes too late; that request is then an unlocked one (Table 10.9). -/
def State.late (s : State) (arb : Nat) (q : ArbReq) : Bool := (s.stuck arb).isSome && (s.arb arb).ownedBy q && q.lock
/-- A request arrives: granted at once, burst by burst, or parked; none when the arbiter takes no further request. -/
def State.reqArrive (s : State) (arb : Nat) (q : ArbReq) : Option State :=
  if s.late arb q then some ((s.watchdog arb).park arb { q with lock := false })
  else if (s.arb arb).idle q then
    some ((List.range 4).foldl (fun s _ => match s.arbPick arb with | some r => s.grantReq arb r | none => s) (s.park arb q))
  else if (s.arb arb).room q then some (s.park arb q)
  else none
/-- MEMREQ_RECEIVE: answered AWAY (R327), discarded as malformed, answered RANGE (R315), or brought to the endpoint's arbiter; with the
arbiter's queue full it waits in the mesh (R321). -/
def execMemreqReceive (node : NodeId) (p : Packet) (s : State) : Res :=
  match p.body with
  | .memreq m =>
    let t := s.take p
    if !s.inOrder p then .next s
    else if s.isAway node then .next (t.answerAway p)
    else if memMalformed m then .next (t.count 0x526008)
    else if node.val < 5000 ∨ 5088 ≤ node.val ∨ !memInRange m node then
      .next (t.send (t.reply node p.src p.sinc (.memrsp { status := 1, tierB := m.tierB, tag := m.tag, wm1 := m.wm1, data := [] })))
    else .next ((t.reqArrive (node.val - 5000) { requester := requesterOf p.src, node := p.src, burst := m.waddr / 16, lock := m.lock,
                                                  since := s.time.tick, work := .mem p [] }).getD s)
  | _ => .next (s.take p)
/-- A node is a requester of an arbiter under that number (Table 10.8). -/
def requesterOk (arb r node : Nat) : Bool := if arb < 88 then requesterOf node == r && (r != 20 || node == 5000 + arb) else decide (r < requesters arb)
/-- ARBITER_PARK (R321): a request of an engine that is not granted takes an entry. -/
def execArbiterPark (arb : Fin 93) (requester : Fin 21) (node : NodeId) (burst : Nat) (lock : Bool) (s : State) : Res :=
  let q : ArbReq := { requester := requester, node := node, burst := burst, lock := lock, since := s.time.tick }
  if !requesterOk arb requester node then .next s
  else if s.late arb q then .next ((s.watchdog arb).park arb { q with lock := false })
  else if (s.arb arb).room q then .next (s.park arb q)
  else .next s

/-! ## Patrol (R311) -/

/-- The k-th read of an endpoint's round is due: the reads are spread evenly over the interval. -/
def State.patrolDue (s : State) (node k : Nat) : Bool :=
  let n := if node < 5064 then 504000000000 / 64 / 64 else 1536000000000 / 64 / 24
  decide (k = Tab.get 0 s.mem.patrol node ∧
    Tab.get 0 s.mem.patrolStart node + k * sec (s.setting 0x25000A 86400) / n ≤ s.time.tick) &&
    !((s.arb (node - 5000)).queue.any fun q => q.requester == 20)
/-- PATROL_READ (R311): the next burst of the round, at its point in the interval, as the maintenance requester. -/
def execPatrolRead (node : NodeId) (offset : Nat) (s : State) : Res :=
  if node.val < 5000 ∨ 5088 ≤ node.val ∨ !s.patrolDue node offset then .next s
  else .next ((s.reqArrive (node.val - 5000) { requester := 20, node := node, burst := (endpointBurst node offset).2 / 64, lock := false,
                                               since := s.time.tick, work := .patrol offset }).getD s)
/-- CLEAR_ARBITER_COUNTERS (R324): 1 clears every counter of the selected arbiter; any other value is refused. -/
def execClearArbiterCounters (value : Byte) (s : State) : Res :=
  if value = 1 then .next (s.modArb (s.setting 0x251001 0) fun x => { x with stats := [] }) else .next s

end Sys2Proof.Machine
end

