-- ==== Sys2Proof/Machine/Serving.lean ====
section
/-! DEFINITION. The serving engine (08): records, descriptors, admission, allocation, commits, and its boundary steps. -/

namespace Sys2Proof.Machine

/-! ## Requests, groups, settings -/

/-- Change the serving engine. -/
def State.modServing (s : State) (f : Serving → Serving) : State := { s with serving := f s.serving }
/-- Requests that hold a slot, in slot order. -/
def State.reqs (s : State) : List (Nat × Req) := s.serving.rslots.filterMap fun e => e.2.map fun r => (e.1, r)
/-- Request in a slot. -/
def State.req (s : State) (k : Nat) : Option Req := Tab.get none s.serving.rslots k
/-- Replace the request of a slot. -/
def State.putReq (s : State) (k : Nat) (r : Option Req) : State :=
  s.modServing fun v => { v with rslots := Tab.set none v.rslots k r }
/-- Serving node number (Table 10.3). -/
def servingNode : Nat := 5106
/-- STEPP. -/
def State.stepp (s : State) : Nat := s.setting 0x302002 0
/-- LEAD. -/
def State.lead (s : State) : Nat := s.setting 0x302005 2
/-- Groups of this admitting module (R261). -/
def State.poolGroups (s : State) : Nat := s.setting 0x302006 0 + s.setting 0x302007 0
/-- Groups not reserved (R262). -/
def State.freeGroups (s : State) : Nat := s.poolGroups - (s.reqs.map fun e => e.2.ng).sum
/-- Group numbers assigned. -/
def State.usedGroups (s : State) : List Nat := s.reqs.flatMap fun e => e.2.groups.map fun g => g.2 - 1
/-- NG of a descriptor (R247). -/
def groupsWanted (d : Desc) : Nat := ceilDiv (d.plen + d.maxlen + 4) 64
/-- The retiring epoch while a grace window is open (R269). -/
def State.retiring (s : State) : Option Nat :=
  if s.weights.sw.graceOpen then
    some (if s.weights.verB.epoch = s.weights.sw.epoch then s.weights.verA.epoch else s.weights.verB.epoch)
  else none
/-- Bank of the version that the switch brings in. -/
def State.newBank (s : State) : Bool := s.weights.verB.epoch = s.weights.sw.epoch

/-! ## Records (R233 to R239, R243) -/

/-- Offset of the completion ring. -/
def State.ringOut (s : State) : Nat := s.setting 0x300005 8388672
/-- Records for which the completion ring has room (R235). -/
def State.recRoom (s : State) : Nat := 1048576 - (s.serving.cprod - s.serving.chead)
/-- Bytes of record n (Table 8.4). -/
def recBytes (r : Rec) (n beat : Nat) : List Byte :=
  leBytes 8 r.tag ++ leBytes 1 r.status ++ leBytes 1 ((if n / 1048576 % 2 = 0 then 128 else 0) + r.toks.length) ++ leBytes 2 r.reason ++
  leBytes 2 r.rslot ++ [0, 0] ++ leBytes 8 beat ++ leBytes 4 r.pos ++ leBytes 4 r.aux0 ++ leBytes 4 r.aux1 ++
  slice (bytesOf r.toks) 0 20 ++ leBytes 4 r.generated ++ [0, 0, 0, 0]
/-- Write one record: one burst, CPROD, the vector it asks for (R239). -/
def State.putRec (s : State) (r : Rec) : State :=
  let n := s.serving.cprod
  let s := s.tierWrite true (s.ringOut + n % 1048576 * 64) (recBytes r n s.time.beat) servingNode
  s.modServing fun v =>
    { v with cprod := n + 1, vecs := v.vecs ||| (match r.vec with | some k => BitVec.ofNat 16 (2 ^ k) | none => 0) }
/-- Counters of a record (Table 8.16). -/
def State.countRec (s : State) (r : Rec) : State :=
  let s := s.count 0x530005 r.toks.length
  if r.status = 1 then s.count 0x530002
  else if r.status = 2 then s.count 0x530003
  else if 0x10 ≤ r.status ∧ r.status ≤ 0x13 then s.count 0x530004
  else if r.status = 0x30 then s.count 0x53000A
  else if r.status = 0x40 then s.count 0x53000B
  else s
/-- A record of steps 1 and 2, or of R267: written, or held behind those already held (R238). -/
def State.emitRec (s : State) (r : Rec) : State :=
  let s := s.countRec r
  if s.serving.held = [] ∧ 0 < s.recRoom then s.putRec r else s.modServing fun v => { v with held := v.held ++ [r] }
/-- Held records are written first, as far as room allows; `fuel` is their number. -/
def State.flushHeld : Nat → State → State
  | 0, s => s
  | f + 1, s =>
    match s.serving.held with
    | [] => s
    | r :: t => if 0 < s.recRoom then State.flushHeld f ((s.putRec r).modServing fun v => { v with held := t }) else s
/-- Interrupt vector of a record kind: 0 admission, 1 token, 2 termination (R239, Table 8.5). -/
def recVec (d : Desc) (kind : Nat) : Option Nat :=
  if (kind = 0 ∧ d.nadm) ∨ (kind = 1 ∧ d.ntok) ∨ (kind = 2 ∧ d.nterm) then some d.msixv else none

/-! ## Ending a request (R262, R264, R265) -/

/-- The serving engine reads bytes of a tier: what the burst reads change (R305); the bytes are those of the tier. -/
def State.engineRead (s : State) (b : Bool) (a n : Nat) : State := (s.tierRead b a n servingNode).2
/-- REFS of an adapter slot changes (R299). -/
def State.adapterRef (s : State) (slot : Nat) (up : Bool) : State :=
  let s := s.engineRead false (slot * 16777216) 64
  let h := s.slotHdr slot
  s.putSlotHdr slot { h with refs := if up then h.refs + 1 else h.refs - 1 }
/-- Handle of an adapter slot (Table 5.6). -/
def State.handleOf (s : State) (slot : Nat) : Nat := slot * 65536 + (s.slotHdr slot).gen
/-- Remember a terminated tag: the last 4,096 (Table 8.11). -/
def remember (l : List (Nat × Nat × Nat × Nat)) (e : Nat × Nat × Nat × Nat) : List (Nat × Nat × Nat × Nat) :=
  (e :: l.filter fun x => x.1 ≠ e.1).take 4096
/-- End a request: its slot, groups and adapter reference are free, END is announced, the tag is remembered. -/
def State.endReq (s : State) (k : Nat) (r : Req) (status : Nat) : State :=
  let s := match r.aslot with | some a => s.adapterRef a false | none => s
  (s.putReq k none).modServing fun v =>
    { v with groupsFreed := v.groupsFreed + r.ng, slotsFreed := v.slotsFreed + 1,
             ann := v.ann ++ [{ kind := 3, adm := s.setting 0x30200B 0, rslot := k, rgen := r.rgen, x := 0, y := 0 }],
             remembered := remember v.remembered (r.d.tag, status, r.gk, k) }
/-- A termination record without tokens. -/
def endRec (k : Nat) (r : Req) (status reason : Nat) : Rec :=
  { tag := r.d.tag, status := status, reason := reason, rslot := k, generated := r.gk, vec := recVec r.d 2 }
/-- End a request in steps 1 and 2. -/
def State.failReq (s : State) (k : Nat) (r : Req) (status reason : Nat) : State :=
  (s.emitRec (endRec k r status reason)).endReq k r status

/-! ## Step 1: commits (R256 to R260) -/

/-- A token ends the request (R258). -/
def State.stopsAt (s : State) (d : Desc) (t : Word) : Bool :=
  t.toNat ≠ 0xFFFFFFFF && (d.stops.contains t || t.toNat == s.setting 0x302008 0xFFFFFFFF)
/-- Commit tokens at a position (R258): once set, DONE stands, whatever the MAXLEN cut removes (log 31). -/
def State.commitToks (s : State) (k : Nat) (r : Req) (a pos : Nat) (toks : List Word) : State :=
  let n0 := a + 1
  let stop := (toks.take n0).findIdx? fun t => s.stopsAt r.d t
  let n1 := match stop with | some i => i + 1 | none => n0
  let full := decide (r.d.maxlen ≤ r.gk + n1)
  let n := if full then min n1 (r.d.maxlen - r.gk) else n1
  let done := stop.isSome
  let status := if done then 0x20 else if full then 0x21 else 0x03
  let ts := toks.take n
  let r := { r with gk := r.gk + n, l := pos + n - 1, x := ts.getD (n - 1) r.x, st := .generating, losses := 0 }
  let s := s.emitRec { tag := r.d.tag, status := status, rslot := k, pos := pos, aux0 := a, toks := ts, generated := r.gk,
                       vec := recVec r.d (if status = 3 then 1 else 2) }
  if status = 3 then s.putReq k (some r) else s.endReq k r status
/-- Oldest work of a kind in flight. -/
def Req.oldest (r : Req) (chunk : Bool) : Option Flight := r.flight.find? fun f => f.chunk = chunk
/-- The return is one of live work (R256). -/
def retFits (e : ReturnEntry) (r : Req) : Bool :=
  match r.st with
  | .suspended _ => false
  | _ =>
    r.rgen == e.rgen &&
    match r.oldest (e.kind == 1) with
    | some f => f.step == e.step && (e.kind == 2 || (e.kind == 1 && e.pos + 1 == f.first + f.count))
    | none => false
/-- Work leaves flight. -/
def Req.land (r : Req) (f : Flight) : Req := { r with flight := r.flight.erase f }
/-- One return (R256, R258, R260). -/
def State.takeReturn (s : State) (e : ReturnEntry) : State :=
  match s.req e.rslot with
  | none => s.count 0x53000D
  | some r =>
    if !retFits e r then s.count 0x53000D
    else match r.oldest (e.kind == 1) with
      | none => s
      | some f =>
        let r := r.land f
        if e.kind = 2 then s.commitToks e.rslot r e.a e.pos e.toks
        else
          let r := { r with committed := e.pos + 1, l := e.pos + 1, losses := 0 }
          if f.last then s.commitToks e.rslot r 0 r.d.plen e.toks else s.putReq e.rslot (some r)
/-- The step timeout in beats (R257). -/
def State.stepLimit (s : State) : Nat :=
  let t := s.setting 0x30000B 0
  if t = 0 then 4 * s.stepp else t
/-- Oldest work whose return has not come in time. -/
def State.lateWork (s : State) (r : Req) : Option Flight := r.flight.find? fun f => decide (f.entry + s.stepLimit < s.time.beat)
/-- Lost work (R257): it and what is in flight behind it is re-issued from committed state; after the limit the request fails. -/
def State.loseWork (s : State) (k : Nat) (r : Req) (f : Flight) : State :=
  let s := s.count 0x53000C
  let r := { r with losses := r.losses + 1, flight := r.flight.takeWhile (fun g => g ≠ f),
                    next := if f.chunk then f.first else r.next, expl := r.expl || !f.chunk }
  if 3 ≤ r.losses then s.failReq k r 0x40 4 else s.putReq k (some r)
/-- Step timeout of the request in a slot. -/
def State.stepTimeout (s : State) (k : Nat) : State :=
  match s.req k with
  | none => s
  | some r =>
    match r.st with
    | .suspended _ => s
    | _ => match s.lateWork r with
      | some f => s.loseWork k r f
      | none => s
/-- STEP_TIMEOUT (R257). -/
def execStepTimeout (rslot : Fin 16384) (s : State) : Res := .next (s.stepTimeout rslot)
/-- Suspension timeout of the request in a slot (R268). -/
def State.suspTimeout (s : State) (k : Nat) : State :=
  match s.req k with
  | some r =>
    match r.st with
    | .suspended _ =>
      if r.suspendedAt + s.setting 0x30000D 125000 < s.time.beat then s.failReq k r 0x30 2 else s
    | _ => s
  | none => s
/-- SUSPENSION_TIMEOUT (R268). -/
def execSuspensionTimeout (rslot : Fin 16384) (s : State) : Res := .next (s.suspTimeout rslot)
/-- Row of frames of a group: tier and group row number (R261). -/
def State.groupRow (s : State) (adm g : Nat) : Bool × Nat :=
  let ga := s.setting 0x302006 0
  if g < ga then (false, adm * ga + g) else (true, adm * s.setting 0x302007 0 + (g - ga))
/-- Bytes of a KV page of the compiled model (R128). -/
def pageBytes : Nat := 2 * (Config.kvBlocks % 4 + 1) * (128 + 64 * (if Config.kvInt4 then 32 else 64))
/-- The page lists of a request hold the frame of an address (R132). -/
def State.holdsFrame (s : State) (r : Req) (b : Bool) (a : Nat) : Bool :=
  let row := (a - s.kvBase b) / pageBytes / s.setting 0x30200A 0
  r.groups.any fun g => s.groupRow (s.setting 0x30200B 0) (g.2 - 1) = (b, row)
/-- Requests that fail for memory or adapter faults of the ended beat (Table 12.3, R135, Table 8.12): a KV page error every request
that holds the frame; an error in module-private data the request it belongs to; an adapter fault every request of this module that
holds the faulting handle or slot, where R135 says "the request" (DESIGN CHOICE, log 122). -/
def State.failFaults (s : State) : State :=
  let kv := s.serving.kvErr
  let ad := s.serving.faultErr
  let s := s.modServing fun v => { v with kvErr := [], faultErr := [] }
  s.reqs.foldl (fun s e =>
    if kv.any fun x => s.holdsFrame e.2 x.1 x.2 then s.failReq e.1 e.2 0x40 1
    else if ad.contains (e.1, 2) then s.failReq e.1 e.2 0x40 2
    else if e.2.aslot.isSome ∧ ad.any (fun x => if x.2 = 3 then e.2.aslot = some x.1 else x.2 = 1 && e.2.handle == x.1) then
      s.failReq e.1 e.2 0x40 3
    else s) s
/-- CHEAD as the host wrote it (R235). -/
def State.readChead (s : State) : State :=
  let s := s.engineRead true (s.setting 0x300002 0 + 16) 8
  let v := leNat (s.tierBytes true (s.setting 0x300002 0 + 16) 8)
  if v < s.serving.chead ∨ s.serving.cprod < v then s.count 0x53000E else s.modServing fun x => { x with chead := v }
/-- After a WARM reset (R267): every PREFILL and GENERATING request is SUSPENDED, in slot order. -/
def State.suspendAll (s : State) : State :=
  if !s.serving.suspendDue then s
  else
    let s := (s.modServing fun v => { v with suspendDue := false }).modNode servingNode fun u => { u with inc := nextInc u.inc }
    s.reqs.foldl (fun s e =>
      match e.2.st with
      | .suspended _ => s
      | st =>
        let r := { e.2 with st := .suspended (decide (st = .generating)), flight := [], suspendedAt := s.time.beat }
        (s.putReq e.1 (some r)).emitRec (endRec e.1 r 0x42 0)) s
/-- Step 1 of the boundary cycle (R231). -/
def State.servCommit (s : State) (rs : List ReturnEntry) : State :=
  let s := s.readChead
  let s := if s.serving.held = [] then s else s.count 0x53000F
  let s := State.flushHeld s.serving.held.length s
  let s := s.suspendAll.failFaults
  let s := rs.foldl (fun s e => s.takeReturn e) s
  (s.reqs.map fun e => e.1).foldl (fun s k => (s.stepTimeout k).suspTimeout k) s

/-! ## Step 3: descriptors (R234, R240 to R246, R250, R251, R268) -/

/-- Offset of the submission ring. -/
def State.ringIn (s : State) : Nat := s.setting 0x300003 64
/-- Bytes of descriptor n. -/
def State.descBytes (s : State) (n : Nat) : List Byte := s.tierBytes true (s.ringIn + n % 65536 * 128) 128
/-- Descriptor n is valid (R234). -/
def State.descValid (s : State) (n : Nat) : Bool := bit (field (s.descBytes n) 9 1) 7 == decide (n / 65536 % 2 = 0)
/-- Fields of a SUBMIT (Table 8.3). -/
def decDesc (b : List Byte) : Desc :=
  let c := field b 9 1
  let n := field b 10 1
  { tag := field b 0 8, cls := bits c 5 4, pin := bit c 3, spec := bits c 2 0, nterm := bit n 2, ntok := bit n 1, nadm := bit n 0,
    msixv := field b 11 1 % 16, quota := field b 12 2, epoch := field b 16 4, adapter := field b 20 4, deadline := field b 24 4,
    maxlen := field b 28 4, poff := field b 32 8, plen := field b 40 4, topk := field b 44 1,
    temp := BitVec.ofNat 32 (field b 48 4), topp := BitVec.ofNat 32 (field b 52 4), seed := BitVec.ofNat 64 (field b 56 8),
    stops := wordsOf (slice b 64 16) }
/-- A tag in use: a request that holds a slot or is deferred. -/
def State.tagUsed (s : State) (t : Nat) : Bool :=
  s.reqs.any (fun e => e.2.d.tag = t) || s.serving.deferred.any fun e => e.d.tag = t
/-- Reserved parts of a SUBMIT are not 0 (R16). -/
def submitReserved (b : List Byte) : Bool :=
  bit (field b 9 1) 6 || decide (field b 10 1 / 8 ≠ 0 ∨ field b 11 1 / 16 ≠ 0) || !zeros b 14 2 || !zeros b 45 3 || !zeros b 80 44
/-- τ is zero or positive and finite. -/
def tempOk (w : Word) : Bool :=
  match f32val w with
  | .fin s m _ => !s || m == 0
  | _ => false
/-- P is greater than 0 and at most 1. -/
def toppOk (w : Word) : Bool := decide (0 < w.toNat ∧ w.toNat ≤ 0x3F800000)
/-- Bytes of the window that a SUBMIT's prompt takes; none when it lies outside (R246). -/
def promptSpan (d : Desc) : Nat := if 64000000000 < d.poff + 4 * d.plen then 0 else 4 * d.plen
/-- Prompt words in the window. -/
def State.promptWords (s : State) (d : Desc) : List Word := wordsOf (s.tierBytes true d.poff (4 * d.plen))
/-- First failing check of the form, in the order of its reasons (R246 step 1). -/
def State.formReason (s : State) (b : List Byte) (d : Desc) : Option Nat :=
  if submitReserved b then some 2
  else if 4 < d.spec ∨ 1023 < d.quota then some 4
  else if d.plen = 0 ∨ d.maxlen = 0 ∨ 131072 < d.plen + d.maxlen then some 5
  else if d.poff % 4 ≠ 0 ∨ 64000000000 < d.poff + 4 * d.plen then some 6
  else if d.topk = 0 ∨ 64 < d.topk ∨ !tempOk d.temp ∨ !toppOk d.topp then some 7
  else if d.tag = 0 ∨ s.tagUsed d.tag then some 8
  else if (s.promptWords d).any fun t => decide (s.setting 0x30200C 0 ≤ t.toNat) then some 11
  else none
/-- The epoch and adapter check (R269). -/
def State.epochReason (s : State) (d : Desc) : Option Nat :=
  if d.epoch ≠ 0 ∧ d.epoch ≠ s.weights.current then (if s.retiring = some d.epoch then some 2 else some 1)
  else if d.adapter ≠ 0 ∧ Tab.get 0 s.weights.idMap d.adapter = 0 then some 3
  else none
/-- Live requests of a quota: deferred, admitted, suspended. -/
def State.quotaDescs (s : State) (q : Nat) : List Desc :=
  (s.reqs.map (fun e => e.2.d) ++ s.serving.deferred.map fun e => e.d).filter fun d => d.quota = q
/-- The quota check (R246 step 4). -/
def State.quotaReason (s : State) (d : Desc) : Option Nat :=
  let l := s.quotaDescs d.quota
  if s.setting (entryKey 0x3010 2 d.quota) 65536 ≤ l.length then some 1
  else if s.setting (entryKey 0x3010 3 d.quota) 0xFFFFFFFF < (l.map groupsWanted).sum + groupsWanted d then some 2
  else none
/-- A refusal of a SUBMIT. -/
def refusal (d : Desc) (status reason : Nat) (aux1 : Nat := 0) : Rec :=
  { tag := d.tag, status := status, reason := reason, aux1 := aux1, vec := recVec d 0 }
/-- Insert into the deferral queue: by CLASS, then sampling order (R247). -/
def enqueue (r : Deferred) : List Deferred → List Deferred
  | [] => [r]
  | x :: t => if r.d.cls < x.d.cls then r :: x :: t else x :: enqueue r t
/-- A SUBMIT (R246): a refusal, or a place in the deferral queue. -/
def State.submit (s : State) (b : List Byte) : State × Option Rec :=
  let d := decDesc b
  let s := s.engineRead true d.poff (promptSpan d)
  match s.formReason b d with
  | some n => (s, some (refusal d 0x12 n))
  | none =>
    if s.serving.state = 2 then (s, some (refusal d 0x10 3 0xFFFFFFFF))
    else match s.epochReason d with
      | some n => (s, some (refusal d 0x13 n))
      | none =>
        match s.quotaReason d with
        | some n => (s, some (refusal d 0x11 n))
        | none =>
          if 65536 ≤ s.serving.deferred.length then (s, some (refusal d 0x10 1 0xFFFFFFFF))
          else (s.modServing fun v =>
            { v with deferred := enqueue { d := d, sampled := s.time.beat, seq := v.seqNo } v.deferred, seqNo := v.seqNo + 1 }, none)
/-- A refusal that answers an ABORT, RESUME or CANCEL: it refers to that descriptor only (Table 8.5). -/
def refuseTarget (tag reason : Nat) : Rec := { tag := tag, status := 0x12, reason := reason }
/-- End a target with ABORTED, reason 1. -/
def State.abortReq (s : State) (k : Nat) (r : Req) : State × Option Rec := (s.endReq k r 0x30, some (endRec k r 0x30 1))
/-- RESUME of a suspended request (R268). -/
def State.resume (s : State) (k : Nat) (r : Req) (gen : Bool) : State × Option Rec :=
  if r.d.pin ∧ r.epoch ≠ s.weights.current ∧ s.retiring ≠ some r.epoch then (s.endReq k r 0x41, some (endRec k r 0x41 0))
  else
    let r := if gen then { r with st := .generating, expl := true, flight := [] }
      else { r with st := .prefill, next := r.committed, flight := [] }
    (s.putReq k (some r), some { tag := r.d.tag, status := 0x04, rslot := k, generated := r.gk, vec := recVec r.d 0 })
/-- The answer to an ABORT after DONE or DONE_LENGTH is a single one: the tag is remembered no more (R244; DEDUCED, log 131). -/
def State.abortLate (s : State) (tag gk k : Nat) : State × Option Rec :=
  (s.modServing fun v => { v with remembered := v.remembered.filter fun e => e.1 ≠ tag },
   some { tag := tag, status := 0x31, rslot := k, generated := gk })
/-- ABORT, RESUME or CANCEL (R250, R264, R265, R268). -/
def State.target (s : State) (op : Nat) (b : List Byte) : State × Option Rec :=
  let tag := field b 0 8
  if field b 9 1 % 128 ≠ 0 ∨ !zeros b 10 114 then (s, some (refuseTarget tag 2))
  else match s.reqs.find? fun e => e.2.d.tag = tag with
    | some (k, r) =>
      match r.st, op with
      | _, 2 => s.abortReq k r
      | .suspended g, 3 => s.resume k r g
      | .suspended _, _ => s.abortReq k r
      | _, _ => (s, some (refuseTarget tag 10))
    | none =>
      match s.serving.deferred.find? fun e => e.d.tag = tag with
      | some e =>
        if op = 2 then
          (s.modServing fun v =>
            { v with deferred := v.deferred.erase e, remembered := remember v.remembered (tag, 0x30, 0, 0) },
           some { tag := tag, status := 0x30, reason := 1, vec := recVec e.d 2 })
        else (s, some (refuseTarget tag 10))
      | none =>
        match s.serving.remembered.find? fun e => e.1 = tag with
        | some (_, st, gk, k) =>
          if op ≠ 2 then (s, some (refuseTarget tag 9))
          else if st = 0x20 ∨ st = 0x21 then s.abortLate tag gk k
          else (s, some (refuseTarget tag 12))
        | none => (s, some (refuseTarget tag 9))
/-- Act on a descriptor whose check holds. -/
def State.actOn (s : State) (b : List Byte) : State × Option Rec :=
  let op := field b 8 1
  if op = 1 then s.submit b
  else if 2 ≤ op ∧ op ≤ 4 then s.target op b
  else (s, some (refuseTarget (field b 0 8) 1))
/-- DCHK holds. -/
def dchkOk (b : List Byte) : Bool := decide (crc32c (b.take 124) = field b 124 4)
/-- Consume a descriptor, with its record when it has one; the step stops when the ring has no room for the record (R238). -/
def State.consume (s : State) (q : State × Option Rec) : Option State :=
  let done := fun (t : State) => (t.count 0x530001).modServing fun v => { v with scons := v.scons + 1, sblock := none }
  match q.2 with
  | none => some (done q.1)
  | some r => if 0 < s.recRoom then some ((done q.1).emitRec r) else none
/-- The next descriptor's check fails past the descriptor timeout (R241). -/
def State.descLate (s : State) : Bool :=
  match s.serving.sblock with
  | some b => decide (b + s.setting 0x30000A 4 ≤ s.time.beat)
  | none => false
/-- The engine reads the next descriptor. -/
def State.readDesc (s : State) : State := s.engineRead true (s.ringIn + s.serving.scons % 65536 * 128) 128
/-- One descriptor that has been read; none when sampling stops. -/
def State.sampleOne (s : State) : Option State :=
  let n := s.serving.scons
  let b := s.descBytes n
  if !s.descValid n then none
  else if dchkOk b then s.consume (s.actOn b)
  else if s.descLate then s.consume (s, some (refuseTarget (field b 0 8) 3))
  else none
/-- Sampling stops at the next descriptor: SBLOCK holds while its PHASE is valid and its check fails (R241). -/
def State.sampleStop (s : State) : State :=
  let n := s.serving.scons
  let blocked := s.descValid n && !dchkOk (s.descBytes n)
  s.modServing fun v => { v with sblock := if blocked then some (v.sblock.getD s.time.beat) else none }
/-- Descriptors up to the sample limit (R251). -/
def State.sampleGo : Nat → State → State
  | 0, s => if s.descValid s.serving.scons then s.count 0x530010 else s
  | f + 1, s =>
    let s := s.readDesc
    match s.sampleOne with
    | some t => State.sampleGo f t
    | none => s.sampleStop
/-- Step 3. -/
def State.servSample (s : State) : State :=
  if s.serving.state = 0 ∨ s.serving.held ≠ [] then s else State.sampleGo (s.setting 0x300007 4096) s

/-! ## Step 4: admission (R247 to R249) -/

/-- Slots that no request holds. -/
def State.freeSlots (s : State) : List Nat :=
  let used := s.reqs.map fun e => e.1
  (List.range 16384).filter fun k => k ∉ used
/-- Rate of R249 applied to a shortage. -/
def rateBeats (d : Int) (f : Rat) : Nat :=
  if d ≤ 0 then 0 else if f < 1 / 65536 then 0xFFFFFFFF else min (Rat.ceil (d / f)).toNat 0xFFFFFFFF
/-- Estimate of a deferred request (R249). -/
def State.estimate (s : State) (r : Deferred) : Nat :=
  let ahead := s.serving.deferred.takeWhile fun x => x.seq ≠ r.seq
  let dg : Int := ((ahead ++ [r]).map fun x => groupsWanted x.d).sum - (s.freeGroups : Int)
  let ds : Int := 1 + ahead.length - (16384 - s.reqs.length : Int)
  max (rateBeats dg s.serving.fg) (rateBeats ds s.serving.fs)
/-- Admit a deferred request (R248): the prompt is copied. The spec does not say which free slot is taken: it is a free choice (log 32). -/
def State.admitOne (s : State) (r : Deferred) : State :=
  let s := s.engineRead true r.d.poff (promptSpan r.d)
  let free := s.freeSlots
  let k := free.getD (Config.freeNat s.freeCtr % free.length) 0
  let s := { s with freeCtr := s.freeCtr + 1 }
  let gen := (Tab.get 0 s.serving.rgens k + 1) % 65536
  let slot := if r.d.adapter = 0 then none else some (Tab.get 0 s.weights.idMap r.d.adapter - 1)
  let s := match slot with | some a => s.adapterRef a true | none => s
  let q : Req := { d := r.d, rgen := gen, ng := groupsWanted r.d, admNo := s.serving.admNo + 1, epoch := s.weights.current,
                   bankB := s.weights.ptrB, aslot := slot, handle := (match slot with | some a => s.handleOf a | none => 0),
                   prompt := s.promptWords r.d }
  let s := s.putReq k (some q)
  let s := s.modServing fun v =>
    { v with deferred := v.deferred.erase r, admNo := v.admNo + 1, rgens := Tab.set 0 v.rgens k gen,
             ann := v.ann ++ [{ kind := 1, adm := s.setting 0x30200B 0, rslot := k, rgen := gen, x := r.d.adapter, y := b2n q.bankB }] }
  s.emitRec { tag := r.d.tag, status := 0x01, rslot := k, vec := recVec r.d 0 }
/-- A deferred request leaves with a refusal. -/
def State.refuseDeferred (s : State) (r : Deferred) (status reason aux1 : Nat) : State :=
  (s.modServing fun v => { v with deferred := v.deferred.erase r }).emitRec (refusal r.d status reason aux1)
/-- Deferred requests in queue order (R247); `go` turns false at the first that must wait. Without room the step stops (R238). -/
def State.admitGo : List Deferred → State → State
  | [], s => s
  | r :: t, s =>
    if s.recRoom = 0 then s
    else if r.d.deadline ≠ 0 ∧ r.d.deadline < s.time.beat - r.sampled then
      State.admitGo t (s.refuseDeferred r 0x10 2 (s.estimate r))
    else match s.epochReason r.d with
      | some n => State.admitGo t (s.refuseDeferred r 0x13 n 0)
      | none =>
        if s.reqs.length < 16384 ∧ groupsWanted r.d ≤ s.freeGroups then State.admitGo t (s.admitOne r) else s
/-- DEFER is recorded for a deferred request. -/
def State.defer (s : State) (r : Deferred) (p e : Nat) : State :=
  (s.modServing fun v => { v with deferred := v.deferred.map fun x => if x.seq = r.seq then { x with answered := true } else x }).emitRec
    { tag := r.d.tag, status := 0x02, aux0 := p, aux1 := e, vec := recVec r.d 0 }
/-- Deferred requests that have had no answer: those sampled at this boundary, and those for whose answer an earlier boundary had no
room (R247, R238). -/
def State.deferGo : List Deferred → State → State
  | [], s => s
  | r :: t, s =>
    if s.recRoom = 0 then s
    else
      let e := s.estimate r
      let p := (s.serving.deferred.takeWhile fun x => x.seq ≠ r.seq).length + 1
      if r.d.deadline ≠ 0 ∧ r.d.deadline < e then State.deferGo t (s.refuseDeferred r 0x10 2 e)
      else State.deferGo t (s.defer r p e)
/-- Moving averages of R249. -/
def State.servRates (s : State) : State :=
  s.modServing fun v =>
    { v with fg := v.fg * 255 / 256 + (v.groupsFreed : Rat) / 256, fs := v.fs * 255 / 256 + (v.slotsFreed : Rat) / 256,
             groupsFreed := 0, slotsFreed := 0 }
/-- Step 4. -/
def State.servAdmit (s : State) : State :=
  if s.serving.state = 0 ∨ s.serving.held ≠ [] then s
  else
    let s := State.admitGo s.serving.deferred s
    State.deferGo (s.serving.deferred.filter fun r => !r.answered) s

/-! ## Step 5: allocation (R253, R254, R261, R262, R270, R290) -/

/-- Bank of a request's rows for an entry beat; none when it has no row (R270, R290). -/
def State.rowBank (s : State) (r : Req) (e : Nat) : Option Bool :=
  let w := s.weights.sw
  if w.st = 3 ∨ w.st = 4 then
    if r.d.pin ∧ r.epoch ≠ w.epoch then
      (if e + s.stepp ≤ w.beat + w.grace then some r.bankB else none)
    else if w.beat ≤ e then some s.newBank
    else some r.bankB
  else some r.bankB
/-- A row of a bank was allocated for entry e (R291). -/
def State.noteEntry (s : State) (bank : Bool) (e : Nat) : State :=
  { s with weights := 
    if bank then { s.weights with lastB := some (max e (s.weights.lastB.getD 0)) }
    else { s.weights with lastA := some (max e (s.weights.lastA.getD 0)) } }
/-- Page list of a group: PPG words (R129, R261). -/
def State.groupPages (s : State) (adm g : Nat) : List Word :=
  let ppg := s.setting 0x30200A 0
  let f := s.groupRow adm g
  (List.range ppg).map fun p => BitVec.ofNat 32 (b2n f.1 * 2 ^ 31 + (f.2 * ppg + p) % 2 ^ 31)
/-- Page list of a row at a position. -/
def State.rowPages (s : State) (adm : Nat) (groups : Tab Nat) (pos : Nat) : List Word :=
  (groups.filter fun e => decide (e.1 ≤ pos / 64)).flatMap fun e => s.groupPages adm (e.2 - 1)
/-- Assign every group index up to k that has none: the lowest free group, announced (R262). -/
def State.assignGroups (s : State) (slot : Nat) (r : Req) (k : Nat) : State × Req :=
  (List.range (k + 1)).foldl (fun (q : State × Req) i =>
    if Tab.get 0 q.2.groups i ≠ 0 then q
    else
      let used := q.1.usedGroups ++ q.2.groups.map fun g => g.2 - 1
      match (List.range q.1.poolGroups).find? fun g => g ∉ used with
      | none => q
      | some g =>
        let r := { q.2 with groups := Tab.set 0 q.2.groups i (g + 1) }
        (((q.1.putReq slot (some r)).modServing fun v =>
          { v with ann := v.ann ++ [{ kind := 2, adm := q.1.setting 0x30200B 0, rslot := slot, rgen := r.rgen, x := i, y := g }] }), r)) (s, r)
/-- The request's rows change bank: BANK is announced (R270). -/
def State.setBank (s : State) (slot : Nat) (r : Req) (bank : Bool) : State × Req :=
  if r.bankB = bank then (s, r)
  else
    let r := { r with bankB := bank, epoch := s.weights.sw.epoch }
    ((s.putReq slot (some r)).modServing fun v =>
      { v with ann := v.ann ++ [{ kind := 4, adm := s.setting 0x30200B 0, rslot := slot, rgen := r.rgen, x := 0, y := b2n bank }] }, r)
/-- Sampling parameters of a request (R254). -/
def Desc.sampling (d : Desc) : Sampling := { topk := d.topk, temp := d.temp, topp := d.topp, seed := d.seed }
/-- Rows of a generation step of a request (R253, R254, R257). -/
def State.stepRows (s : State) (bs slot : Nat) (r : Req) (g : Nat) : List BatchRow :=
  let adm := s.setting 0x30200B 0
  (List.range (g + 1)).map fun k =>
    { slot := bs, adm := adm, kind := if k = 0 then 2 else 3, bankB := r.bankB, last := false, expl := r.expl,
      k := if k = 0 then g else k, rslot := slot, rgen := r.rgen, step := r.stepNo, pos := if r.expl then r.l else 0,
      token := if r.expl then r.x else 0, sampling := r.d.sampling, pages := s.rowPages adm r.groups (r.l + g + (r.flight.map fun f => f.count).sum) }
/-- Generation (R253, first loop); the pair holds the rows left. -/
def State.allocGen (bs e : Nat) (q : State × Nat) (c : Nat × Req) : State × Nat :=
  let s := q.1
  let r := c.2
  let inFlight := (r.flight.filter fun f => !f.chunk).length
  if s.serving.held.any (fun x => x.rslot = c.1 && x.tag = r.d.tag) ∨ r.d.maxlen ≤ r.gk + 5 * inFlight then q
  else match s.rowBank r e with
    | none => q
    | some bank =>
      if q.2 = 0 then (s.count 0x530008, 0)
      else
        let g := if r.expl then 0 else min r.d.spec (min (s.setting 0x302009 4) (q.2 - 1))
        let a := s.setBank c.1 r bank
        let reach := r.l + (r.flight.map fun f => f.count).sum + g
        let b := a.1.assignGroups c.1 a.2 (reach / 64)
        let r := b.2
        let rows := b.1.stepRows bs c.1 r g
        let fl : Flight := { step := r.stepNo, chunk := false, entry := e, first := r.l, count := g + 1, last := false, bankB := bank }
        let s := b.1.putReq c.1 (some { r with flight := r.flight ++ [fl], stepNo := (r.stepNo + 1) % 65536, expl := false })
        (((s.count 0x530006 (g + 1)).modServing fun v => { v with batch := v.batch ++ rows }).noteEntry bank e, q.2 - (1 + g))
/-- Rows of a prompt chunk. -/
def State.chunkRows (s : State) (bs slot : Nat) (r : Req) (c : Nat) (last : Bool) : List BatchRow :=
  let adm := s.setting 0x30200B 0
  (List.range c).map fun i =>
    { slot := bs, adm := adm, kind := 1, bankB := r.bankB, last := last && i + 1 == c, expl := true, k := 0, rslot := slot,
      rgen := r.rgen, step := 0, pos := r.next + i, token := r.prompt.getD (r.next + i) 0, sampling := r.d.sampling,
      pages := s.rowPages adm r.groups (r.next + i) }
/-- Prefill (R253, second loop). -/
def State.allocPre (bs e : Nat) (q : State × Nat) (c : Nat × Req) : State × Nat :=
  let s := q.1
  let r := c.2
  if q.2 = 0 then q
  else match s.rowBank r e with
    | none => q
    | some bank =>
      let n := min q.2 (r.d.plen - r.next)
      let last := decide (r.next + n = r.d.plen)
      let a := s.setBank c.1 r bank
      let b := a.1.assignGroups c.1 a.2 ((r.next + n - 1) / 64)
      let r := b.2
      let rows := b.1.chunkRows bs c.1 r n last
      let fl : Flight := { step := 0, chunk := true, entry := e, first := r.next, count := n, last := last, bankB := bank }
      let s := b.1.putReq c.1 (some { r with flight := r.flight ++ [fl], next := r.next + n, home := if last then bs else r.home })
      (((s.count 0x530007 n).modServing fun v => { v with batch := v.batch ++ rows }).noteEntry bank e, q.2 - n)
/-- Insert by CLASS, then age. -/
def byAge (c : Nat × Req) : List (Nat × Req) → List (Nat × Req)
  | [] => [c]
  | x :: t =>
    if c.2.d.cls < x.2.d.cls ∨ (c.2.d.cls = x.2.d.cls ∧ c.2.admNo < x.2.admNo) then c :: x :: t else x :: byAge c t
/-- Batch slot that enters at beat e: its number and owned rows (R252, R253; origin B0, log 33). -/
def State.slotAt (s : State) (e : Nat) : Option (Nat × Nat) :=
  if s.stepp = 0 then none
  else
    let p := ((e : Int) - s.binary.b0).toNat % s.stepp
    ((List.range (s.setting 0x302003 0)).find? fun k => s.setting (0x302020 + k) 0 / 65536 = p).map
      fun k => (k, s.setting (0x302020 + k) 0 % 65536)
/-- The batch table holds nothing yet. -/
def State.emptyBatch (s : State) : State := s.modServing fun v => { v with batch := [] }
/-- Rows left are void: KIND 0, this module's ADM, and 0 in every other field (DESIGN CHOICE, log 132). -/
def State.voidRows (s : State) (bs n : Nat) : State :=
  (s.count 0x530009 n).modServing fun v =>
    { v with batch := v.batch ++ List.replicate n { slot := bs, adm := s.setting 0x30200B 0 } }
/-- Step 5. -/
def State.servAllocate (s : State) : State :=
  let e := s.time.beat + s.lead
  match if s.serving.state = 0 then none else s.slotAt e with
  | none => s
  | some (bs, rows) =>
    let rs := s.reqs.foldl (fun l c => byAge c l) []
    let q := (rs.filter fun c => c.2.st = .generating && c.2.home == bs).foldl (State.allocGen bs e) (s, rows)
    let q := (rs.filter fun c => c.2.st = .prefill && decide (c.2.next < c.2.d.plen)).foldl (State.allocPre bs e) q
    q.1.voidRows bs q.2

/-! ## Step 6: announcements received (R255) -/

/-- A request's mirror. -/
def State.mirror (s : State) (a : AnnEntry) : Option Mirror := s.serving.mirrors.find? fun m => m.adm = a.adm ∧ m.rslot = a.rslot
/-- One entry of a received announcement block (Table 8.9). An identifier that is not mapped gives a stale handle (R300). -/
def State.applyAnn (s : State) (a : AnnEntry) : State :=
  let same := fun (m : Mirror) => decide (m.adm = a.adm ∧ m.rslot = a.rslot)
  if a.kind = 1 then
    let k := Tab.get 0 s.weights.idMap a.x
    let slot := if a.x = 0 ∨ k = 0 then none else some (k - 1)
    let h := match slot with | some n => s.handleOf n | none => if a.x = 0 then 0 else ((s.slotHdr 0).gen + 65535) % 65536
    let s := match slot with | some n => s.adapterRef n true | none => s
    s.modServing fun v => { v with mirrors := v.mirrors.filter (fun m => !same m) ++
      [{ adm := a.adm, rslot := a.rslot, rgen := a.rgen, handle := h, aslot := slot, bankB := decide (a.y = 1) }] }
  else match s.mirror a with
    | none => s.count 0x53000D
    | some m =>
      if m.rgen ≠ a.rgen then s.count 0x53000D
      else if a.kind = 3 then
        let s := match m.aslot with | some n => s.adapterRef n false | none => s
        s.modServing fun v => { v with mirrors := v.mirrors.filter fun m => !same m }
      else
        let upd := fun (n : Mirror) =>
          bif same n then
            (if a.kind = 2 then { n with groups := Tab.set 0 n.groups a.x (a.y + 1) }
             else if a.kind = 4 then { n with bankB := decide (a.y = 1) } else n)
          else n
        s.modServing fun v => { v with mirrors := v.mirrors.map upd }

/-- Step 6 (R255): the announcement block, and the page lists of the rows of other admitting modules, one for each mirror, since the
engine is not told which of their rows enter (DESIGN CHOICE, log 132). -/
def State.servAnnounce (s : State) : State :=
  s.modServing fun v =>
    { v with annOut := v.ann, ann := [],
             peerPages := v.mirrors.map fun m => (m.adm, m.rslot, m.groups.flatMap fun g => s.groupPages m.adm (g.2 - 1)) }

/-! ## Step 7: publication (R233, R239, Table 8.2) -/

/-- Region header bytes, without CHEAD. -/
def State.headerParts (s : State) : List Byte × List Byte :=
  let v := s.serving
  (leBytes 8 v.scons ++ leBytes 8 v.cprod,
   leBytes 8 s.time.beat ++ leBytes 2 (s.node servingNode).inc ++ leBytes 1 v.state ++
     leBytes 1 (b2n v.sblock.isSome * 2 + b2n (!v.held.isEmpty)) ++ leBytes 4 v.deferred.length ++ leBytes 4 s.reqs.length ++
     List.replicate 20 0)
/-- Write the region header: one burst in which CHEAD stands as the host wrote it; then the messages. -/
def State.servPublish (s : State) : State :=
  let o := s.setting 0x300002 0
  let p := s.headerParts
  let s := s.tierWrite true o (p.1 ++ s.tierBytes true (o + 16) 8 ++ p.2) servingNode
  let vs := (List.range 16).filter fun k => s.serving.vecs.getLsbD k
  vs.foldl (fun s k => s.due k) (s.modServing fun v => { v with vecs := 0 })
/-- DESCRIPTOR_TIMEOUT (R241): the blocking descriptor is consumed, while the boundary's cycle lasts (R231). -/
def execDescriptorTimeout (s : State) : Res :=
  if s.time.launchDue ∧ s.serving.state ≠ 0 ∧ s.serving.held = [] ∧ s.descLate ∧ !dchkOk (s.descBytes s.serving.scons) then
    .next (match s.readDesc.sampleOne with | some t => t.servPublish | none => s)
  else .next s

/-! ## Serving state (R236, R252, R273) -/

/-- Start serving (R236, R252). -/
def State.startServing (s : State) : State :=
  let z := fun (s : State) (o n : Nat) =>
    { s with mem := { s.mem with tierB := Tab.clear s.mem.tierB fun a => decide (o ≤ a ∧ a < o + n) } }
  let s := z (z s s.ringIn 8388608) s.ringOut 67108864
  let s := s.tierWrite true (s.setting 0x300002 0 + 16) (leBytes 8 0) servingNode
  ((s.modServing fun v => { v with state := 1, stopDue := false, scons := 0, cprod := 0, chead := 0, sblock := none }).modNode
    servingNode (fun u => { u with inc := nextInc u.inc })).due 20
/-- The configuration is built for the current binary (R252). -/
def State.configMatches (s : State) : Bool :=
  match s.binary.current with
  | some b => s.setting 0x302001 0 == conBuild b
  | none => false
/-- A write of 1 is refused: while health reads FAULT_STOP (R273), and from STOPPED with a configuration not built for the binary (R252)
or during a voltage margin run, which lasts only while serving is STOPPED (R374; DEDUCED, log 133). -/
def State.startRefused (s : State) : Bool :=
  s.rel.healthNow == 2 || (s.serving.state == 0 && (!s.configMatches || s.rel.marginQ.isSome))
/-- Serving state after a write of 1; none of an accepted 0 is taken back, which stops serving at the next boundary (R273). -/
def State.serveStart (s : State) : State :=
  if s.startRefused ∨ s.serving.state = 1 then s
  else if s.serving.state = 0 then s.startServing
  else (s.modServing fun v => { v with state := 1 }).due 20
/-- SERVING_START (R273). -/
def execServingStart (s : State) : Res := .next s.serveStart
/-- Serving state after a write of 2. -/
def State.serveDrain (s : State) : State := if s.serving.state = 1 then (s.modServing fun v => { v with state := 2 }).due 20 else s
/-- SERVING_DRAIN (R273). -/
def execServingDrain (s : State) : Res := .next s.serveDrain
/-- A write of 0 is refused while a request holds a slot or is deferred. -/
def State.stopRefused (s : State) : Bool := !s.reqs.isEmpty || !s.serving.deferred.isEmpty
/-- Serving state after a write of 0: it stops at the next boundary. -/
def State.serveStop (s : State) : State :=
  if s.stopRefused ∨ s.serving.state = 0 then s else s.modServing fun v => { v with stopDue := true }
/-- SERVING_STOP (R273). -/
def execServingStop (s : State) : Res := .next s.serveStop
/-- Serving is STOPPED. -/
def State.servStopped (s : State) : State := (s.modServing fun v => { v with state := 0, stopDue := false, sblock := none }).due 20
/-- A stop that was accepted takes effect at the next boundary, before it samples (R273). -/
def State.servStop (s : State) : State := if s.serving.stopDue ∧ s.serving.state ≠ 0 then s.servStopped else s
/-- A drain that has nothing left ends (R273). -/
def State.servEnd (s : State) : State := if s.serving.state = 2 ∧ !s.stopRefused then s.servStopped else s

end Sys2Proof.Machine
end

