-- ==== Sys2Proof/Machine/Install.lean ====
section
/-! DEFINITION. Writing and reading back one array (09 section 9.4, 02): encodings, failing columns, pairing, rebuilt payloads. -/

namespace Sys2Proof.Machine

/-! ## Encodings of a row (R48, R49, R51) -/

/-- Integer weights that a payload row spells under a layout (R48). -/
def rowWeights (l : Layout) (row : BitVec 256) : List Int :=
  (List.range (outputsOf l)).map fun o =>
    ((planes l).zipIdx.map fun e => if row.getLsbD (o * colsPer l + e.2) then e.1 else 0).sum
/-- The k low bits of n. -/
def bitList (k n : Nat) : List Bool := (List.range k).map fun i => n.testBit i
/-- Column bits that spell weight w in a layout, the canonical form first (R49). -/
def encodings (l : Layout) (w : Int) : List (List Bool) :=
  match l with
  | .ternary => if w = 1 then [[true, false]] else if w = -1 then [[false, true]] else [[false, false], [true, true]]
  | .w4s =>
    let f := fun (p : Nat) => bitList 3 p ++ bitList 4 (p - w).toNat
    let ps := (List.range 8).filter fun (p : Nat) => decide (0 ≤ (p : Int) - w ∧ (p : Int) - w < 16)
    f w.toNat :: (ps.filter fun p => p ≠ w.toNat).map f
  | _ => [bitList (colsPer l) (lowBits (colsPer l) w)]
/-- The column map that the next boundary brings (R60): installation writes through it. -/
def ABank.now (b : ABank) : ABank := { b with map := b.nextMap.getD b.map }
/-- Physical column p of row r can hold v. -/
def ABank.holds (b : ABank) (r p : Nat) (v : Bool) : Bool :=
  if v then !(Tab.get 0 b.stuck0 r).getLsbD p else !(Tab.get 0 b.stuck1 r).getLsbD p
/-- Encoding of output o's weight in row r: the first that agrees with the stuck cells, else the canonical one (R49). -/
def ABank.encode (b : ABank) (r o : Nat) (w : Int) : List Bool :=
  let es := encodings b.layout w
  let fits := fun (e : List Bool) => (e.zipIdx).all fun v => b.holds r (b.phys (o * colsPer b.layout + v.2)) v.1
  (es.find? fits).getD (es.headD [])
/-- The 264 logical bits of row r: `row` gives an unused column that serves no other (R48). -/
def ABank.rowBits (b : ABank) (r : Nat) (ws : List Int) (row : BitVec 256) : List Bool :=
  let data := ws.zipIdx.flatMap fun w => b.encode r w.2 w.1
  let rest := (List.range (256 - data.length)).map fun i =>
    b.layout = .w3 && !(b.w4sMap.getD 3 {}).valid && row.getLsbD (data.length + i)
  data ++ rest ++ bitList 8 (residue ws)
/-- Cells of a row that holds logical bits. -/
def ABank.place (b : ABank) (v : List Bool) : CellRow :=
  BitVec.ofNat 268 ((v.zipIdx.filter fun e => e.1).map fun e => 2 ^ b.phys e.2).sum
/-- Logical columns that the layout uses: its outputs and the check columns (R48, R51). -/
def ABank.usedCols (b : ABank) : List Nat :=
  (List.range 264).filter fun c => decide (c < colsPer b.layout * outputsOf b.layout ∨ 256 ≤ c)
/-- Logical columns in which some row reads back wrong (R286); unused ones may hold any value (R48). -/
def ABank.wrongCols (b : ABank) (rows : List (List Bool)) : List Nat :=
  b.usedCols.filter fun c => rows.zipIdx.any fun e => !b.holds e.2 (b.phys c) (e.1.getD c false)

/-! ## Failing columns (Table 9.5, R50) -/

/-- The first map entry not in use. -/
def freeEntry (m : List MapEntry) : Option Nat := (List.range 4).find? fun k => !(m.getD k {}).valid
/-- The map entry that serves a logical column. -/
def entryOfCol (m : List MapEntry) (c : Nat) : Option Nat :=
  (List.range 4).find? fun k => (m.getD k {}).valid && (m.getD k {}).lcol == c
/-- Mark the spare that serves column c as failed (R60). -/
def ABank.failSpare (b : ABank) (c : Nat) : ABank :=
  match entryOfCol b.map c with
  | some k => { b with map := b.map.set k { valid := true, lcol := 511 } }
  | none =>
    match entryOfCol b.w4sMap c with
    | some k => { b with w4sMap := b.w4sMap.set k { valid := true, lcol := 511 } }
    | none => b
/-- Serve column c from an entry of the unused columns 252 to 255. -/
def ABank.moveCol (b : ABank) (k c : Nat) : ABank := { b with w4sMap := b.w4sMap.set k { valid := true, lcol := c } }
/-- Handle one failing column by the first row of Table 9.5 that applies, `w4s`: a conversion with pairing is possible. None: the
array is UNPLACEABLE. A ternary re-encoding is already in the row's bits. -/
def ABank.handleCol (b : ABank) (w4s : Bool) (c : Nat) : Option ABank :=
  let b := b.failSpare c
  match freeEntry b.map with
  | some k => some { b with map := b.map.set k { valid := true, lcol := c } }
  | none =>
    if b.layout = .w3 ∧ 256 ≤ c ∧ !(b.w4sMap.getD 3 {}).valid then some (b.moveCol 3 c)
    else if b.layout = .w4 ∧ c < 256 ∧ c % 4 = 3 ∧ w4s then
      (if 252 ≤ c then some ({ b with layout := .w4s }.moveCol (c - 252) 511) else some ({ b with layout := .w4s }.moveCol 0 c))
    else if b.layout = .w4s then (freeEntry b.w4sMap).map fun k => b.moveCol k c
    else none
/-- A check column reads wrong cells, and no spare and no unused column is left to replace it: the bank is unusable (R50). -/
def ABank.lostCheck (b : ABank) : Bool :=
  (List.range 8).any fun i => (b.handleCol false (256 + i)).isNone &&
    (List.range 1024).any fun r => (b.cells r).getLsbD (b.phys (256 + i)) != (Tab.get 0 b.rows r).getLsbD (b.phys (256 + i))
/-- Handle failing columns in turn; a conversion to W4S changes what the columns hold, so the rest wait for the next write. -/
def ABank.handleCols (w4s : Bool) : List Nat → ABank → Option ABank
  | [], b => some b
  | c :: t, b =>
    match b.handleCol w4s c with
    | none => none
    | some b' => if b'.layout = b.layout then ABank.handleCols w4s t b' else some b'
/-- One full-bank write (R378). -/
def ABank.wrote (b : ABank) : ABank := { b with rewrites := b.rewrites + 1 }
/-- Weights that a bank of this layout takes of a shard array: a W4S bank takes outputs 0 to 35 (R287). -/
def ABank.takes (b : ABank) (l : Layout) (row : BitVec 256) : List Int :=
  let ws := rowWeights l row
  if b.layout = .w4s then ws.take 36 else ws
/-- Every full write is refused (R378). -/
def ABank.worn (b : ABank) : Bool := decide (10000000 ≤ b.rewrites)
/-- Rows of which some column in use reads back wrong, whatever is written (R286). -/
def ABank.wrongRows (b : ABank) (rows : List (List Bool)) : Nat :=
  (rows.zipIdx.filter fun e => b.usedCols.any fun c => !b.holds e.2 (b.phys c) (e.1.getD c false)).length
/-- Write an array until every row reads back right, handling failing columns after each write (R286): the bank, whether it holds
the array (else UNPLACEABLE), and the rewrites of rows that stayed wrong, three each. A worn bank refuses a write (R378). `fuel`
bounds the writes: each uses a spare or an entry of the unused columns. -/
def ABank.writeArray (l : Layout) (rows : Nat → BitVec 256) (w4s : Bool) : Nat → ABank → ABank × Bool × Nat
  | 0, b => (b, false, 0)
  | f + 1, b =>
    if b.worn then (b, false, 0)
    else
      let vs := (List.range 1024).map fun r => b.rowBits r (b.takes l (rows r)) (rows r)
      let b' := { b.wrote with rows := Tab.setRun 0 [] 0 (vs.map b.place) }
      let again := 3 * b.wrongRows vs
      match b.wrongCols vs with
      | [] => (b', true, again)
      | cs =>
        match ABank.handleCols w4s cs b' with
        | none => (b', false, again)
        | some n =>
          let r := ABank.writeArray l rows w4s f n
          (r.1, r.2.1, again + r.2.2)
/-- Write through the map of the next boundary and leave the map in force (R60). -/
def ABank.write (b : ABank) (l : Layout) (rows : Nat → BitVec 256) (w4s : Bool) : ABank × Bool × Nat :=
  let r := ABank.writeArray l rows w4s 16 { b.now with layout := l, w4sMap := [{}, {}, {}, {}] }
  ({ r.1 with map := b.map, nextMap := if r.1.map = b.map then none else some r.1.map }, r.2)
/-- The row that core 16 holds for a paired position: shard outputs 36 to 63 as outputs 0 to 27 (R287). -/
def pairRow (row : BitVec 256) : BitVec 256 := BitVec.ofNat 256 (row.toNat / 2 ^ 144)

/-! ## Read-back (R288) -/

/-- Payload row r in layout l as an array (and core 16, when paired) reads back. -/
def readRow (l : Layout) (b : ABank) (pair : Option ABank) (r : Nat) : BitVec 256 :=
  let own := (List.range (outputsOf b.layout)).map fun o => b.weight r o
  let ws := if b.layout = .w4s then own ++ (match pair with | some q => (List.range 28).map fun o => q.weight r o | none => []) else own
  let data := ws.flatMap fun w => (encodings l w).headD []
  let rest := (List.range (256 - data.length)).map fun i =>
    l = .w3 && !(b.w4sMap.getD 3 {}).valid && b.cell r (data.length + i)
  BitVec.ofNat 256 (((data ++ rest).zipIdx.filter fun e => e.1).map fun e => 2 ^ e.2).sum
/-- Payload bytes of one array from its rows. -/
def arrayBytes (rows : Nat → BitVec 256) : List Byte := (List.range 1024).flatMap fun r => leBytes 32 (rows r).toNat

/-! ## Wear (R378) -/

/-- A bank's count passed the wear warning: one informational record (R378). -/
def State.wearNote (s : State) (st c : Nat) (bankB : Bool) (before : Nat) : State :=
  let k := ((s.core st c).bank bankB).rewrites
  let w := s.setting 0x404001 9000000
  if before < w ∧ w ≤ k then s.record 0x0107 3 (leBytes 1 (b2n bankB) ++ leBytes 4 k) st c else s

end Sys2Proof.Machine
end

