-- ==== Sys2Proof/Machine/Weights.lean ====
section
/-! DEFINITION. Weight versions, staging, the switch, scrubbing and adapter slots (09). -/

namespace Sys2Proof.Machine

/-! ## Shards and versions (R275 to R277) -/

/-- Key of a shard. -/
def shardKey (b : Bool) (st : Nat) : Nat := b2n b * 5000 + st
/-- Change weights and adapters. -/
def State.modWeights (s : State) (f : Weights → Weights) : State := { s with weights := f s.weights }
/-- Shard of a bank and stand. -/
def State.shard (s : State) (b : Bool) (st : Nat) : Shard := Tab.get {} s.weights.shards (shardKey b st)
/-- Change a shard. -/
def State.modShard (s : State) (b : Bool) (st : Nat) (f : Shard → Shard) : State :=
  s.modWeights fun w => { w with shards := Tab.set {} w.shards (shardKey b st) (f (s.shard b st)) }
/-- Version of a bank. -/
def State.version (s : State) (b : Bool) : Version := if b then s.weights.verB else s.weights.verA
/-- Replace the version of a bank. -/
def State.setVersion (s : State) (b : Bool) (v : Version) : State :=
  s.modWeights fun w => if b then { w with verB := v } else { w with verA := v }
/-- Change every listed core: for changes that leave a core without content as it is. -/
def State.mapCores (s : State) (f : Nat → Core → Core) : State := { s with cores := Tab.mapVals {} f s.cores }
/-- Change all 85,000 cores. -/
def State.allCores (s : State) (f : Core → Core) : State :=
  { s with cores := ((List.range 85000).map fun n => (n, f (Tab.get {} s.cores n))).filter fun e => decide (e.2 ≠ {}) }
/-- State of a bank of every core changes from one to another. -/
def State.bankSt (s : State) (b : Bool) (p : BankState → Bool) (v : BankState) : State :=
  s.mapCores fun _ c => c.modBank b fun k => if p k.st then { k with st := v } else k
/-- Banks being staged: the one the pointer does not name, or both (R279). -/
def State.stagingBanks (s : State) : List Bool :=
  match s.weights.staging with
  | some g => if g.cap then [false, true] else [!s.weights.ptrB]
  | none => [!s.weights.ptrB]
/-- Every shard of a bank's version is VERIFIED (R288). -/
def State.bankComplete (s : State) (b : Bool) : Bool :=
  decide ((s.version b).epoch ≠ 0) && allStands.all fun st => decide ((s.shard b st).st = .verified)
/-- Banks that hold an epoch. -/
def State.epochBanks (s : State) (e : Nat) : List Bool := [false, true].filter fun b => decide (e ≠ 0 ∧ (s.version b).epoch = e)
/-- Complete version with an epoch. -/
def State.epochComplete (s : State) (e : Nat) : Bool :=
  decide (s.epochBanks e ≠ []) && (s.epochBanks e).all fun b => s.bankComplete b
/-- Core that position p of a stand is written to (R97). -/
def Stand.coreAt (x : Stand) (p : Nat) : Nat := if x.svc.valid ∧ x.svc.spos = p then 16 else p
/-- Serving is STOPPED (R273). -/
def State.stopped (s : State) : Bool := s.serving.state = 0
/-- Result of a weight command (R279): vector 16 (Table 15.3). -/
def State.weightResult (s : State) (op code : Nat) : State := (s.modWeights fun w => { w with wres := op * 256 + code }).due 16

/-- Layout of the array at position p (Table 9.1); an EMPTY array is written as W4 zeros (R278). -/
def Shard.layout (h : Shard) (p : Nat) : Layout :=
  let b := field h.hdr (24 + p) 1
  if bit b 7 then .w4 else (layoutOf (b % 16)).getD .w4
/-- CRC-32C of one array's bytes agrees with the header's ACRC. -/
def acrcOk (hdr : List Byte) (p : Nat) (bs : List Byte) : Bool := decide (crc32c bs = field hdr (40 + 4 * p) 4)
/-- DIGEST agrees (Table 9.1). -/
def digestOk (hdr pay : List Byte) : Bool := decide (sha256 (slice hdr 0 224 ++ pay) = slice hdr 224 32)
/-- Row r of position p of a payload (R277). -/
def payloadRow (pay : List Byte) (p r : Nat) : BitVec 256 := BitVec.ofNat 256 (leNat (slice pay (32768 * p + 32 * r) 32))

/-! ## Master areas (R294, R309) -/

/-- Node of the forester's bus agent (Table 10.3). -/
def foresterNode : Nat := 5105
/-- Bytes that a shard can take of a master area. -/
def shardBytes : Nat := 526592
/-- Tier B address of a shard's part of a bank's master area (Table 10.2; DESIGN CHOICE, log 123: each shard has its largest size). -/
def masterAt (b : Bool) (st : Nat) : Nat := (if b then 66632960000 else 64000000000) + shardBytes * st
/-- Set bits of a row-presence map below row r. -/
def presentBelow (m : List Byte) (r : Nat) : Nat := ((List.range r).filter fun k => bit (field m (k / 8) 1) (k % 8)).length
/-- One array as a master area holds it: its row-presence map, then the rows present, in ascending order (R294). -/
def packArray (rows : Nat → BitVec 256) : List Byte :=
  ((List.range 128).map fun k => BitVec.ofNat 8 (((List.range 8).map fun i => b2n (decide (rows (8 * k + i) ≠ 0)) * 2 ^ i).sum)) ++
  ((List.range 1024).filter fun r => decide (rows r ≠ 0)).flatMap fun r => leBytes 32 (rows r).toNat
/-- A shard as a master area holds it. -/
def packShard (hdr : List Byte) (rows : Nat → Nat → BitVec 256) : List Byte :=
  hdr ++ (List.range 16).flatMap fun p => packArray (rows p)
/-- Address of position p in a master area: each earlier position takes its map and its rows. -/
def State.arrayAt (s : State) (b : Bool) (st : Nat) : Nat → Nat
  | 0 => masterAt b st + 256
  | p + 1 =>
    let a := s.arrayAt b st p
    a + 128 + 32 * presentBelow (s.tierBytes true a 128) 1024
/-- Row r of position p as the master area of a bank spells it. -/
def State.masterRow (s : State) (b : Bool) (st p r : Nat) : BitVec 256 :=
  let a := s.arrayAt b st p
  let m := s.tierBytes true a 128
  if bit (field m (r / 8) 1) (r % 8) then BitVec.ofNat 256 (leNat (s.tierBytes true (a + 128 + 32 * presentBelow m r) 32)) else 0
/-- The payload that a shard's part of a master area spells (R277). -/
def State.masterPayload (s : State) (b : Bool) (st : Nat) : List Byte :=
  (List.range 16).flatMap fun p => arrayBytes (s.masterRow b st p)
/-- The bursts of position p are read from the master area: checked, counted and recorded (R305). -/
def State.masterRead (s : State) (b : Bool) (st p : Nat) : State :=
  let a := s.arrayAt b st p
  (s.tierRead true a (s.arrayAt b st (p + 1) - a) foresterNode).2
/-- Store a shard in its master area. -/
def State.putMaster (s : State) (b : Bool) (st : Nat) (hdr : List Byte) (rows : Nat → Nat → BitVec 256) : State :=
  s.tierWrite true (masterAt b st) (packShard hdr rows) foresterNode
/-- Empty the master area of a bank (Table 9.3). -/
def State.emptyArea (s : State) (b : Bool) : State :=
  let lo := masterAt b 0
  { s with mem := { s.mem with tierB := Tab.clear s.mem.tierB fun a => decide (lo ≤ a ∧ a < lo + 5000 * shardBytes) } }
/-- Rows of position p as the arrays of the stand read back (R288). -/
def State.readBack (s : State) (b : Bool) (st p r : Nat) : BitVec 256 :=
  let x := s.stand st
  let own := (((s.core st (x.coreAt p)).bank b)).now
  let pair := if (if b then x.pairB else x.pairA) = some p then some ((s.core st 16).bank b).now else none
  readRow ((s.shard b st).layout p) own pair r

/-! ## Writing (R285 to R287) -/

/-- The applied throttle level (R400). -/
def State.level (s : State) : Nat := max s.sense.tlevel s.sense.plevel
/-- Arrays that may be in WRITE or VERIFY at once (R285). -/
def State.writeAllowance (s : State) : Nat :=
  let n := s.setting 0x310008 1000
  if 0 < s.level then n / 2 else n
/-- Arrays in WRITE or VERIFY. -/
def State.inWrite (s : State) : Nat :=
  let busy := fun (k : ABank) => b2n (decide (k.st = .write ∨ k.st = .verify))
  (s.cores.map fun e => busy e.2.bankA + busy e.2.bankB).sum
/-- Position of a stand that is paired with core 16 in a bank. -/
def Stand.pairOf (x : Stand) (b : Bool) : Option Nat := if b then x.pairB else x.pairA
/-- Set or end the pairing of a bank. -/
def Stand.setPair (x : Stand) (b : Bool) (p : Option Nat) : Stand := if b then { x with pairB := p } else { x with pairA := p }
/-- Arrays of the shards of a status that wait to be written: ascending stand, then position (R285). -/
def State.writeQueue (s : State) (st0 : ShardStatus) : List (Bool × Nat × Nat) :=
  allStands.flatMap fun st => [false, true].flatMap fun b =>
    let h := s.shard b st
    if h.st = st0 then
      ((List.range 16).filter fun p =>
        let k := ((s.core st ((s.stand st).coreAt p)).bank b).st
        !h.done.getLsbD p && decide (k = .empty ∨ k = .idle)).map fun p => (b, st, p)
    else []
/-- The array at position p is written anew: a pairing of it in this bank ends, and core 16's bank is EMPTY (R287). -/
def State.endPair (s : State) (b : Bool) (st p : Nat) : State :=
  let s := s.modShard b st fun h => { h with w4s := h.w4s &&& ~~~(BitVec.ofNat 16 (2 ^ p)) }
  if (s.stand st).pairOf b = some p then
    ((s.modStand st fun x => x.setPair b none).modCore st 16 fun x => x.modBank b fun k => { k with st := .empty }).modShard b st fun h =>
      { h with paired := false }
  else s
/-- Banks of a shard's arrays in WRITE or VERIFY change state. -/
def State.settleShard (s : State) (b : Bool) (st : Nat) (v : BankState) : State :=
  let x := s.stand st
  let cs := (List.range 16).map x.coreAt ++ (if (x.pairOf b).isSome then [16] else [])
  cs.foldl (fun s c => s.modCore st c fun x => x.modBank b fun k => if k.st = .write ∨ k.st = .verify then { k with st := v } else k) s
/-- An array that no column handling saves: the shard UNPLACEABLE, the array's bank FAILED, the shard's other arrays no longer
written (Table 9.5, R50). -/
def State.unplaceable (s : State) (b : Bool) (st c : Nat) : State :=
  ((s.modCore st c fun x => x.modBank b fun k => { k with st := .failed }).modShard b st fun h => { h with st := .unplaceable }).settleShard
    b st .empty
/-- Begin the write of an array; a worn bank refuses it, which installation treats as UNPLACEABLE (R378). -/
def State.beginWrite (s : State) (q : Bool × Nat × Nat) : State :=
  let c := (s.stand q.2.1).coreAt q.2.2
  if (s.shard q.1 q.2.1).st = .unplaceable then s
  else if ((s.core q.2.1 c).bank q.1).worn then s.unplaceable q.1 q.2.1 c
  else
    ((s.endPair q.1 q.2.1 q.2.2).modCore q.2.1 c fun x => x.modBank q.1 fun k => { k with st := .write }).modShard q.1 q.2.1 fun h =>
      { h with st := .writing }
/-- Begin as many writes as the allowance lets (R285); shards whose writing has begun go first (DESIGN CHOICE, log 124). -/
def State.pumpWrites (s : State) : State :=
  ((s.writeQueue .writing ++ s.writeQueue .arrived).take (s.writeAllowance - s.inWrite)).foldl State.beginWrite s
/-- Core 16 can take a pairing (R287). -/
def Stand.canPair (x : Stand) : Bool := !x.svc.valid && x.pairA.isNone && x.pairB.isNone && x.coppice.isNone
/-- Free sense trims that the installation's trim step finds (R410, log 9). -/
def State.freshTrims (s : State) : Tab (BitVec 6) :=
  ((List.range 268).map fun c => (c, BitVec.ofNat 6 (Config.freeNat (s.freeCtr + c)))).filter fun e => decide (e.2 ≠ 0)
/-- Write rows to a bank of a core as an array of layout l (R286): the bank as the writes leave it, with its wear, its trims and its
row rewrites noted, and whether it holds the array. `rewrites`: rewrites of rows that one of them put right, at most three a row. -/
def State.writeBank (s : State) (b : Bool) (st c : Nat) (l : Layout) (rows : Nat → BitVec 256) (w4s : Bool) (rewrites : Nat) : State × Bool :=
  let k := (s.core st c).bank b
  let r := k.write l rows w4s
  let trims := s.freshTrims
  let more := min rewrites (3 * 1024 * (r.1.rewrites - k.rewrites) - r.2.2)
  let s := ({ s with freeCtr := s.freeCtr + 268 } : State).count 0x531006 (r.2.2 + more)
  let s := s.modCore st c fun x => x.modBank b fun _ => { r.1 with trims := if r.2.1 then trims else r.1.trims }
  (s.wearNote st c b k.rewrites, r.2.1)
/-- Move a bank of a core to a state. -/
def State.setBankSt (s : State) (b : Bool) (st c : Nat) (v : BankState) : State :=
  s.modCore st c fun x => x.modBank b fun k => { k with st := v }
/-- Write and verify one array of a shard (R286, R287): its core is c. The bank stays in VERIFY until the shard's final check (R288). -/
def State.writeOne (s : State) (b : Bool) (st p c rewrites : Nat) : State :=
  let l := (s.shard b st).layout p
  let rows := s.masterRow b st p
  let w4s := (s.stand st).canPair && !((s.core st 16).bank b).worn
  let r := (s.masterRead b st p).writeBank b st c l rows w4s rewrites
  if !r.2 then r.1.unplaceable b st c
  else
    let s := (r.1.setBankSt b st c .verify).modShard b st fun h => { h with done := h.done ||| BitVec.ofNat 16 (2 ^ p) }
    if ((s.core st c).bank b).layout ≠ .w4s then s
    else
      let q := s.writeBank b st 16 .w4 (fun r => pairRow (rows r)) false 0
      if !q.2 then (q.1.setBankSt b st 16 .failed).unplaceable b st c
      else
        ((q.1.setBankSt b st 16 .verify).modStand st fun x => x.setPair b (some p)).modShard b st fun h =>
          { h with paired := true, w4s := h.w4s ||| BitVec.ofNat 16 (2 ^ p) }
/-- ARRAY_WRITE_VERIFY_DONE (R286): the array in WRITE is written and verified. -/
def execArrayWriteVerifyDone (bankB : Bool) (st : StandId) (p : Pos) (rewrites : Nat) (s : State) : Res :=
  let c := (s.stand st).coreAt p
  if ((s.core st c).bank bankB).st ≠ .write ∨ (s.shard bankB st).st ≠ .writing then .next s
  else .next ((s.writeOne bankB st p c rewrites).pumpWrites)

/-! ## Attempts and arrival (R280 to R284, R358, R359) -/

/-- Ticks of an attempt (R282). -/
def attemptTicks : Nat := sec 60
/-- SECOND of the shards of a bank: bank B of a version staged with CAP (Table 9.1). -/
def State.second (s : State) (b : Bool) : Bool := b && (s.version b).cap
/-- WANTED shards of the versions that STAGE told to take from the peer (R282): bank and stand. -/
def State.peerWant (s : State) : List (Bool × Nat) :=
  ([false, true].filter fun b => (s.version b).peer).flatMap fun b => (allStands.filter fun st =>
    decide ((s.shard b st).st = .wanted) && !s.grove.requested.contains (st, s.second b)).map fun st => (b, st)
/-- Ask the shard peer for WANTED shards, at most four at once (R358). -/
def State.askPeer (s : State) : State :=
  (s.peerWant.take (4 - s.grove.requested.length)).foldl (fun s q =>
    ({ s with grove := { s.grove with requested := s.grove.requested ++ [(q.2, s.second q.1)] } } : State).pathSend 12 s.shardPeer
      { s.frameHdr 12 s.shardPeer 5 s.ownPlace with
        payload := beBytes 4 (s.version q.1).epoch ++ beBytes 2 q.2 ++ beBytes 2 (b2n (s.second q.1)) }) s
/-- A shard's request to the peer is over. -/
def State.peerDone (s : State) (st : Nat) : State :=
  { s with grove := { s.grove with requested := s.grove.requested.filter fun q => q.1 ≠ st,
                                   frags := s.grove.frags.filter fun f => f.2.1 ≠ st } }
/-- A shard becomes WANTED with ATTEMPT 1 (R282, R288). -/
def State.wantShard (s : State) (b : Bool) (st : Nat) : State :=
  let t := s.time.tick + attemptTicks
  ((s.modShard b st fun h => { h with st := .wanted, attempt := 1, deadline := t, done := 0 }).due 16).askPeer
/-- The attempt of a WANTED shard ends (R282). -/
def State.endAttempt (s : State) (b : Bool) (st : Nat) (corrupt : Bool) : State :=
  let s := (s.count 0x531004).peerDone st
  let t := s.time.tick + attemptTicks
  if (s.shard b st).attempt < 4 then
    (((s.modShard b st fun h => { h with attempt := h.attempt + 1, deadline := t }).count 0x531005).due 16).askPeer
  else (s.modShard b st fun h => { h with st := if corrupt then .bad else .missing }).askPeer
/-- Form of a shard header apart from what was staged (R277, R278, R281 step 1). -/
def shardForm (b : List Byte) : Bool :=
  decide (b.length = 524544 ∧ field b 0 4 = 0x31444853 ∧ field b 4 2 = 1 ∧ field b 6 2 < 2 ∧ field b 14 2 < 5000) &&
  zeros b 13 1 && zeros b 104 120 &&
  (List.range 16).all fun p =>
    decide (field b (24 + p) 1 % 128 < 4) && (!bit (field b (24 + p) 1) 7 || zeros b (256 + 32768 * p) 32768)
/-- Bank and stand of an arriving shard; none: foreign (R281 step 1). -/
def State.shardTarget (s : State) (b : List Byte) : Option (Bool × Nat) :=
  let second := bit (field b 6 2) 0
  let fits := fun (k : Bool) =>
    let v := s.version k
    decide (v.epoch ≠ 0 ∧ v.epoch = field b 8 4 ∧ v.layoutId.toNat = field b 16 8 ∧ v.place = field b 12 1) &&
      (if v.cap then second == k else !second)
  if !shardForm b then none
  else ([!s.weights.ptrB, s.weights.ptrB].find? fits).map fun k => (k, field b 14 2)
/-- A valid copy is written into the master area (R281, R294). -/
def State.acceptShard (s : State) (k : Bool) (st : Nat) (b : List Byte) (peer : Bool) : State :=
  let s := (s.putMaster k st (slice b 0 256) (payloadRow (b.drop 256))).modShard k st fun h =>
    { h with st := .arrived, peer := peer, hdr := slice b 0 256, done := 0 }
  (((s.count 0x531001).peerDone st).askPeer).pumpWrites
/-- A shard arrives (R281). -/
def State.arrive (s : State) (b : List Byte) (peer : Bool) : State :=
  match s.shardTarget b with
  | none => s.count 0x531002
  | some (k, st) =>
    let pay := b.drop 256
    let h := (s.shard k st).st
    if digestOk b pay && (List.range 16).all fun p => acrcOk b p (slice pay (32768 * p) 32768) then
      if h = .wanted ∨ h = .bad ∨ h = .missing then s.acceptShard k st b peer else s.count 0x531002
    else
      let s := s.count 0x531003
      if h = .wanted then s.endAttempt k st true else s
/-- Offset of the shard inbox. -/
def State.inboxAt (s : State) (slot : Nat) : Nat := s.setting 0x31000C 83886080 + slot * 524544
/-- A post is accepted: the slot is free (R280). -/
def State.inboxOk (s : State) (slot : Nat) : Bool := decide (slot < 16) && s.weights.inboxFree.getLsbD slot
/-- Post a slot (R280). -/
def State.post (s : State) (slot : Nat) : State :=
  if s.inboxOk slot then s.modWeights fun w => { w with inboxFree := w.inboxFree &&& ~~~(BitVec.ofNat 16 (2 ^ slot)) } else s
/-- INBOX_POST (R280): refused for a slot that is not free. -/
def execInboxPost (slot : Byte) (s : State) : Res := .next (s.post slot.toNat)
/-- Bytes of the peer copy of a shard, when all 513 fragments have come (R359). -/
def State.peerShard (s : State) (st : Nat) (second : Bool) : Option (List Byte) :=
  let fs := s.grove.frags.filter fun f => decide (f.2.1 = st ∧ f.2.2.1 = second)
  let get := fun n => fs.find? fun f => f.1 = n
  if (List.range 513).all fun n => (get n).isSome then
    some ((List.range 513).flatMap fun n => match get n with | some f => f.2.2.2 | none => [])
  else none
/-- SHARD_ARRIVE (R280, R281): the posted inbox slot, or the assembled peer copy; none there: no effect. -/
def execShardArrive (path : ShardPath) (s : State) : Res :=
  match path with
  | .inbox slot =>
    if s.weights.inboxFree.getLsbD slot then .next s
    else
      let b := s.tierRead true (s.inboxAt slot) 524544 foresterNode
      .next ((b.2.arrive b.1 false).modWeights fun w => { w with inboxFree := w.inboxFree ||| BitVec.ofNat 16 (2 ^ slot.val) })
  | .peer st second =>
    match s.peerShard st second with
    | none => .next s
    | some b => .next ((s.peerDone st).arrive b true)
/-- ATTEMPT_TIMEOUT (R282): an attempt whose 60 s have passed without a valid copy. -/
def execAttemptTimeout (bankB : Bool) (st : StandId) (s : State) : Res :=
  let h := s.shard bankB st
  if h.st = .wanted ∧ h.deadline ≤ s.time.tick then .next (s.endAttempt bankB st false) else .next s

/-! ## Final check (R288) -/

/-- Every ACRC and DIGEST of what the arrays read back as. -/
def State.readBackOk (s : State) (b : Bool) (st : Nat) : Bool :=
  let hdr := (s.shard b st).hdr
  let pay := fun p => arrayBytes (s.readBack b st p)
  ((List.range 16).all fun p => acrcOk hdr p (pay p)) && digestOk hdr ((List.range 16).flatMap pay)
/-- The final check of a written shard: VERIFIED, its banks IDLE; or WANTED, the banks just written EMPTY again (log 124). -/
def State.finalCheck (s : State) (b : Bool) (st : Nat) : State :=
  if s.readBackOk b st then
    let s := (s.settleShard b st .idle).modShard b st fun h => { h with st := .verified }
    if s.bankComplete b then s.due 16 else s
  else ((s.settleShard b st .empty).count 0x531007).wantShard b st
/-- SHARD_FINAL_CHECK (R288). -/
def execShardFinalCheck (bankB : Bool) (st : StandId) (s : State) : Res :=
  let h := s.shard bankB st
  if h.st ≠ .writing ∨ h.done ≠ 0xFFFF then .next s else .next (s.finalCheck bankB st).pumpWrites

/-! ## Weight commands (Table 9.3) -/

/-- A shard table in which every shard of a bank is replaced. -/
def Weights.resetShards (w : Weights) (b : Bool) (h : Shard) : Weights :=
  let others := w.shards.filter fun e => decide (e.1 / 5000 ≠ b2n b)
  let mine := (allStands.map fun st => (shardKey b st, h)).filter fun e => decide (e.2 ≠ {})
  { w with shards := if b then others ++ mine else mine ++ others }
/-- Discard what a bank holds: version, shards, master area, pairing; every array EMPTY. -/
def State.emptyBank (s : State) (b : Bool) (h : Shard) (v : Version) : State :=
  let s := ((s.setVersion b v).modWeights fun w => w.resetShards b h).emptyArea b
  let s := s.bankSt b (fun _ => true) .empty
  { s with stands := Tab.mapVals {} (fun _ x => x.setPair b none) s.stands }
/-- First condition of STAGE that fails. -/
def State.stageCode (s : State) (cap : Bool) (place epoch : Nat) : Nat :=
  if 79 < place ∨ epoch = 0 then 5
  else if s.weights.staging.isSome ∨ s.weights.sw.st ≠ 0 ∨ s.weights.sw.graceOpen then 1
  else if (cap ∨ s.weights.current = 0 ∨ s.weights.capmode) ∧ !s.stopped then 2
  else 0
/-- STAGE (R279, R297). -/
def State.stage (s : State) (cap peer : Bool) (place epoch : Nat) (layoutId : DWord) : State :=
  let code := s.stageCode cap place epoch
  if code ≠ 0 then s.weightResult 1 code
  else
    let leave := s.weights.capmode
    let s := if leave then (s.emptyBank true {} {}).allCores fun c => { c with capmode := false, bptrB := true } else s
    let s := s.modWeights fun w =>
      { w with capmode := false, ptrB := leave || w.ptrB, current := if cap || leave then 0 else w.current,
               staging := some { cap, peer, place, epoch, layoutId } }
    let h : Shard := { st := .wanted, attempt := 1, deadline := s.time.tick + attemptTicks }
    let s := s.stagingBanks.foldl (fun s b => s.emptyBank b h { epoch, layoutId, place, cap, peer }) s
    s.askPeer.weightResult 1 0
/-- A weight command waits for the next boundary (9.3). -/
def State.weightWrite (s : State) (b : List Byte) : State := s.modWeights fun w => { w with cmds := w.cmds ++ [b] }
/-- A block of Table 9.2. -/
def weightBlock (op flags place nmod epoch : Nat) (layoutId : DWord) (grace : Nat) : List Byte :=
  leBytes 1 op ++ leBytes 1 flags ++ leBytes 1 place ++ leBytes 1 nmod ++ leBytes 4 epoch ++ leBytes 8 layoutId.toNat ++
    leBytes 2 grace ++ List.replicate 14 0
/-- STAGE, written as a command block. -/
def execStage (cap source : Bool) (place : Byte) (epoch : Word) (layoutId : DWord) (s : State) : Res :=
  .next (s.weightWrite (weightBlock 1 (b2n cap + 2 * b2n source) place.toNat 0 epoch.toNat layoutId 0))
/-- CANCEL (R279). -/
def State.cancelStage (s : State) : State :=
  if s.weights.staging.isNone ∨ s.weights.sw.st ≠ 0 then s.weightResult 2 1
  else
    let s := s.stagingBanks.foldl (fun s b => s.emptyBank b {} {}) s
    let s := s.modWeights fun w => { w with staging := none }
    ({ s with grove := { s.grove with requested := [], frags := [] } } : State).weightResult 2 0
/-- WEIGHT_CANCEL, written as a command block. -/
def execWeightCancel (s : State) : Res := .next (s.weightWrite (weightBlock 2 0 0 0 0 0 0))
/-- REQUEST_AGAIN (R279). -/
def State.requestAgain (s : State) : State :=
  if s.weights.staging.isNone then s.weightResult 3 1
  else
    let t := s.time.tick + attemptTicks
    let again := fun (k : Nat) (h : Shard) =>
      if (h.st = .bad ∨ h.st = .missing) ∧ s.stagingBanks.contains (decide (5000 ≤ k)) then
        { h with st := .wanted, attempt := 1, deadline := t } else h
    let s := s.modWeights fun w => { w with shards := Tab.mapVals {} again w.shards }
    (s.askPeer.due 16).weightResult 3 0
/-- REQUEST_AGAIN, written as a command block. -/
def execRequestAgain (s : State) : Res := .next (s.weightWrite (weightBlock 3 0 0 0 0 0 0))
/-- LAYOUT_ID of the current binary [0x2350:05]. -/
def State.layoutNow (s : State) : Nat := match s.binary.current with | some b => conLayout b | none => 0
/-- First condition of ARM that fails (Table 9.3, R297). -/
def State.armCode (s : State) (nmod epoch grace : Nat) : Nat :=
  let v := s.version (!s.weights.ptrB)
  if nmod = 0 ∨ 80 < nmod ∨ 4096 < grace ∨ epoch = 0 then 5
  else if s.weights.capmode ∨ v.cap ∨ s.weights.sw.graceOpen ∨ v.epoch ≠ epoch then 1
  else if v.layoutId.toNat ≠ s.layoutNow then 3
  else 0
/-- ARM (R279, R355). -/
def State.arm (s : State) (nmod epoch grace : Nat) : State :=
  let code := s.armCode nmod epoch grace
  if code ≠ 0 then s.weightResult 4 code
  else (s.modWeights fun w => { w with sw := { st := 1, epoch := epoch, nmod := nmod, grace := grace, members := nmod } }).weightResult 4 0
/-- ARM, written as a command block. -/
def execArm (nmod : Byte) (epoch : Word) (grace : BitVec 16) (s : State) : Res :=
  .next (s.weightWrite (weightBlock 4 0 0 nmod.toNat epoch.toNat 0 grace.toNat))
/-- Take back an arrival at the switch barrier (R357). -/
def State.withdrawArrival (s : State) : State :=
  let q := (s.chan 64).done + 1
  let s := s.modChan 64 fun c => { c with arrivedPhase := (s.chan 64).done }
  if s.root 64 = s.ownPlace then s.modChan 64 fun c => { c with arrivals := c.arrivals.filter fun a => a ≠ (s.ownPlace, q) }
  else s.sendBarrier 64 q 3 (s.root 64)
/-- DISARM (R279, R292, R357). -/
def State.disarm (s : State) : State :=
  let w := s.weights.sw
  if w.st ≠ 1 ∧ w.st ≠ 2 then s.weightResult 5 1
  else if w.st = 2 ∧ !s.stopped then s.weightResult 5 2
  else
    let s := if w.st = 2 then s.withdrawArrival.bankSt s.newBank (fun k => k == .compute) .idle else s
    (s.modWeights fun v => { v with sw := { members := w.members } }).weightResult 5 0
/-- DISARM, written as a command block. -/
def execDisarm (s : State) : Res := .next (s.weightWrite (weightBlock 5 0 0 0 0 0 0))
/-- Banks of the version that an ACTIVATE of an epoch names: both of a version staged with CAP, else one, the staging bank before
the bank that the pointer names (DESIGN CHOICE, log 125). -/
def State.activeBanks (s : State) (e : Nat) : List Bool :=
  let bs := [!s.weights.ptrB, s.weights.ptrB].filter fun b => decide (e ≠ 0 ∧ (s.version b).epoch = e)
  match bs with
  | [] => []
  | b :: _ => if (s.version b).cap then [false, true] else [b]
/-- First condition of ACTIVATE that fails. -/
def State.activateCode (s : State) (epoch : Nat) : Nat :=
  if epoch = 0 then 5
  else if s.weights.sw.graceOpen ∨ s.activeBanks epoch = [] then 1
  else if !s.stopped then 2
  else if !(s.activeBanks epoch).all s.bankComplete then 4
  else 0
/-- ACTIVATE (R279, R297). -/
def State.activate (s : State) (epoch : Nat) : State :=
  let code := s.activateCode epoch
  if code ≠ 0 then s.weightResult 6 code
  else
    let bs := s.activeBanks epoch
    let cap := decide (bs.length = 2)
    let b := if cap then s.weights.ptrB else bs.headD false
    let s := (s.bankSt false (fun k => k == .compute) .idle).bankSt true (fun k => k == .compute) .idle
    let s := bs.foldl (fun s k => s.bankSt k (fun t => t == .idle) .compute) s
    let s := s.allCores fun c => { c with bptrB := b, capmode := cap }
    (s.modWeights fun w => { w with ptrB := b, capmode := cap, current := epoch, staging := none }).weightResult 6 0
/-- WEIGHT_ACTIVATE, written as a command block. -/
def execWeightActivate (epoch : Word) (s : State) : Res := .next (s.weightWrite (weightBlock 6 0 0 0 epoch.toNat 0 0))
/-- Arrays of a scrub round: 80,000 per bank that holds a version (R296). -/
def State.scrubAll (s : State) : List Nat :=
  [false, true].flatMap fun b => if (s.version b).epoch = 0 then [] else (List.range 80000).map (· + b2n b * 80000)
/-- SCRUB_NOW (R279): a round begins. -/
def State.scrubNow (s : State) : State :=
  (s.modWeights fun w => { w with scrubLeft := s.scrubAll, scrubStart := s.time.tick, scrubAsap := true }).weightResult 7 0
/-- SCRUB_NOW, written as a command block. -/
def execScrubNow (s : State) : Res := .next (s.weightWrite (weightBlock 7 0 0 0 0 0 0))
/-- A weight command block (Table 9.2); an operation outside Table 9.3 is answered 0x05 (log 40). -/
def State.weightCmd (s : State) (b : List Byte) : State :=
  let op := field b 0 1
  let f := field b 1 1
  if op = 1 then s.stage (bit f 0) (bit f 1) (field b 2 1) (field b 4 4) (BitVec.ofNat 64 (field b 8 8))
  else if op = 2 then s.cancelStage
  else if op = 3 then s.requestAgain
  else if op = 4 then s.arm (field b 3 1) (field b 4 4) (field b 16 2)
  else if op = 5 then s.disarm
  else if op = 6 then s.activate (field b 4 4)
  else if op = 7 then s.scrubNow
  else s.weightResult op 5
/-- Weight commands written since the last boundary, in order (9.3); writing goes on as the allowance in force lets it (R285). -/
def State.weightBoundary (s : State) : State :=
  let l := s.weights.cmds
  (l.foldl State.weightCmd (s.modWeights fun w => { w with cmds := [] })).pumpWrites

/-! ## The switch (R289 to R292) -/

/-- Arrival at the switch barrier, before step 2 (R289). -/
def State.switchArrive (s : State) : State :=
  let w := s.weights.sw
  if w.st = 1 ∧ (s.version (!s.weights.ptrB)).epoch = w.epoch ∧ s.bankComplete (!s.weights.ptrB) then
    let s := s.bankSt (!s.weights.ptrB) (fun k => k == .idle) .compute
    (s.modWeights fun v => { v with sw := { w with st := 2, graceOpen := true } }).flagArrive 64 ((s.chan 64).done + 1)
  else s
/-- The switch completion is applied at step 2 (R289). -/
def State.switchComplete (s : State) : State :=
  let w := s.weights.sw
  if w.st = 2 ∧ w.completed then
    s.modWeights fun v => { v with sw := { w with st := 3, completed := false, beat := s.time.beat + s.lead } }
  else s
/-- The boundary that opens S: the pointer and the current epoch change (R289, R34). -/
def State.switchPointer (s : State) : State :=
  let w := s.weights.sw
  if (w.st = 3 ∨ w.st = 4) ∧ !w.pointerDone ∧ w.beat ≤ s.time.beat then
    let b := s.newBank
    let s := s.allCores fun c => { c with bptrB := b }
    s.modWeights fun v => { v with ptrB := b, current := w.epoch, staging := none, sw := { w with pointerDone := true } }
  else s
/-- A request of the old epoch holds a slot. -/
def State.oldEpochHeld (s : State) : Bool :=
  s.reqs.any fun e => e.2.d.pin && decide (e.2.epoch ≠ s.weights.sw.epoch)
/-- Every row allocated with the old bank has had its step period (R291). -/
def State.oldRowsBack (s : State) : Bool :=
  match if s.newBank then s.weights.lastA else s.weights.lastB with
  | some e => decide (e + s.stepp ≤ s.time.beat)
  | none => true
/-- Arrival at the retire barrier (R291). -/
def State.retireArrive (s : State) : State :=
  let w := s.weights.sw
  if w.st = 3 ∧ w.beat ≤ s.time.beat ∧ (w.beat + w.grace ≤ s.time.beat ∨ (!s.oldEpochHeld ∧ s.oldRowsBack)) then
    (s.modWeights fun v => { v with sw := { w with st := 4 } }).flagArrive 65 ((s.chan 65).done + 1)
  else s
/-- The retire completion is applied at step 2 (R291): pinned requests of the old epoch end, the others carry the new bank. -/
def State.retireComplete (s : State) : State :=
  let w := s.weights.sw
  if w.st = 4 ∧ w.retired then
    let nb := s.newBank
    let s := s.reqs.foldl (fun s e =>
      if e.2.d.pin ∧ e.2.epoch ≠ w.epoch then (match e.2.st with | .suspended _ => s | _ => s.failReq e.1 e.2 0x41 0)
      else if e.2.d.pin then s else (s.setBank e.1 e.2 nb).1) s
    let s := s.bankSt (!nb) (fun k => k == .compute) .idle
    (s.modWeights fun v => { v with sw := { members := w.members } }).count 0x531008
  else s

/-! ## Scrubbing (R296, Table 9.8) -/

/-- The master rows of a position are rewritten from the array. -/
def State.masterFromArray (s : State) (b : Bool) (st p : Nat) : State :=
  let rd := s.readBack b st p
  let old := s.masterRow b st
  s.putMaster b st (s.shard b st).hdr fun q => if q = p then rd else old q
/-- A shard's part of the master area is rebuilt from its arrays (R295). -/
def State.rebuildShard (s : State) (b : Bool) (st : Nat) : State := s.putMaster b st (s.shard b st).hdr (s.readBack b st)
/-- A core is taken as faulty: it asks for a planned coppicing (R367). -/
def State.suspectCore (s : State) (st c : Nat) : State := s.modCore st c fun x => { x with suspect := true }
/-- What follows a scrub read (Table 9.8); an array and a master copy both wrong in COMPUTE leave no copy on the module: fault stop
(DESIGN CHOICE, log 126); `a`, `m`: array and master agree with ACRC. -/
def State.scrubOutcome (s : State) (b : Bool) (st p : Nat) (a m computing : Bool) : State :=
  if a && m then s
  else
    let row := if !a && m then (if computing then 3 else 2) else if a then 4 else if computing then 6 else 5
    let s := (s.count 0x53100A).record 0x0702 0 (leBytes 1 row ++ leBytes 2 st ++ leBytes 1 p ++ leBytes 1 (b2n b)) st p
    let st' := (s.shard b st).st
    if row = 2 then
      if st' = .verified ∨ st' = .writing then
        (s.modShard b st fun h => { h with st := .writing, done := h.done &&& ~~~(BitVec.ofNat 16 (2 ^ p)) }).pumpWrites
      else s
    else if row = 4 then s.masterFromArray b st p
    else if row = 5 then (if st' = .verified ∨ st' = .writing then s.wantShard b st else s)
    else if row = 3 then s.suspectCore st ((s.stand st).coreAt p)
    else s.faultStop 0x0702
/-- Shard of an address of the master areas (R309): bank and stand. -/
def masterShard (a : Nat) : Bool × Nat := (decide (66632960000 ≤ a), (a - 64000000000) % 2632960000 / 526592)
/-- The arrays of a shard may be read: those in COMPUTE only in a clearing beat (R36). -/
def State.mayReadShard (s : State) (b : Bool) (st : Nat) : Bool :=
  (List.range 16).all fun p =>
    let c := (s.stand st).coreAt p
    !((s.core st c).bank b).usable || s.clearingCore st c
/-- Master bursts that read uncorrectable: the shard is rebuilt from the arrays (Table 12.3), as soon as these may be read (R36). -/
def State.repairMaster (s : State) : State :=
  let ready := fun (a : Nat) => s.mayReadShard (masterShard a).1 (masterShard a).2
  let l := s.weights.masterErr.filter ready
  let s := s.modWeights fun w => { w with masterErr := w.masterErr.filter fun a => !ready a }
  l.foldl (fun s a =>
    let q := masterShard a
    if (s.shard q.1 q.2).st = .verified then s.rebuildShard q.1 q.2 else s) s
/-- Ticks of the scrub interval. -/
def State.scrubTicks (s : State) : Nat := sec (s.setting 0x31000D 86400)
/-- A round begins with the first read an interval after the last one began, unless scrubbing is off (R296). -/
def State.scrubRound (s : State) : State :=
  let w := s.weights
  if w.scrubLeft = [] ∧ s.scrubTicks ≠ 0 ∧ (w.scrubStart + s.scrubTicks ≤ s.time.tick ∨ w.scrubStart = 0) then
    s.modWeights fun w => { w with scrubLeft := s.scrubAll, scrubStart := s.time.tick, scrubAsap := false }
  else s
/-- Tick at which the read of an array is due (R296): at its point in the interval (log 109), or at once in a round of SCRUB_NOW. -/
def State.scrubPoint (s : State) (key : Nat) : Nat :=
  s.weights.scrubStart + if s.weights.scrubAsap then 0 else Config.scrubPoint key % max 1 s.scrubTicks
/-- The read of an array is due. -/
def State.scrubDue (s : State) (key : Nat) : Bool := decide (key ∈ s.weights.scrubLeft ∧ s.scrubPoint key ≤ s.time.tick)
/-- The array is being written or coppiced, or holds nothing (Table 9.10). -/
def State.scrubSkips (s : State) (b : Bool) (st p : Nat) : Bool :=
  let k := ((s.core st ((s.stand st).coreAt p)).bank b).st
  decide (k ≠ .idle ∧ k ≠ .compute) || (match (s.stand st).coppice with | some q => decide (q.pos = p) | none => false)
/-- The scrub read of an array (R296): read back, compared with its ACRC, with the master area and, last of its shard, with DIGEST. -/
def State.scrubArray (s : State) (b : Bool) (st p : Nat) (last : Bool) : State :=
  if s.scrubSkips b st p then s
  else
    let h := s.shard b st
    let rd := arrayBytes (s.readBack b st p)
    let ms := arrayBytes (s.masterRow b st p)
    let dig := !last || digestOk h.hdr ((List.range 16).flatMap fun q => arrayBytes (s.readBack b st q))
    (s.masterRead b st p).scrubOutcome b st p (acrcOk h.hdr p rd && (dig || decide (rd = ms))) (acrcOk h.hdr p ms)
      (decide (((s.core st ((s.stand st).coreAt p)).bank b).st = .compute))
/-- SCRUB_READ (R296): the array's due read; in COMPUTE only in a clearing beat (R36); a start in a shortened one is withheld and
counted (R201). -/
def execScrubRead (bankB : Bool) (st : StandId) (p : Pos) (s : State) : Res :=
  let c := (s.stand st).coreAt p
  let k := ((s.core st c).bank bankB).st
  let s := s.scrubRound
  let key := b2n bankB * 80000 + st.val * 16 + p.val
  if !s.scrubDue key ∨ (k = .compute ∧ !s.clearingCore st c) then .next s
  else if k = .compute ∧ s.shortened ∧ !s.forcedOpen st then .next (s.count 0x520006)
  else
    let left := s.weights.scrubLeft.erase key
    let t := s.scrubArray bankB st p (!(left.any fun n => n / 16 == key / 16))
    let t := (t.modWeights fun w => { w with scrubLeft := left }).repairMaster
    .next (if left = [] then t.count 0x531009 else t)
/-- Master areas after POR or COLD reset (R295): every shard is rebuilt by reading back; one that fails its DIGEST, or of which no valid
copy was installed, becomes WANTED. -/
def State.rebuildAreas (s : State) : State :=
  [false, true].foldl (fun s b =>
    if (s.version b).epoch = 0 then s
    else allStands.foldl (fun s st =>
      let h := s.shard b st
      if h.st = .verified ∧ digestOk h.hdr ((List.range 16).flatMap fun p => arrayBytes (s.readBack b st p)) then s.rebuildShard b st
      else (s.wantShard b st).record 0x0701 0 (leBytes 2 st ++ leBytes 1 (b2n b)) st) s) s

/-! ## Adapter slots (R298, R299) -/

/-- Result of an adapter command. -/
def State.adapterResult (s : State) (op code : Nat) : State := (s.modWeights fun w => { w with ares := op * 256 + code }).due 16
/-- One segment at slot offset o of an image that ends at `e` is well formed (Table 5.7, R298 step 3). -/
def segmentOk (img : List Byte) (o e : Nat) : Bool :=
  let f := fun (k n : Nat) => field img (o - 64 + k) n
  let r := f 2 1
  let din := f 4 2
  let dout := f 6 2
  let al := 20 + r * din + dout * r
  decide (1 ≤ r ∧ r ≤ 64 ∧ 1 ≤ din ∧ din ≤ 32768 ∧ 1 ≤ dout ∧ dout ≤ 32768 ∧ o + al + 8 * dout ≤ e) &&
  zeros img (o - 64 + 3) 1 && decide (f 12 1 < 64) && zeros img (o - 64 + 13) 3 &&
  (List.range dout).all fun k => decide (f (al + 8 * k + 4) 1 < 64) && zeros img (o - 64 + al + 8 * k + 5) 3
/-- The segment chain from slot offset o; `fuel` bounds it (a segment takes at least 30 bytes). -/
def chainOk (img : List Byte) : Nat → Nat → List Nat → Bool
  | 0, _, _ => false
  | f + 1, o, seen =>
    let e := 64 + img.length
    let m := field img (o - 64) 2
    let next := field img (o - 64 + 16) 4
    if o + 20 ≤ e then
      segmentOk img o (if next = 0 then e else next) && !seen.contains m &&
      (if next = 0 then true else decide (o < next ∧ next % 8 = 0 ∧ next < e) && chainOk img f next (m :: seen))
    else false
/-- The image is valid; an empty image has no segments (R300). -/
def imageOk (img : List Byte) : Bool := decide (img = []) || chainOk img (img.length / 30 + 1) 64 []
/-- Identifier is LIVE or LOADING on the module. -/
def State.identHeld (s : State) (ident : Nat) : Bool :=
  (List.range 4096).any fun n => let h := s.slotHdr n; decide (h.ident = ident ∧ (h.st = 1 ∨ h.st = 2))
/-- LOAD (R298). -/
def State.adapterLoad (s : State) (ident off len : Nat) (digest : List Byte) : State :=
  if ident = 0 ∨ off % 8 ≠ 0 ∨ 16777152 < len ∨ 64000000000 < off + len then s.adapterResult 1 5
  else if s.identHeld ident then s.adapterResult 1 1
  else match (List.range 4096).find? fun n => (s.slotHdr n).st = 0 with
    | none => s.adapterResult 1 7
    | some n =>
      let img := s.tierRead true off len foresterNode
      let h : ASlot := { ident, gen := ((s.slotHdr n).gen + 1) % 65536, st := 1, refs := 0, first := if len = 0 then 0 else 64,
                         length := len, digest := slice digest 0 32 }
      let s := (img.2.putSlotHdr n h).tierWrite false (n * 16777216 + 64) img.1 foresterNode
      if sha256 img.1 = slice digest 0 32 ∧ imageOk img.1 then
        (s.modWeights fun w => { w with mapDue := w.mapDue ++ [(ident, n)] }).adapterResult 1 0
      else ((s.putSlotHdr n { gen := h.gen }).count 0x532002).adapterResult 1 6
/-- ADAPTER_LOAD. -/
def execAdapterLoad (ident : Word) (offset : DWord) (length : Word) (digest : List Byte) (s : State) : Res :=
  .next (s.adapterLoad ident.toNat offset.toNat length.toNat digest)
/-- REMOVE (R298): of an identifier that is LIVE. -/
def State.adapterRemove (s : State) (ident : Nat) : State :=
  match (List.range 4096).find? fun n => decide (ident ≠ 0 ∧ (s.slotHdr n).ident = ident ∧ (s.slotHdr n).st = 2) with
  | none => s.adapterResult 2 (if ident = 0 then 5 else 1)
  | some n =>
    ((s.putSlotHdr n { s.slotHdr n with st := 3 }).modWeights fun w => { w with unmapDue := w.unmapDue ++ [ident] }).adapterResult 2 0
/-- ADAPTER_REMOVE. -/
def execAdapterRemove (ident : Word) (s : State) : Res := .next (s.adapterRemove ident.toNat)
/-- An adapter command block (R298). -/
def State.adapterCmd (s : State) (b : List Byte) : State :=
  let op := field b 0 1
  if op = 1 then s.adapterLoad (field b 4 4) (field b 8 8) (field b 16 4) (slice b 32 32)
  else if op = 2 then s.adapterRemove (field b 4 4)
  else s.adapterResult op 5
/-- Adapter effects at a boundary (R298, R299): unmapping, then mapping (a REMOVE precedes the LOAD of its identifier, R301), retired slots without references become FREE. -/
def State.adapterBoundary (s : State) : State :=
  let due := s.weights.mapDue
  let s := s.modWeights fun w => { w with mapDue := [], unmapDue := [], idMap := w.idMap.filter fun e => e.1 ∉ w.unmapDue }
  let s := due.foldl (fun s e =>
    ((s.putSlotHdr e.2 { s.slotHdr e.2 with st := 2 }).modWeights fun w =>
      { w with idMap := Tab.set 0 w.idMap e.1 (e.2 + 1) }).count 0x532001) s
  (List.range 4096).foldl (fun s n =>
    let h := s.slotHdr n
    if h.st = 3 ∧ h.refs = 0 then (s.putSlotHdr n { gen := h.gen }).count 0x532003 else s) s

end Sys2Proof.Machine
end

