-- ==== Sys2Proof/Machine/Control.lean ====
section
/-! DEFINITION. The instructions that the stand controller executes at issue (06 sections 6.3, 6.6): control, tiles, windows,
banks, barriers. `eff…` is what an instruction does when it issues. -/

namespace Sys2Proof.Machine

/-! ## Control (R154, R155) -/

/-- NOP. -/
def execNop (st : StandId) (s : State) : Res := .next (s.issue st (.nop st) true id)

/-- LI. -/
def effLi (st : Nat) (gd : Nat) (imm : Word) (s : State) : State := s.modStand st fun x => x.putReg gd imm
/-- LI. -/
def execLi (st : StandId) (gd : Reg) (imm : Word) (s : State) : Res := .next (s.issue st (.li st gd imm) true (effLi st gd imm))

/-- Operation FUNC of ALU (R154). -/
def aluOp (f : Nat) (a b : Word) : Word :=
  match f with
  | 0 => a + b
  | 1 => a - b
  | 2 => a &&& b
  | 3 => a ||| b
  | 4 => a ^^^ b
  | 5 => a <<< (b.toNat % 32)
  | 6 => a >>> (b.toNat % 32)
  | 7 => a.sshiftRight (b.toNat % 32)
  | 8 => a * b
  | 9 => if a.slt b then 1 else 0
  | _ => if a.ult b then 1 else 0
/-- ALU. -/
def effAlu (st gd ga gb : Nat) (immf : Bool) (func : Nat) (imm : BitVec 16) (s : State) : State :=
  s.modStand st fun x => x.putReg gd (aluOp func (x.reg ga) (if immf then imm.signExtend 32 else x.reg gb))
/-- ALU; FUNC 11 to 15 are outside R154. -/
def execAlu (st : StandId) (gd ga gb : Reg) (immf : Bool) (func : Fin 16) (imm : BitVec 16) (s : State) : Res :=
  if func.val ≤ 10 then .next (s.issue st (.alu st gd ga gb immf func imm) true (effAlu st gd ga gb immf func imm))
  else .refused .illFormed

/-- LDW: one word through requester 16. -/
def effLdw (st gd ga : Nat) (off : BitVec 16) (s : State) : State :=
  let r := s.readWords st 16 0x03 (wa (s.g st ga + off.toNat)) 1
  r.2.modStand st fun x => x.putReg gd (r.1.headD 0)
/-- LDW. -/
def execLdw (st : StandId) (gd ga : Reg) (off : BitVec 16) (s : State) : Res :=
  .next (s.issue st (.ldw st gd ga off) true (effLdw st gd ga off))
/-- STW: one word through requester 16. -/
def effStw (st gs ga : Nat) (off : BitVec 16) (s : State) : State :=
  s.writeWords st 16 0x04 (wa (s.g st ga + off.toNat)) [(s.stand st).reg gs]
/-- STW. -/
def execStw (st : StandId) (gs ga : Reg) (off : BitVec 16) (s : State) : Res :=
  .next (s.issue st (.stw st gs ga off) true (effStw st gs ga off))

/-- Condition of BR (R154). -/
def brTaken (cond : Nat) (a b : Word) : Bool :=
  match cond with
  | 0 => true
  | 1 => a == b
  | 2 => a != b
  | 3 => a.slt b
  | 4 => !a.slt b
  | 5 => a.ult b
  | _ => !a.ult b
/-- BR. -/
def effBr (st cond ga gb target : Nat) (s : State) : State :=
  s.modStand st fun x => if brTaken cond (x.reg ga) (x.reg gb) then { x with pc := target } else x
/-- BR; COND 7 is outside R154. -/
def execBr (st : StandId) (cond : Fin 8) (ga gb : Reg) (target : Fin 16384) (s : State) : Res :=
  if cond.val ≤ 6 then .next (s.issue st (.br st cond ga gb target) true (effBr st cond ga gb target))
  else .refused .illFormed

/-- BEND (R177): no further instruction issues in the beat. -/
def effBend (st : Nat) (s : State) : State := s.modStand st fun x => { x with bended := true }
/-- BEND. -/
def execBend (st : StandId) (s : State) : Res := .next (s.issue st (.bend st) true (effBend st))
/-- The controller passes beyond its image without BEND (R180): as BEND, with a record. Nothing issues, so nothing is counted. -/
def effImplicitBend (st : Nat) (s : State) : State := (effBend st s).programErr st 0xFF 180 (s.stand st).pc
/-- IMPLICIT_BEND: the program counter has passed the stand's image; nothing is held back there. -/
def execImplicitBend (st : StandId) (s : State) : Res :=
  if s.inBeat st ∧ s.pastImage st then .next (effImplicitBend st s) else .next s

/-- WAIT (R176). -/
def execWait (st : StandId) (cores : BitVec 16) (dmu vec net dma tile : Bool) (s : State) : Res :=
  .next (s.issue st (.wait st cores dmu vec net dma tile) ((s.stand st).waitMet cores dmu vec net dma tile) id)

/-- Filled flags of window k as they read (Table 6.5). -/
def State.filledFlags (s : State) (st k : Nat) : BitVec 32 := ((s.stand st).credit.win k).flags
/-- Value of an RDCTL selector (Table 6.5). -/
def State.rdctl (s : State) (st arg sel : Nat) : Word :=
  match sel with
  | 0 => BitVec.ofNat 32 s.time.beat
  | 1 => BitVec.ofNat 32 (s.time.beat / 2 ^ 32 % 65536)
  | 2 => BitVec.ofNat 32 (s.slotOf s.time.beat)
  | 3 => s.filledFlags st arg
  | 4 => (s.stand st).voidFlags.setWidth 32
  | 5 => BitVec.ofNat 32 (s.fillMask st)
  | 6 => BitVec.ofNat 32 st
  | _ => BitVec.ofNat 32 (s.node st).inc
/-- RDCTL (R155): the value read, then the bits read as 1 cleared. -/
def effRdctl (st gd : Nat) (clr : Bool) (arg sel : Nat) (s : State) : State :=
  let v := s.rdctl st arg sel
  s.modStand st fun x =>
    let x := x.putReg gd v
    if clr ∧ sel = 3 then { x with credit := x.credit.modWin arg fun w => { w with flags := w.flags &&& ~~~v } }
    else if clr ∧ sel = 4 then { x with voidFlags := x.voidFlags &&& ~~~(v.setWidth 16) }
    else x
/-- RDCTL. -/
def execRdctl (st : StandId) (gd : Reg) (clr : Bool) (arg : WSlot) (sel : Fin 8) (s : State) : Res :=
  .next (s.issue st (.rdctl st gd clr arg sel) true (effRdctl st gd clr arg sel))

/-! ## Tiles (R77, R159) -/

/-- Close the open tile, when one is open. -/
def Stand.closeTile (x : Stand) : Stand :=
  match x.tile with
  | some t => { x with tile := none, tiles := x.tiles ++ [t] }
  | none => x
/-- TOPEN: the sentinel threshold and mode are latched (R77); an open tile is closed first, with a record. -/
def effTopen (st num word : Nat) (s : State) : State :=
  let s := if (s.stand st).tile.isSome then s.programErr st 0x18 159 (s.idx st) else s
  let th := bits word 47 32
  let th := if th = 0xFFFF then s.setting 0x222001 16 else th
  let mode := s.setting 0x222002 1
  s.modStand st fun x =>
    let x := x.closeTile
    { x with tileSeq := x.tileSeq + 1,
             tile := some { uid := x.tileSeq + 1, num := num, word := BitVec.ofNat 64 word, thresh := th, mode := mode,
                            fmt := bits word 28 26 } }
/-- Sentinel word of a tile in the current binary. -/
def State.tileWord (s : State) (n : Nat) : Option Nat := s.binary.current.bind fun b => conTileWord b n
/-- TOPEN: held while four tiles await their verdicts; a tile absent from the tile table cannot be installed (R189). -/
def execTopen (st : StandId) (tile : BitVec 16) (s : State) : Res :=
  match s.tileWord tile.toNat with
  | some w => .next (s.issue st (.topen st tile) (s.stand st).tileRoom (effTopen st tile.toNat w))
  | none => .refused .illFormed
/-- TCLOSE; with no tile open only a record (R159). -/
def effTclose (st : Nat) (s : State) : State :=
  if (s.stand st).tile.isSome then s.modStand st Stand.closeTile else s.programErr st 0x19 159 (s.idx st)
/-- TCLOSE. -/
def execTclose (st : StandId) (s : State) : Res := .next (s.issue st (.tclose st) true (effTclose st))

/-! ## Windows and banks (R106, R115, R118, R160, R484) -/

/-- Deadline of a gate wait that starts now (R115): 2,000 ticks. -/
def State.gateDeadline (s : State) : Nat := s.time.tick + 2000
/-- Windows that lie in bank b over any of the rows first to first + count − 1 (R106). -/
def CreditUnit.overlaps (u : CreditUnit) (b first count : Nat) : Bool :=
  (u.inBank b).any fun k => decide (first < (u.win k).first + (u.win k).count ∧ (u.win k).first < first + count)
/-- WOPEN (R106): opened, or refused with a record and the slot unchanged. -/
def effWopen (st slot bank first count : Nat) (s : State) : State :=
  let x := s.stand st
  let p := (x.bank bank).power
  if (x.credit.win slot).st ≠ .closed ∨ x.credit.overlaps bank first count ∨ p = .off ∨ p = .closing then
    s.log { cls := 0x0204, sev := 3, unit := st, sub := bank, opcode := 0x20,
            detail := leBytes 1 slot ++ leBytes 1 bank ++ leBytes 1 first ++ leBytes 1 count }
  else
    s.modStand st fun x => { x with credit := x.credit.modWin slot fun w =>
      { w with st := .opened, bank := bank, first := first, count := count, rows := [], flags := 0, fill := [], deadline := 0 } }
/-- Checks of R189 on WOPEN: 1 to 32 rows within the bank. -/
def wopenFields (first : RowNo) (count : Fin 64) : Bool := decide (1 ≤ count.val ∧ first.val + count.val ≤ 32)
/-- The bank is WAKING: WOPEN and BPDN are held at issue (Table 6.8). -/
def State.waking (s : State) (st b : Nat) : Bool := ((s.stand st).bank b).power = .waking
/-- WOPEN. -/
def execWopen (st : StandId) (slot : WSlot) (bank : SBank) (first : RowNo) (count : Fin 64) (s : State) : Res :=
  if wopenFields first count then
    .next (s.issue st (.wopen st slot bank first count) (!s.waking st bank) (effWopen st slot bank first count))
  else .refused .illFormed

/-- The close action on a window slot of node n (R115, R484): queued requests are answered BANK_OFF, and a full pool closes at
once. -/
def State.closeWindow (s : State) (n slot : Nat) : State :=
  if ((s.credit n).win slot).st = .opened then
    ((s.modCredit n fun u => u.modWin slot fun w =>
      { w with st := .closing, deadline := s.gateDeadline }).serveQueue n).settle n
  else s
/-- WCLOSE. -/
def execWclose (st : StandId) (slot : WSlot) (s : State) : Res :=
  .next (s.issue st (.wclose st slot) true fun s => s.closeWindow st slot)

/-- WREL (R160, R112): FILLED rows named become FREE; every other row named is recorded. The freed rows serve the queue before
a later request, and a closing pool that is now full closes. -/
def effWrel (st slot : Nat) (rows : BitVec 32) (s : State) : State :=
  let w := (s.stand st).credit.win slot
  let named := (List.range 32).filter fun r => rows.getLsbD r
  let good := named.filter fun r => (w.row r).isFilled
  let s := (named.filter fun r => !(w.row r).isFilled).foldl (fun s _ => s.programErr st 0x22 160 (s.idx st)) s
  let s := s.modStand st fun x => { x with credit := x.credit.modWin slot fun w => good.foldl (fun w r => w.putRow r .free) w }
  (s.serveQueue st).settle st
/-- WREL. -/
def execWrel (st : StandId) (slot : WSlot) (rows : BitVec 32) (s : State) : Res :=
  .next (s.issue st (.wrel st slot rows) true (effWrel st slot rows))

/-- BPDN (R115, R484): the bank and its windows enter CLOSING; a full pool takes the bank OFF at once. -/
def effBpdn (st b : Nat) (s : State) : State :=
  if ((s.stand st).bank b).power = .on then
    let d := s.gateDeadline
    let s := s.modStand st fun x =>
      let x := x.modBank b fun k => { k with power := .closing, deadline := d }
      { x with credit := (x.credit.inBank b).foldl (fun u k => u.modWin k fun w =>
          if w.st = .opened then { w with st := .closing, deadline := d } else w) x.credit }
    (s.serveQueue st).settle st
  else s
/-- BPDN. -/
def execBpdn (st : StandId) (bank : SBank) (s : State) : Res :=
  .next (s.issue st (.bpdn st bank) (!s.waking st bank) (effBpdn st bank))

/-- BWAKE (R118, R160): OFF becomes WAKING; every word is cleared. -/
def effBwake (st b : Nat) (s : State) : State :=
  if ((s.stand st).bank b).power = .off then s.modStand st fun x => (x.clearBank b).modBank b fun k => { k with power := .waking }
  else s
/-- BWAKE. -/
def execBwake (st : StandId) (bank : SBank) (s : State) : Res :=
  .next (s.issue st (.bwake st bank) true (effBwake st bank))
/-- BANK_WAKE_DONE: the 1,200 cycles have passed (R118). -/
def execBankWakeDone (st : StandId) (bank : SBank) (s : State) : Res :=
  if s.waking st bank then .next (s.modStand st fun x => x.modBank bank fun k => { k with power := .on }) else .next s

/-- GATE_WAIT_EXPIRY (R115): the deadline of a bank or of a window closed alone, or before its bank, has come. -/
def execGateWaitExpiry (st : StandId) (g : GateItem) (s : State) : Res :=
  match g with
  | .bank b =>
    let k := (s.stand st).bank b
    if k.power = .closing ∧ k.deadline ≤ s.time.tick then .next (s.forceBank st b) else .next s
  | .window k =>
    let w := (s.stand st).credit.win k
    let b := (s.stand st).bank w.bank
    if w.st = .closing ∧ w.deadline ≤ s.time.tick ∧ (b.power ≠ .closing ∨ w.deadline < b.deadline) then .next (s.forceWindow st k)
    else .next s

/-! ## Barriers (R165, R226) -/

/-- Misuse of a barrier: counted and recorded. -/
def State.barrierMisuse (s : State) (st opcode : Nat) : State := (s.count 0x525006).programErr st opcode 165 (s.idx st)
/-- BARV: the arrival; on an extended channel the last local arrival makes the flag unit arrive (R356). -/
def effBarv (st c : Nat) (s : State) : State :=
  if !s.participates c st ∨ s.phase c < (s.stand st).arrivalsOn c then s.barrierMisuse st 0x30
  else (s.modStand st fun x =>
    { x with arrivals := Tab.set 0 x.arrivals c (x.arrivalsOn c + 1), arrived := Tab.set false x.arrived c true }).flagCheck c
/-- BARV. -/
def execBarv (st : StandId) (chan : Fin 64) (s : State) : Res := .next (s.issue st (.barv st chan) true (effBarv st chan))
/-- BWT once it issues: a misuse does not wait, and is counted and recorded. -/
def effBwt (st c : Nat) (s : State) : State :=
  if s.participates c st ∧ (s.stand st).hasArrived c then s else s.barrierMisuse st 0x31
/-- BWT. -/
def execBwt (st : StandId) (chan : Fin 64) (s : State) : Res :=
  .next (s.issue st (.bwt st chan) (!s.bwtWaits st chan) (effBwt st chan))

end Sys2Proof.Machine
end

