-- ==== Sys2Proof/Machine/Dmu.lean ====
section
/-! DEFINITION. The dynamic matrix unit (05 R123 to R135, 06 R166): operand buffers, matrix operations, write-out, adapters. -/

namespace Sys2Proof.Machine

/-! ## Operand buffers (R126) -/

/-- Buffer X or Y. -/
def Dmu.buf (d : Dmu) (y : Bool) : Tab Byte := if y then d.bufY else d.bufX
/-- Elements that a buffer holds at a width. -/
def bufCap (w : Nat) : Nat := if w = 4 then 65536 else 32768
/-- Element idx of a buffer read at width w, as its bits; 4-bit elements low half first. -/
def bufElem (b : Tab Byte) (w idx : Nat) : Nat :=
  let i := idx % bufCap w
  if w = 4 then (Tab.get 0 b (i / 2)).toNat / 16 ^ (i % 2) % 16 else (Tab.get 0 b i).toNat
/-- Store element idx at width w. -/
def bufPut (b : Tab Byte) (w idx v : Nat) : Tab Byte :=
  let i := idx % bufCap w
  if w = 4 then
    let o := (Tab.get 0 b (i / 2)).toNat
    Tab.set 0 b (i / 2) (BitVec.ofNat 8 (if i % 2 = 0 then o / 16 * 16 + v % 16 else v % 16 * 16 + o % 16))
  else Tab.set 0 b i (BitVec.ofNat 8 v)
/-- Store elements from index idx upward. -/
def bufPuts (b : Tab Byte) (w : Nat) : Nat → List Nat → Tab Byte
  | _, [] => b
  | i, v :: vs => bufPuts (bufPut b w i v) w (i + 1) vs
/-- Load a buffer: its elements and its recorded width (R126). -/
def Dmu.load (d : Dmu) (y : Bool) (w idx : Nat) (vs : List Nat) : Dmu :=
  if y then { d with bufY := bufPuts d.bufY w idx vs, wy := w } else { d with bufX := bufPuts d.bufX w idx vs, wx := w }
/-- XLD (R166): A8 or A4 elements at the header's width; any other FMT loads zeros, with a record. A range that
runs beyond the vector's COUNT reads the words that follow as elements (DESIGN CHOICE, log 121). -/
def State.doXld (s : State) (st : Nat) (y : Bool) (a start count didx : Nat) : State :=
  let r := s.readWords st 17 0x38 a 1
  let f := (decVec (r.1.headD 0)).fmt
  if f = 2 ∨ f = 4 then
    let e := perWord f
    let q := r.2.readWords st 17 0x38 (a + 1 + start / e) (ceilDiv (start % e + count) e)
    let vs := (List.range count).map fun i => rawElem f q.1 (start % e + i)
    q.2.modStand st fun x => { x with dmu := x.dmu.load y (fmtBits f) didx vs }
  else
    (r.2.modStand st fun x => { x with dmu := x.dmu.load y 8 didx (List.replicate count 0) }).operandErr st 0x38 166 f

/-! ## MMA (R124, R92, R93, R126) -/

/-- Widths that a mode takes for X and for Y (R126). -/
def widthOk (mode : Nat) (y : Bool) (w : Nat) : Bool :=
  if mode = 1 then w == 4 else if mode = 0 ∧ y then w == 8 || w == 4 else w == 8
/-- Operand code at an index; a buffer of another width reads as zeros. -/
def Dmu.operand (d : Dmu) (mode : Nat) (y : Bool) (idx : Nat) : Nat :=
  let w := if y then d.wy else d.wx
  if widthOk mode y w then bufElem (d.buf y) w idx else 0
/-- Integer operand. -/
def Dmu.intOp (d : Dmu) (mode : Nat) (y : Bool) (idx : Nat) : Int :=
  let w := if y then d.wy else d.wx
  signedOf w (d.operand mode y idx)
/-- Product of one FP8 pair in units of 2^−18, and whether it was rounded; a NaN or infinite operand is 0 (R93). -/
def fp8prod (xf yf : Bool) (a b : Nat) : Int × Bool :=
  match fp8 xf a, fp8 yf b with
  | some x, some y => fp8mul x y
  | _, _ => (0, false)
/-- Term k of C(i, j). -/
def Dmu.term (d : Dmu) (mode kk xb yb : Nat) (xf yf : Bool) (i j k : Nat) : Int × Bool :=
  let xi := xb + i * kk + k
  let yi := yb + k * 32 + j
  if mode = 2 then fp8prod xf yf (d.operand mode false xi) (d.operand mode true yi)
  else (d.intOp mode false xi * d.intOp mode true yi, false)
/-- Accumulator value as stored: 48 bits extended for modes 0 and 1, 64 bits for mode 2 (Table 5.1). -/
def accStore (mode : Nat) (v : Int) : DWord :=
  if mode = 2 then BitVec.ofInt 64 v else (BitVec.ofInt 48 v).signExtend 64
/-- A set of accumulators. -/
def Dmu.set (d : Dmu) (k : Nat) : Tab DWord := if k = 0 then d.set0 else d.set1
/-- Cells of an M × N operation in row order. -/
def cellsOf (m n : Nat) : List (Nat × Nat) := (List.range m).flatMap fun i => (List.range n).map fun j => (i, j)
/-- Run an operation into set `d.count mod 2` (R166). -/
def Dmu.mma (d : Dmu) (mode m n k : Nat) (add xf yf : Bool) (xb yb : Nat) : Dmu :=
  let t := d.set (d.count % 2)
  let t' := (cellsOf m n).foldl (fun a c =>
    let v := ((List.range k).map fun e => (d.term mode k xb yb xf yf c.1 c.2 e).1).sum
    Tab.set 0 a (c.1 * 32 + c.2) (accStore mode ((if add then (Tab.get 0 t (c.1 * 32 + c.2)).toInt else 0) + v))) t
  if d.count % 2 = 0 then { d with set0 := t', mode0 := some mode, count := d.count + 1 }
  else { d with set1 := t', mode1 := some mode, count := d.count + 1 }
/-- Products rounded (R93). -/
def Dmu.rounded (d : Dmu) (m n k : Nat) (xf yf : Bool) (xb yb : Nat) : Nat :=
  ((cellsOf m n).map fun c =>
    ((List.range k).filter fun e => (d.term 2 k xb yb xf yf c.1 c.2 e).2).length).sum
/-- NaN and infinite operands of an FP8 operation, each element of X and Y once (R93, log 17). -/
def Dmu.nonFinite (d : Dmu) (m n k : Nat) (xf yf : Bool) (xb yb : Nat) : Nat :=
  ((cellsOf m k).filter fun c => (fp8 xf (d.operand 2 false (xb + c.1 * k + c.2))).isNone).length +
  ((cellsOf k n).filter fun c => (fp8 yf (d.operand 2 true (yb + c.1 * 32 + c.2))).isNone).length
/-- MMA: the records of R126 and R93, the counters, the operation. -/
def State.doMma (s : State) (st mode m n k : Nat) (add xf yf : Bool) (xb yb : Nat) : State :=
  let d := (s.stand st).dmu
  let s := if widthOk mode false d.wx && widthOk mode true d.wy then s else s.operandErr st 0x39 126 mode
  let s := if mode = 2 then
      let bad := d.nonFinite m n k xf yf xb yb
      let s := (s.count 0x524001 (d.rounded m n k xf yf xb yb)).count 0x524002 bad
      if bad = 0 then s else s.operandErr st 0x39 93 2
    else s
  s.modStand st fun x => { x with dmu := x.dmu.mma mode m n k add xf yf xb yb }

/-! ## MWO (R127) -/

/-- fp32(value) × s (Table 5.2), to nearest without flushing. -/
def mwoF32 (mode : Nat) (v : Int) (scale : Word) : Word :=
  let f := if mode = 2 then (if v = 0 then 0 else roundDy (decide (v < 0)) v.natAbs (-18) false) else intToF32 v false
  match f32val f, f32val scale with
  | .fin s m e, .fin t n g => mulFl (.fin s m e) (.fin t n g) false
  | a, b => mulFl a b false
/-- Write-out mode against the mode of the set (R127). -/
def mwoBad (wmode : Nat) (mode : Option Nat) : Bool :=
  match mode with
  | none => false
  | some m => (wmode == 0 && m == 2) || (wmode == 1 && m != 2)
/-- Words of one row of the output. -/
def mwoRow (wmode mode : Nat) (zero : Bool) (vs : List DWord) (scale : Word) : List Word :=
  if wmode = 0 then
    encVec { pend := false, fmt := 7, signed := true, tile := 0, count := vs.length } ::
      rawVector (vs.map fun v => if zero then 0 else v.truncate 48)
  else if wmode = 1 then
    vs.flatMap fun (v : DWord) => if zero then [0, 0] else [v.truncate 32, (v >>> 32).truncate 32]
  else vs.map fun v => if zero then 0 else mwoF32 mode v.toInt scale
/-- MWO: M rows, consecutive from the destination; a set that no MMA has written writes zeros (Table 6.9). -/
def State.doMwo (s : State) (st wmode set m n a : Nat) (scale : Word) : State :=
  let d := (s.stand st).dmu
  let mode := if set = 0 then d.mode0 else d.mode1
  let bad := mwoBad wmode mode
  let ws := (List.range m).flatMap fun i =>
    mwoRow wmode (mode.getD 0) (bad || mode.isNone) ((List.range n).map fun j => Tab.get 0 (d.set set) (i * 32 + j)) scale
  let s := if bad then s.operandErr st 0x3A 127 wmode else s
  s.writeWords st 17 0x3A a ws

/-! ## Adapters (R133 to R135) -/

/-- An adapter segment's header (Table 5.7) with its offset in the slot. -/
structure Segment where
  off : Nat
  rank : Nat
  din : Nat
  dout : Nat
  ma : Int
  sa : Nat
  deriving DecidableEq, Repr

/-- Find the segment of a matrix; `fuel` bounds the chain. The reads go through the tier-A codes. -/
def State.segment (st base matrix : Nat) : Nat → Nat → State → Option Segment × State
  | 0, _, s => (none, s)
  | f + 1, o, s =>
    if o = 0 ∨ 16777216 ≤ o then (none, s)
    else
      let r := s.tierRead false (base + o) 20 st
      if field r.1 0 2 = matrix then
        (some { off := o, rank := field r.1 2 1, din := field r.1 4 2, dout := field r.1 6 2,
                ma := signedOf 32 (field r.1 8 4), sa := bits (field r.1 12 1) 5 0 }, r.2)
      else State.segment st base matrix f (field r.1 16 4) r.2
/-- The segment that a handle and a matrix name, none on a handle fault (R135). -/
def State.handleSegment (s : State) (st : Nat) (handle : Word) (matrix : Nat) : Option Segment × State :=
  let n := bits handle.toNat 27 16
  let r := s.tierRead false (n * 16777216) 64 st
  let h := s.slotHdr n
  if (h.st = 2 ∨ h.st = 3) ∧ h.gen = bits handle.toNat 15 0 then State.segment st (n * 16777216) matrix 838861 h.first r.2
  else (none, r.2)
/-- A handle fault (R135): counted, recorded, and the serving engine is told; once for each ADA and each ADB that faults, those of one
batch row alike (DESIGN CHOICE, log 122). -/
def State.handleFault (s : State) (st opcode : Nat) (handle : Word) (matrix : Nat) : State :=
  let s := (s.count 0x524003).record 0x0302 0 (leBytes 4 handle.toNat ++ leBytes 2 matrix) (unit := st) (opcode := opcode)
  { s with serving := { s.serving with faultErr := s.serving.faultErr ++ [(handle.toNat, 1)] } }
/-- Signed A8 byte. -/
def a8 (b : Byte) : Int := b.toInt
/-- n free accumulator values (log 9). -/
def State.freeAccs (s : State) (n : Nat) : List Acc × State :=
  ((List.range n).map fun i => (Config.freeDWord (s.freeCtr + i)).truncate 48, { s with freeCtr := s.freeCtr + n })
/-- A RAW48 vector at a destination, written by the DMU. -/
def State.dmuRaw (s : State) (st opcode a : Nat) (vs : List Acc) : State := s.writeRaw st 17 opcode a vs
/-- ADA (R134, R166): partial sums g(k). The spec states no sum for a vector of FMT 6 or 7, for an invalid COUNT, or for inputs
beyond DIN: those sums are free (log 18). -/
def State.doAda (s : State) (st : Nat) (handle : Word) (a dst matrix start : Nat) : State :=
  let q := s.handleSegment st handle matrix
  match q.1 with
  | none => (q.2.handleFault st 0x3B handle matrix).dmuRaw st 0x3B dst (List.replicate 64 0)
  | some g =>
    let v := q.2.readVector st 17 0x3B a
    let h := v.1
    let base := bits handle.toNat 27 16 * 16777216 + g.off + 20
    if 5 < h.fmt ∨ h.count = 0 ∨ 1024 < h.count ∨ g.din < start + h.count then
      let r := v.2.2.freeAccs g.rank
      r.2.dmuRaw st 0x3B dst r.1
    else
      let s := v.2.2
      let rows := (List.range g.rank).map fun k => s.tierBytes false (base + k * g.din + start) h.count
      let s := (List.range g.rank).foldl (fun s k => (s.tierRead false (base + k * g.din + start) h.count st).2) s
      let sums := rows.map fun row =>
        BitVec.ofInt 48 (row.zipIdx.map fun e => a8 e.1 * elemInt h.fmt h.signed v.2.1 e.2).sum
      s.dmuRaw st 0x3B dst sums
/-- Rounding of R73 without a clip, for the alignment of y(o). -/
def alignY (y m : Int) (sh : Nat) : Int := requantV y m sh 0
/-- ADB (R134, R166): h(k), then y'(o). Outputs at or above DOUT, and every output of a vector that is not RAW48 of RANK
elements, are free (log 18). -/
def State.doAdb (s : State) (st : Nat) (handle : Word) (a dst matrix start count : Nat) : State :=
  let q := s.handleSegment st handle matrix
  match q.1 with
  | none => (q.2.handleFault st 0x3C handle matrix).dmuRaw st 0x3C dst (List.replicate count 0)
  | some g =>
    let v := q.2.readVector st 17 0x3C a
    if v.1.fmt ≠ 7 ∨ v.1.count ≠ g.rank then
      let r := v.2.2.freeAccs count
      r.2.dmuRaw st 0x3C dst r.1
    else
      let gs := (List.range g.rank).map fun k => requantV (rawAcc v.2.1 k).toInt g.ma g.sa 0
      let s := v.2.2.count 0x524004 (gs.filter fun x => clips (-128) 127 x).length
      let hs := gs.map fun x => clip (-128) 127 x
      let base := bits handle.toNat 27 16 * 16777216 + g.off + 20 + g.rank * g.din
      let al := base + g.dout * g.rank
      let n := min count (g.dout - start)
      let ys := (List.range n).map fun i =>
        let o := start + i
        let row := s.tierBytes false (base + o * g.rank) g.rank
        let y := (row.zipIdx.map fun e => a8 e.1 * hs.getD e.2 0).sum
        let e := s.tierBytes false (al + 8 * o) 8
        BitVec.ofInt 48 (alignY y (signedOf 32 (field e 0 4)) (bits (field e 4 1) 5 0))
      let s := (s.tierRead false (base + start * g.rank) (n * g.rank) st).2
      let s := (s.tierRead false (al + 8 * start) (8 * n) st).2
      let r := s.freeAccs (count - n)
      r.2.dmuRaw st 0x3C dst (ys ++ r.1)

/-! ## The queue (R150, R171) -/

/-- Run one DMU instruction. -/
def State.runDmu (s : State) (st : Nat) (o : DmuOp) : State :=
  match o with
  | .xld y a start count didx => s.doXld st y a start count didx
  | .mma mode m n k add xf yf xb yb => s.doMma st mode m n k add xf yf xb yb
  | .mwo wmode set m n a scale => s.doMwo st wmode set m n a scale
  | .ada h a d m start => s.doAda st h a d m start
  | .adb h a d m start count => s.doAdb st h a d m start count
/-- An instruction that reads a vector waits for its PEND (R68). -/
def Stand.dmuReady (x : Stand) (o : DmuOp) : Bool :=
  match o with
  | .xld _ a _ _ _ => !x.pendAt a
  | .ada _ a _ _ _ => !x.pendAt a
  | .adb _ a _ _ _ _ => !x.pendAt a
  | .mma .. | .mwo .. => true
/-- Begin the head of the queue while it can begin; `fuel` is the queue's length. -/
def State.pumpDmu (st : Nat) : Nat → State → State
  | 0, s => s
  | f + 1, s =>
    match (s.stand st).dmuQ with
    | [] => s
    | o :: t =>
      if (s.stand st).dmuReady o then State.pumpDmu st f ((s.modStand st fun x => { x with dmuQ := t }).runDmu st o) else s
/-- Enqueue for the DMU and begin what can begin. -/
def State.dmuOp (s : State) (st : Nat) (o : DmuOp) : State :=
  let s := s.modStand st fun x => { x with dmuQ := x.dmuQ ++ [o] }
  State.pumpDmu st (s.stand st).dmuQ.length s
/-- Room in the queue of 8 and the two that the engine holds (R150, R151). -/
def Stand.dmuRoom (x : Stand) : Bool := decide (x.dmuQ.length < 10)

/-- XLD. -/
def effXld (st : Nat) (y : Bool) (ga gb count : Nat) (didx : BitVec 16) (s : State) : State :=
  s.dmuOp st (.xld y (wa (s.g st ga)) (bits (s.g st gb) 15 0) count didx.toNat)
/-- XLD; COUNT 1 to 1,024 (R189). -/
def execXld (st : StandId) (bufY : Bool) (ga gb : Reg) (count : Fin 2048) (didx : BitVec 16) (s : State) : Res :=
  if 1 ≤ count.val ∧ count.val ≤ 1024 then
    .next (s.issue st (.xld st bufY ga gb count didx) (s.stand st).dmuRoom (effXld st bufY ga gb count didx))
  else .refused .illFormed
/-- MMA. -/
def effMma (st mode mm1 nm1 km1 : Nat) (acc xf yf : Bool) (gb : Nat) (s : State) : State :=
  s.dmuOp st (.mma mode (mm1 + 1) (nm1 + 1) (km1 + 1) acc xf yf (bits (s.g st gb) 15 0) (bits (s.g st gb) 31 16))
/-- Checks of R189 on MMA: MODE 3 is reserved, K at most 1,024 in modes 0 and 2 (R124). -/
def mmaFields (mode : Fin 4) (km1 : Fin 2048) : Bool := decide (mode.val ≠ 3 ∧ (mode.val = 1 ∨ km1.val ≤ 1023))
/-- MMA. -/
def execMma (st : StandId) (mode : Fin 4) (mm1 nm1 : Fin 32) (km1 : Fin 2048) (acc xf yf : Bool) (gb : Reg) (s : State) : Res :=
  if mmaFields mode km1 then
    .next (s.issue st (.mma st mode mm1 nm1 km1 acc xf yf gb) (s.stand st).dmuRoom (effMma st mode mm1 nm1 km1 acc xf yf gb))
  else .refused .illFormed
/-- MWO. -/
def effMwo (st wmode set mm1 nm1 gd gs : Nat) (s : State) : State :=
  s.dmuOp st (.mwo wmode set (mm1 + 1) (nm1 + 1) (wa (s.g st gd)) ((s.stand st).reg gs))
/-- MWO; WMODE 3 is reserved (Table 5.2). -/
def execMwo (st : StandId) (wmode : Fin 4) (set : Fin 2) (mm1 nm1 : Fin 32) (gd gs : Reg) (s : State) : Res :=
  if wmode.val ≠ 3 then
    .next (s.issue st (.mwo st wmode set mm1 nm1 gd gs) (s.stand st).dmuRoom (effMwo st wmode set mm1 nm1 gd gs))
  else .refused .illFormed
/-- ADA. -/
def effAda (st gh gx gd : Nat) (matrix : BitVec 16) (gi : Nat) (s : State) : State :=
  s.dmuOp st (.ada ((s.stand st).reg gh) (wa (s.g st gx)) (wa (s.g st gd)) matrix.toNat (bits (s.g st gi) 15 0))
/-- ADA. -/
def execAda (st : StandId) (gh gx gd : Reg) (matrix : BitVec 16) (gi : Reg) (s : State) : Res :=
  .next (s.issue st (.ada st gh gx gd matrix gi) (s.stand st).dmuRoom (effAda st gh gx gd matrix gi))
/-- ADB. -/
def effAdb (st gh gg gd : Nat) (matrix : BitVec 16) (go : Nat) (s : State) : State :=
  s.dmuOp st (.adb ((s.stand st).reg gh) (wa (s.g st gg)) (wa (s.g st gd)) matrix.toNat (bits (s.g st go) 15 0)
    (bits (s.g st go) 26 16))
/-- ADB. -/
def execAdb (st : StandId) (gh gg gd : Reg) (matrix : BitVec 16) (go : Reg) (s : State) : Res :=
  .next (s.issue st (.adb st gh gg gd matrix go) (s.stand st).dmuRoom (effAdb st gh gg gd matrix go))

end Sys2Proof.Machine
end

