-- ==== Sys2Proof/Machine/Sends.lean ====
section
/-! DEFINITION. Router outbound and DMA (06 R161 to R164), and the packets that a stand receives (04, 07, 10). -/

namespace Sys2Proof.Machine

/-! ## The router outbound queue -/

/-- Entry held for a row (R161). -/
def Stand.entry (x : Stand) (dest window row : Nat) : Option SenderEntry :=
  x.sender.find? fun e => e.dest = dest ∧ e.window = window ∧ e.row = row
/-- A write under an entry: its count rises; FINAL removes it (R162). -/
def Stand.useEntry (x : Stand) (dest window row : Nat) (final : Bool) : Stand :=
  let hit := fun (e : SenderEntry) => decide (e.dest = dest ∧ e.window = window ∧ e.row = row)
  if final then { x with sender := x.sender.filter fun e => !hit e }
  else { x with sender := updFirst hit (fun e => { e with writes := e.writes + 1 }) x.sender }
/-- Entries taken: held, and reserved for outstanding CREQs (R161). -/
def Stand.taken (x : Stand) : Nat := x.sender.length + (x.creqs.map fun c => c.msg.count).sum
/-- The head of the outbound queue can begin: CREQ by free entries (R161), vectors by PEND (R68). -/
def Stand.outReady (x : Stand) : Bool :=
  match x.outQ with
  | [] => false
  | .creq _ m :: _ => decide (x.taken + m.count ≤ 256)
  | .rwr _ _ _ src vec :: _ => !(vec && x.pendAt src)
  | .mwr _ _ _ src vec :: _ => !(vec && x.pendAt src)
  | .red _ _ _ _ _ _ src :: _ => !x.pendAt (bits src 15 0)
/-- Room in the queue of 32: an instruction that waits on PEND, and the next, are with the engine (R150, R151). -/
def Stand.outRoom (x : Stand) : Bool :=
  match x.outQ with
  | .creq _ _ :: _ => decide (x.outQ.length < 32)
  | _ => decide (x.outQ.length < 34)

/-- A CREQ leaves (R161). -/
def State.sendCreq (s : State) (st dest : Nat) (m : CreqMsg) : State :=
  (s.modStand st fun x => { x with creqs := x.creqs ++ [{ dest, msg := m }] }).send (s.packet st dest (.creq m))
/-- One unicast write under an entry (R162). -/
def State.sendWrite (s : State) (st dest : Nat) (h : WriteHdr) (gen : Nat) (ws : List Word) : State :=
  (s.modStand st fun x => x.useEntry dest h.window h.row h.final).send (s.packet st dest (.write { h with gen := gen } ws))
/-- RWR (R162). -/
def State.doRwr (s : State) (st idx dest : Nat) (h : WriteHdr) (src : Nat) : State :=
  match (s.stand st).entry dest h.window h.row with
  | none => (s.count 0x525005).programErr st 0x29 162 idx
  | some e =>
    let r := s.readWords st 20 0x29 (wa src) h.length
    r.2.sendWrite st dest h e.gen r.1
/-- MWR (R162, R214, R216). -/
def State.doMwr (s : State) (st _idx desc : Nat) (h : WriteHdr) (src : Nat) : State :=
  let d0 := s.readWords st 20 0x2A (wa desc) 1
  let d := if bit (d0.1.headD 0).toNat 31 then d0.2.readWords st 20 0x2A (wa (desc + 1)) 8 else ([], d0.2)
  let rt := decRoute (d0.1 ++ d.1)
  let s := d.2
  if routeMalformed rt then
    (s.count 0x526007).log { cls := 0x0404, sev := 3, unit := st, opcode := 0x2A,
                             detail := leBytes 4 (d0.1.headD 0).toNat }
  else
    let r := s.readWords st 20 0x2A (wa src) h.length
    let s := r.2
    let ds := (routeStands rt).map fun n => (n, (s.stand st).entry n h.window h.row)
    let gens := ds.map fun e => e.2.map fun x => x.gen
    match gens with
    | some g :: t =>
      if t.all fun x => x = some g then
        (ds.foldl (fun s e => s.modStand st fun x => x.useEntry e.1 h.window h.row h.final) s).send
          (s.packet st 0 (.mcast rt { h with gen := g } r.1))
      else ds.foldl (fun s e => match e.2 with
        | some x => s.sendWrite st e.1 h x.gen r.1
        | none => s.count 0x525005) (s.count 0x526006)
    | _ => ds.foldl (fun s e => match e.2 with
        | some x => s.sendWrite st e.1 h x.gen r.1
        | none => s.count 0x525005) (s.count 0x526006)
/-- Parts of a reduction vector (R217): at most 32 elements each. -/
def redParts : Nat → Nat → List Acc → List (Nat × List Acc)
  | 0, _, _ => []
  | f + 1, k, vs => if vs = [] then [] else (k, vs.take 32) :: redParts f (k + 1) (vs.drop 32)
/-- RED (R163, R217). `g` is g[GS]. -/
def State.doRed (s : State) (st idx dest rid : Nat) (lead : Bool) (window row g : Nat) : State :=
  let v := s.readWords st 20 0x2B (bits g 15 0) 1
  let h := decVec (v.1.headD 0)
  if h.fmt ≠ 7 ∨ h.count = 0 ∨ 1024 < h.count then v.2.programErr st 0x2B 163 idx
  else
    let rows := (List.range (ceilDiv (1 + 2 * h.count) 64)).map (· + row)
    let es := rows.map fun r => (v.2.stand st).entry dest window r
    if lead ∧ es.any Option.isNone then (v.2.count 0x525005).programErr st 0x2B 162 idx
    else
      let e := v.2.readWords st 20 0x2B (bits g 15 0 + 1) (2 * h.count)
      let gen := if lead then match es.headD none with | some x => x.gen | none => 0 else 0
      let s := if lead then rows.foldl (fun s r => s.modStand st fun x => x.useEntry dest window r true) e.2 else e.2
      let vs := (List.range h.count).map fun i => rawAcc e.1 i
      (redParts 32 0 vs).foldl (fun s p => s.send (s.packet st dest (.reduce
        { rid, part := p.1, nc := bits g 28 16, carried := 1, lead, window, row, gen, count := h.count, elems := p.2 }))) s
/-- Begin the head of the outbound queue while it can begin; `fuel` is the queue's length. -/
def State.pumpOut (st : Nat) : Nat → State → State
  | 0, s => s
  | f + 1, s =>
    if (s.stand st).outReady then
      match (s.stand st).outQ with
      | [] => s
      | o :: t =>
        let s := s.modStand st fun x => { x with outQ := t }
        State.pumpOut st f (match o with
          | .creq d m => s.sendCreq st d m
          | .rwr i d h a _ => s.doRwr st i d h a
          | .mwr i d h a _ => s.doMwr st i d h a
          | .red i d r l w k g => s.doRed st i d r l w k g)
    else s
/-- Enqueue for the router outbound and begin what can begin. -/
def State.outOp (s : State) (st : Nat) (o : OutOp) : State :=
  let s := s.modStand st fun x => { x with outQ := x.outQ ++ [o] }
  State.pumpOut st (s.stand st).outQ.length s

/-- Units that a packet can name: node numbers up to 5,106 (R210, Table 10.3). -/
def destField (d : BitVec 13) : Bool := decide (d.toNat < 5107)
/-- Checks of R189 on CREQ (Table 4.6). -/
def creqFields (dest : BitVec 13) (count : Fin 64) (mode : Bool) (row : RowNo) : Bool :=
  destField dest && decide (1 ≤ count.val ∧ count.val ≤ 32) && (if mode then decide (count.val = 1) else decide (row.val = 0))
/-- CREQ (R161). -/
def effCreq (st : Nat) (dest : BitVec 13) (m : CreqMsg) (s : State) : State := s.outOp st (.creq dest.toNat m)
/-- CREQ. -/
def execCreq (st : StandId) (dest : BitVec 13) (window : WSlot) (count : Fin 64) (mode : Bool) (row : RowNo)
    (tag : BitVec 16) (s : State) : Res :=
  if creqFields dest count mode row then
    .next (s.issue st (.creq st dest window count mode row tag) (s.stand st).outRoom
      (effCreq st dest { window, count, mode, row, tag := tag.toNat }))
  else .refused .illFormed

/-- Checks of R189 on RWR and MWR (Table 4.8). -/
def writeFields (offset : Fin 64) (length : Fin 128) (final : Bool) (nwrites : Fin 128) : Bool :=
  decide (1 ≤ length.val ∧ offset.val + length.val ≤ 64) &&
  (if final then decide (1 ≤ nwrites.val ∧ nwrites.val ≤ 64) else decide (nwrites.val = 0))
/-- RWR (R162). -/
def effRwr (st dest : Nat) (h : WriteHdr) (src : Nat) (vec : Bool) (s : State) : State :=
  s.outOp st (.rwr (s.idx st) dest h src vec)
/-- RWR. -/
def execRwr (st : StandId) (dest : BitVec 13) (window : WSlot) (row : RowNo) (offset : Fin 64) (length : Fin 128)
    (final : Bool) (nwrites : Fin 128) (gs : Reg) (vec : Bool) (s : State) : Res :=
  if destField dest ∧ writeFields offset length final nwrites then
    .next (s.issue st (.rwr st dest window row offset length final nwrites gs vec) (s.stand st).outRoom
      (effRwr st dest.toNat { window, row, gen := 0, offset, length, final, nwrites, reserved := 0 } (s.g st gs) vec))
  else .refused .illFormed
/-- MWR (R162, R214). -/
def effMwr (st desc : Nat) (h : WriteHdr) (src : Nat) (vec : Bool) (s : State) : State :=
  s.outOp st (.mwr (s.idx st) desc h src vec)
/-- MWR. -/
def execMwr (st : StandId) (gm : Reg) (window : WSlot) (row : RowNo) (offset : Fin 64) (length : Fin 128)
    (final : Bool) (nwrites : Fin 128) (gs : Reg) (vec : Bool) (s : State) : Res :=
  if writeFields offset length final nwrites then
    .next (s.issue st (.mwr st gm window row offset length final nwrites gs vec) (s.stand st).outRoom
      (effMwr st (s.g st gm) { window, row, gen := 0, offset, length, final, nwrites, reserved := 0 } (s.g st gs) vec))
  else .refused .illFormed
/-- RED (R163). -/
def effRed (st dest rid : Nat) (lead : Bool) (window row g : Nat) (s : State) : State :=
  s.outOp st (.red (s.idx st) dest rid lead window row g)
/-- RED. -/
def execRed (st : StandId) (dest : BitVec 13) (rid : BitVec 16) (lead : Bool) (window : WSlot) (row : RowNo) (gs : Reg)
    (s : State) : Res :=
  if destField dest then
    .next (s.issue st (.red st dest rid lead window row gs) (s.stand st).outRoom
      (effRed st dest.toNat rid.toNat lead window row (s.g st gs)))
  else .refused .illFormed

/-! ## DMA (R164, R314) -/

/-- The one or two MEMREQs of n words from word address w: none crosses a 256-byte unit (R314). -/
def splitUnit (w n : Nat) : List (Nat × Nat) :=
  let a := min n (64 - w % 64)
  if a < n then [(w, a), (w + a, n - a)] else [(w, n)]
/-- Send a memory request and remember it (R314, R327). -/
def State.sendMem (s : State) (st : Nat) (tierB : Bool) (m : MemReq) : State :=
  let node := endpointOf tierB (4 * m.waddr)
  let k := (s.stand st).nextTag
  let m := { m with tag := k % 256 }
  (s.modStand st fun x => { x with mems := x.mems ++ [(k, { node, req := m })], nextTag := k + 1 }).send
    (s.packet st node (.memreq m))
/-- Requests of one window row (R164, R314): FINAL and NWRITES on the highest address. -/
def rowReqs (tierB : Bool) (w n window row gen : Nat) : List MemReq :=
  let ps := splitUnit w n
  ps.zipIdx.map fun e =>
    let fin := e.2 + 1 = ps.length
    { op := 2, tierB, lock := false, tag := 0, wm1 := e.1.2 - 1, waddr := e.1.1, data := [],
      whdr := some { window, row, gen, offset := e.1.1 - w, length := e.1.2, final := fin,
                     nwrites := if fin then ps.length else 0, reserved := 0 } }
/-- Requests of a departure from word address w (R164). -/
def wordReqs (tierB : Bool) : Nat → Nat → List Word → List MemReq
  | 0, _, _ => []
  | f + 1, w, ws =>
    if ws = [] then []
    else
      let n := min ws.length (64 - w % 64)
      { op := 1, tierB, lock := false, tag := 0, wm1 := n - 1, waddr := w, data := ws.take n, whdr := none } ::
        wordReqs tierB f (w + n) (ws.drop n)
/-- Window rows that an arrival of `words` words fills. -/
def dmaRows (row words : Nat) : List Nat := (List.range (ceilDiv words 64)).map (· + row)
/-- A DMA can start (R164). -/
def State.dmaStarts (s : State) (st : Nat) (dir tierB : Bool) (addr window row words : Nat) : Bool :=
  decide (addr + 4 * words ≤ tierSize tierB ∧ addr % 4 = 0) &&
  (dir || (dmaRows row words).all fun r =>
    decide (r < ((s.stand st).credit.win window).count) && ((s.stand st).entry st window r).isSome)
/-- The DMA engine begins an instruction (R164): started, or a record and complete. -/
def State.runDma (s : State) (st : Nat) (o : DmaOp) : State :=
  if !s.dmaStarts st o.dir o.tierB o.addr o.window o.row o.words then s.programErr st 0x2C 164 o.idx
  else
    let k := (s.stand st).nextTag
    if o.dir then
      let r := s.readWords st 20 0x2C (wa o.src) o.words
      let qs := wordReqs o.tierB o.words (o.addr / 4) r.1
      let s := r.2.modStand st fun x =>
        { x with dma := some { window := o.window, rows := [], tags := (List.range qs.length).map (· + k) } }
      qs.foldl (fun s m => s.sendMem st o.tierB m) s
    else
      let rows := dmaRows o.row o.words
      let s := s.modStand st fun x => { x with dma := some { window := o.window, rows, tags := [] } }
      rows.zipIdx.foldl (fun s e =>
        let gen := match (s.stand st).entry st o.window e.1 with | some x => x.gen | none => 0
        let s := s.modStand st fun x => x.useEntry st o.window e.1 true
        (rowReqs o.tierB (o.addr / 4 + 64 * e.2) (min 64 (o.words - 64 * e.2)) o.window e.1 gen).foldl
          (fun s m => s.sendMem st o.tierB m) s) s
/-- The engine runs one DMA at a time, in queue order (R151); `fuel` is the queue's length. -/
def State.pumpDma (st : Nat) : Nat → State → State
  | 0, s => s
  | f + 1, s =>
    match (s.stand st).dma, (s.stand st).dmaQ with
    | none, o :: t => State.pumpDma st f ((s.modStand st fun x => { x with dmaQ := t }).runDma st o)
    | _, _ => s
/-- Begin what the DMA engine of a stand can begin. -/
def State.nextDma (s : State) (st : Nat) : State := State.pumpDma st (s.stand st).dmaQ.length s
/-- DMA: it enters its queue. -/
def effDma (st : Nat) (dir tierB : Bool) (addr window row words src : Nat) (s : State) : State :=
  let i := s.idx st
  (s.modStand st fun x => { x with dmaQ := x.dmaQ ++ [{ idx := i, dir, tierB, addr, window, row, words, src }] }).nextDma st
/-- Room in the queue of 16, with the next instruction that the engine holds (R150, R151). -/
def Stand.dmaRoom (x : Stand) : Bool := decide (x.dmaQ.length < 17)
/-- Checks of R164 and R189 on DMA: WORDS 1 to 2,048, GA even. -/
def dmaFields (words : Fin 4096) (ga : Reg) : Bool := decide (1 ≤ words.val ∧ words.val ≤ 2048 ∧ ga.val % 2 = 0)
/-- DMA. -/
def execDma (st : StandId) (dir tierB : Bool) (ga : Reg) (window : WSlot) (row : RowNo) (words : Fin 4096) (gs : Reg)
    (s : State) : Res :=
  if dmaFields words ga then
    .next (s.issue st (.dma st dir tierB ga window row words gs) (s.stand st).dmaRoom
      (effDma st dir tierB (s.g st ga + s.g st (ga.val + 1) * 2 ^ 32) window row words (s.g st gs)))
  else .refused .illFormed

/-! ## Port endpoints as senders (R348) -/

/-- Words of a RELAY frame's row. -/
def frameRow (f : Frame) : List Word := beWords (f.payload.drop 16)
/-- Every credit of a row in delivery is there: it enters the mesh (R348), as R215 and R216 send it. -/
def State.epDeliver (s : State) (node : Nat) (h : Holding) : State :=
  let hdr : WriteHdr := { window := h.window, row := h.row, gen := 0, offset := 0, length := 64, final := true, nwrites := 1,
                          reserved := 0 }
  let ws := frameRow h.frame
  let d := decRelay true h.frame.payload
  let s := (s.modEndpoint node fun e => { e with holding := e.holding.erase h }).count 0x52800A
  let gens := h.dests.map fun e => e.2.getD 0
  match gens with
  | [] => s
  | g :: t =>
    if d.kind = 2 ∧ t.all (fun x => x = g) then
      s.send (s.packet node 0 (.mcast (decRoute [BitVec.ofNat 32 d.dest]) { hdr with gen := g } ws))
    else
      let s := if d.kind = 2 then s.count 0x526006 else s
      h.dests.foldl (fun s e => s.send (s.packet node e.1 (.write { hdr with gen := e.2.getD 0 } ws))) s
/-- Rows in delivery that are complete leave. -/
def State.epPump (s : State) (node : Nat) : State :=
  ((s.endpoint node).holding.filter fun h => h.dests.all fun e => e.2.isSome).foldl (fun s h => s.epDeliver node h) s
/-- An answer to an endpoint's CREQ. -/
def State.epGrant (s : State) (node src : Nat) (m : CgrantMsg) : State :=
  (s.modEndpoint node fun e => { e with holding := e.holding.map fun h =>
    if h.tag ≠ m.tag ∨ h.window ≠ m.window then h
    else if m.status = 0 then { h with dests := h.dests.map fun d => if d.1 = src then (d.1, some m.gen) else d }
    else if m.status = 3 then { h with dests := h.dests.filter fun d => d.1 ≠ src }
    else { h with refused := h.refused ++ [(src, s.time.tick)] } }).epPump node
/-- A credit of a row in delivery was voided: it is asked for again at the resend point. -/
def State.epVoid (s : State) (node src : Nat) (m : CgrantMsg) : State :=
  s.modEndpoint node fun e => { e with holding := e.holding.map fun h =>
    if h.window = m.window ∧ h.dests.contains (src, some m.gen) ∧ m.mask.getLsbD h.row then
      { h with dests := h.dests.map fun d => if d.1 = src then (d.1, none) else d, refused := h.refused ++ [(src, s.time.tick)] }
    else h }
/-- An AWAY answers a CREQ or a MEMREQ of an endpoint (R327). -/
def Endpoint.refuse (e : Endpoint) (src rtype : Nat) (w : Word × Word) (tick : Nat) : Endpoint :=
  if rtype = 0 then
    let f := fun (h : Holding) =>
      if h.tag = w.1.toNat % 65536 ∧ h.dests.contains (src, none) then { h with refused := h.refused ++ [(src, tick)] } else h
    { e with holding := e.holding.map f }
  else if rtype = 5 then
    let hit := fun (m : OutMem) => decide (m.node = src ∧ m.refused = none ∧ firstTwo (.memreq m.req) = w)
    { e with mems := updFirst hit (fun m => { m with refused := some tick }) e.mems }
  else e
/-- A MEMRSP settles a delivery into a tier: it is complete (R348). -/
def State.epMemrsp (s : State) (node src tag : Nat) : State :=
  if (s.endpoint node).mems.any fun m => m.node = src ∧ m.req.tag = tag then
    (s.modEndpoint node fun e => { e with mems := e.mems.eraseP fun m => m.node = src ∧ m.req.tag = tag }).count 0x52800A
  else s
/-- CREQ of an endpoint for one row (R348). -/
def State.epCreq (s : State) (node dst : Nat) (h : Holding) : State :=
  s.send (s.packet node dst (.creq { window := h.window, count := 1, mode := true, row := h.row, tag := h.tag }))
/-- Resend what was refused at or before tick t (R327). -/
def State.epResend (s : State) (node t : Nat) : State :=
  let e := s.endpoint node
  let hs := e.holding.flatMap fun h => (h.refused.filter fun r => decide (r.2 ≤ t)).map fun r => (h, r.1)
  let old : OutMem → Bool := fun m => match m.refused with | some k => decide (k ≤ t) | none => false
  let ms := e.mems.filter old
  let s := s.modEndpoint node fun e =>
    { e with holding := e.holding.map fun h => { h with refused := h.refused.filter fun r => decide (t < r.2) },
             mems := e.mems.map fun m => if old m then { m with refused := none } else m }
  let s := hs.foldl (fun s h => s.epCreq node h.2 h.1) s
  ms.foldl (fun s m => s.send (s.packet node m.node (.memreq m.req))) s

/-! ## Packets received -/

/-- CREQ_RECEIVE (R108, R120): a unit in reset answers AWAY. -/
def execCreqReceive (node : NodeId) (p : Packet) (s : State) : Res :=
  if !s.inOrder p then .next s
  else
    let s := s.take p
    match p.body with
    | .creq m => .next (if s.isAway node then s.answerAway p else s.answerCreq node { src := p.src, sinc := p.sinc, msg := m })
    | _ => .next s
/-- A CGRANT with an earlier incarnation of its receiver or of the granting stand (R120). -/
def State.staleGrant (s : State) (node : Nat) (p : Packet) : Bool :=
  let k := Tab.get 0 (s.knownBy node) p.src
  (p.dincv && decide (p.dinc ≠ (s.node node).inc)) || (decide (k ≠ 0) && incEarlier p.sinc k)
/-- The credits a void or an AWAY takes away, and the void flag (R117, R120). -/
def Stand.voidCredit (x : Stand) (dest window : Nat) (rows : Nat → Bool) (gen : Option Nat) : Stand :=
  { x with sender := x.sender.filter fun e =>
             !(e.dest == dest && e.window == window && rows e.row && (gen.isNone || gen == some e.gen)),
           voidFlags := x.voidFlags ||| BitVec.ofNat 16 (2 ^ window) }
/-- An answer to an outstanding CREQ (R161, R108): OK sets the entries, MALFORMED releases the reservation, BANK_OFF and
CREDIT_BUSY leave it for its resend point. -/
def State.creqAnswer (s : State) (st src : Nat) (m : CgrantMsg) : State :=
  let hit := fun (c : OutCreq) => decide (c.dest = src ∧ c.msg.window = m.window ∧ c.msg.tag = m.tag ∧ c.refused = none)
  if !(s.stand st).creqs.any hit then s
  else s.modStand st fun x =>
    if m.status = 0 then
      { x with creqs := x.creqs.eraseP hit,
               sender := (x.sender.filter fun e => !(e.dest == src && e.window == m.window && m.mask.getLsbD e.row)) ++
                 ((List.range 32).filter fun r => m.mask.getLsbD r).map fun r =>
                 { dest := src, window := m.window, row := r, gen := m.gen, writes := 0 } }
    else if m.status = 3 then { x with creqs := x.creqs.eraseP hit }
    else if m.status = 1 ∨ m.status = 2 then
      { x with creqs := updFirst hit (fun c => { c with refused := some s.time.tick }) x.creqs }
    else x
/-- CGRANT_RECEIVE. -/
def execCgrantReceive (node : NodeId) (p : Packet) (s : State) : Res :=
  if !s.inOrder p then .next s
  else
    let s := s.take p
    match p.body with
    | .cgrant m =>
      if s.staleGrant node p then .next (s.count 0x523009)
      else if 5000 ≤ node.val then .next ((s.learn node p.src p.sinc).epGrant node p.src m)
      else .next ((s.learn node p.src p.sinc).creqAnswer node p.src m)
    | _ => .next s
/-- CREDIT_VOID_RECEIVE (R117, R120). -/
def execCreditVoidReceive (node : NodeId) (p : Packet) (s : State) : Res :=
  if !s.inOrder p then .next s
  else
    let s := s.take p
    match p.body with
    | .cgrant m =>
      if s.staleGrant node p then .next (s.count 0x523009)
      else if m.status ≠ 4 then .next s
      else if 5000 ≤ node.val then .next (s.epVoid node p.src m)
      else .next ((s.learn node p.src p.sinc).modStand node fun x =>
        x.voidCredit p.src m.window (fun r => m.mask.getLsbD r) (some m.gen))
    | _ => .next s

/-- Mark the request that an AWAY answers as refused; it is resent at its resend point (R120, R161, R327). -/
def Stand.refuse (x : Stand) (src rtype : Nat) (w : Word × Word) (tick : Nat) : Stand :=
  if rtype = 0 then
    let hit := fun (c : OutCreq) => decide (c.dest = src ∧ c.refused = none ∧ BitVec.ofNat 32 (encCreq c.msg) = w.1)
    { x with creqs := updFirst hit (fun c => { c with refused := some tick }) x.creqs }
  else if rtype = 2 ∨ rtype = 3 then
    let h := decHdr (w.1.toNat + w.2.toNat * 2 ^ 32)
    x.voidCredit src h.window (fun r => r = h.row) none
  else if rtype = 5 then
    let hit := fun (e : Nat × OutMem) => decide (e.2.node = src ∧ e.2.refused = none ∧ firstTwo (.memreq e.2.req) = w)
    { x with mems := updFirst hit (fun e => (e.1, { e.2 with refused := some tick })) x.mems }
  else x
/-- AWAY_RECEIVE (R120, R327, R329): an old DINC discards it. -/
def execAwayReceive (node : NodeId) (p : Packet) (s : State) : Res :=
  if !s.inOrder p then .next s
  else
    let s := s.take p
    match p.body with
    | .away rtype w0 w1 =>
      if p.dincv ∧ p.dinc ≠ (s.node node).inc then .next (s.count 0x527009)
      else if 5000 ≤ node.val then .next (s.modEndpoint node fun x => x.refuse p.src rtype (w0, w1) s.time.tick)
      else .next (s.modStand node fun x => x.refuse p.src rtype (w0, w1) s.time.tick)
    | _ => .next s

/-- A WRITE from a memory controller answers a READ_TO_WINDOW: the request is no longer outstanding (R315). -/
def Stand.dropMem (x : Stand) (src : Nat) (h : WriteHdr) : Stand :=
  { x with mems := x.mems.eraseP fun e => decide (e.2.node = src ∧ e.2.req.whdr = some h) }
/-- REMOTE_WRITE_RECEIVE (R109 to R111, R116, R120, R209, R329). -/
def execRemoteWriteReceive (node : NodeId) (p : Packet) (s : State) : Res :=
  if !s.inOrder p then .next s
  else
    let s := s.take p
    if s.isAway node then .next (s.answerAway p)
    else
      let stale : Bool := p.dincv && decide (p.dinc ≠ (s.node node).inc)
      match p.body with
      | .write h ws =>
        if 5000 ≤ p.src ∧ p.src < 5088 then
          if stale then .next (s.count 0x527009)
          else .next (((if node.val < 5000 then s.modStand node fun x => x.dropMem p.src h else s)).remoteWrite node node p.dinc false h ws)
        else .next (s.remoteWrite node p.src p.sinc stale h ws)
      | .mcast _ h ws => .next (s.remoteWrite node p.src p.sinc false h ws)
      | _ => .next s

/-- The running DMA makes progress by f; a finished one leaves (R164). -/
def Stand.dmaStep (x : Stand) (f : DmaJob → DmaJob) : Stand :=
  { x with dma := (x.dma.map f).filter fun d => !(d.rows.isEmpty && d.tags.isEmpty) }
/-- A row of a window is FILLED: a DMA arrival makes progress. -/
def Stand.dmaRow (x : Stand) (window row : Nat) : Stand :=
  x.dmaStep fun d => if d.window = window then { d with rows := d.rows.erase row } else d
/-- ROW_FILLED (R110): a complete row becomes FILLED and its flag is set. -/
def execRowFilled (node : NodeId) (slot : WSlot) (row : RowNo) (s : State) : Res :=
  match ((s.credit node).win slot).row row with
  | .granted snd n (some m) =>
    if n = m then
      let s := s.modCredit node fun u => u.modWin slot fun w =>
        { w.putRow row (.filled snd) with flags := w.flags ||| BitVec.ofNat 32 (2 ^ row.val) }
      .next (if node.val < 5000 then (s.modStand node fun x => x.dmaRow slot row).nextDma node
        else if 5088 ≤ node.val ∧ node.val < 5102 then s.relaySend node slot row else s)
    else .next s
  | _ => .next s

/-- A memory answer settles its request (R315). -/
def Stand.answerMem (x : Stand) (src tag : Nat) : Stand :=
  match x.mems.find? fun e => decide (e.2.node = src ∧ e.2.req.tag = tag) with
  | none => x
  | some e =>
    { x with mems := x.mems.eraseP fun f => decide (f.1 = e.1) }.dmaStep fun d => { d with tags := d.tags.erase e.1 }
/-- MEMRSP_RECEIVE (R315, R329, R209). -/
def execMemrspReceive (node : NodeId) (p : Packet) (s : State) : Res :=
  if !s.inOrder p then .next s
  else
    let s := s.take p
    match p.body with
    | .memrsp m =>
      if s.isAway node then .next (s.answerAway p)
      else if p.dincv ∧ p.dinc ≠ (s.node node).inc then .next (s.count 0x527009)
      else if 5000 ≤ node.val then .next ((s.learn node p.src p.sinc).epMemrsp node p.src m.tag)
      else .next (((s.learn node p.src p.sinc).modStand node fun x => x.answerMem p.src m.tag).nextDma node)
    | _ => .next s

/-! ## Resend points (R327) -/

/-- Resend what was refused at or before tick `t`. -/
def State.resend (s : State) (st t : Nat) : State :=
  let x := s.stand st
  let old : Option Nat → Bool := fun r => match r with | some k => decide (k ≤ t) | none => false
  let cs := x.creqs.filter fun c => old c.refused
  let ms := x.mems.filter fun e => old e.2.refused
  let s := s.modStand st fun x =>
    { x with creqs := x.creqs.map fun c => if old c.refused then { c with refused := none } else c,
             mems := x.mems.map fun e => if old e.2.refused then (e.1, { e.2 with refused := none }) else e }
  let s := cs.foldl (fun s c => s.send (s.packet st c.dest (.creq c.msg))) s
  ms.foldl (fun s e => s.send (s.packet st e.2.node (.memreq e.2.req))) s
/-- Latest tick of a refusal whose resend point has come: before the latest boundary, or one beat length ago (R327). -/
def Time.resendTick (t : Time) : Nat := max (t.tick - t.len) (t.start - 1)
/-- RESEND_POINT: what was refused before the latest boundary, or at least one beat length ago, is sent again. -/
def execResendPoint (node : NodeId) (s : State) : Res :=
  let t := s.time.resendTick
  if s.time.len ≤ s.time.tick ∨ 0 < s.time.start then .next (if 5000 ≤ node.val then s.epResend node t else s.resend node t) else .next s

end Sys2Proof.Machine
end

