-- ==== Sys2Proof/Machine/Vector.lean ====
section
/-! DEFINITION. The vector unit (05 R137 to R145, 06 R167, R168, R485). An instruction completes when it is handed over
(log 15): all operands are read, then all results written. -/

namespace Sys2Proof.Machine

/-! ## Elements (R95, R167) -/

/-- Words that n elements of a TYPE take. -/
def typeWords (t n : Nat) : Nat := if t = 1 then ceilDiv n 2 else n
/-- Element i of a headerless array, BF16 widened. -/
def typeElem (t : Nat) (ws : List Word) (i : Nat) : Word :=
  if t = 1 then bfWiden ((ws.getD (i / 2) 0).toNat / 65536 ^ (i % 2)) else ws.getD i 0
/-- Words of a result array; a BF16 write of an odd number ends with 0 in bits 31:16. -/
def typePack (t : Nat) : List Word → List Word
  | [] => []
  | [a] => if t = 1 then [BitVec.ofNat 32 (bfNarrow a)] else [a]
  | a :: b :: r => if t = 1 then BitVec.ofNat 32 (bfNarrow a + 65536 * bfNarrow b) :: typePack t r else a :: b :: typePack t r
/-- Read n elements at an address. -/
def State.vecIn (s : State) (st t a n : Nat) : List Word × State :=
  let r := s.readArray st 18 0x40 (wa a) (typeWords t n)
  ((List.range n).map fun i => typeElem t r.1 i, r.2)

/-- Two-operand functions 0, 1, 2, 4, 5, 6 on one element. -/
def vop2 (f t : Nat) (a b : Word) : Word :=
  if t = 2 then
    (if f = 0 then a + b else if f = 1 then a - b else if f = 2 then a * b
     else if f = 4 then (if a.slt b then b else a) else if f = 5 then (if b.slt a then b else a)
     else if a.slt b then 1 else 0)
  else
    (if f = 0 then fadd a b else if f = 1 then fsub a b else if f = 2 then fmul a b
     else if f = 4 then fmax a b else if f = 5 then fmin a b else if flt a b then 1 else 0)
/-- FMA on one element. -/
def vopFma (t : Nat) (a b c : Word) : Word := if t = 2 then a * b + c else ffma a b c
/-- SEL on one element. -/
def vopSel (t : Nat) (a b c : Word) : Word :=
  let r := if c ≠ 0 then a else b
  if t = 2 then r else canon r
/-- One-operand functions 8, 9, 11, 12, 13. -/
def vop1 (f : Nat) (a : Word) : Word :=
  if f = 8 then f2i a else if f = 9 then i2f a else if f = 11 then frecip a else if f = 12 then frsqrt a else fexp a

/-- One level of the lane tree: pairs; a node with one input passes it on (R139). -/
def laneLevel (op : Word → Word → Word) : List Word → List Word
  | a :: b :: t => op a b :: laneLevel op t
  | l => l
/-- A group of up to 32 lanes: five levels. -/
def laneGroup (op : Word → Word → Word) (l : List Word) : List Word :=
  laneLevel op (laneLevel op (laneLevel op (laneLevel op (laneLevel op l))))
/-- Groups of 32 in ascending order; `fuel` bounds their number. -/
def laneGroups (op : Word → Word → Word) : Nat → List Word → List Word
  | 0, _ => []
  | f + 1, l => if l = [] then [] else laneGroup op (l.take 32) ++ laneGroups op f (l.drop 32)
/-- Lane sum or maximum (R139). -/
def lanes (op : Word → Word → Word) (l : List Word) : Word :=
  match laneGroups op l.length l with
  | [] => 0
  | a :: t => t.foldl op a
/-- LSUM and LMAX. -/
def vopLane (f t : Nat) (l : List Word) : Word :=
  if t = 2 then lanes (fun a b => if f = 14 then a + b else if a.slt b then b else a) l
  else lanes (if f = 14 then fadd else fmax) (l.map canon)

/-- TYPE read by a function (R167). -/
def typeRead (f t : Nat) : Nat := if f = 9 then 2 else t
/-- TYPE written by a function. -/
def typeWritten (f t : Nat) : Nat := if f = 6 ∨ f = 8 then 2 else t
/-- Results of a function on arrays of n elements. -/
def vopResults (f t : Nat) (a b c : List Word) : List Word :=
  if f = 14 ∨ f = 15 then [vopLane f t a]
  else (List.range a.length).map fun i =>
    if f = 3 then vopFma t (a.getD i 0) (b.getD i 0) (c.getD i 0)
    else if f = 7 then vopSel t (a.getD i 0) (b.getD i 0) (c.getD i 0)
    else if f ≤ 6 then vop2 f t (a.getD i 0) (b.getD i 0)
    else vop1 f (a.getD i 0)

/-! ## QNT (R485) -/

/-- q of R485: the exact product over 2^s, rounded once, ties to even. -/
def qntQ (a : Word) (m : Int) (sh : Nat) : Int :=
  match f32in a with
  | .fin s n e =>
    let v : Int := (if s then -(n : Int) else n) * m
    let k : Int := e - sh
    if 0 ≤ k then v * 2 ^ k.toNat else roundHalfEven v (2 ^ (-k).toNat)
  | _ => 0
/-- y of R485. -/
def qntY (a : Word) (m : Int) (sh : Nat) (z lo hi : Int) : Int :=
  match f32in a with
  | .inf s => if s then lo else hi
  | _ => clip lo hi (qntQ a m sh + z)
/-- g[GC] names no format that QNT writes, or there are more than 1,024 elements. -/
def qntBad (gc n : Nat) : Bool := decide (5 < bits gc 2 0 ∨ (bits gc 2 0 = 5 ∧ bit gc 3 = false) ∨ 1024 < n)
/-- QNT with its register values. -/
def State.doQnt (s : State) (st t gd ga gb gc n : Nat) : State :=
  if qntBad gc n then s.operandErr st 0x40 485 (bits gc 2 0)
  else
    let f := bits gc 2 0
    let sg := bit gc 3
    let a := s.vecIn st t ga n
    let e := a.2.readWords st 18 0x40 (wa gb) 2
    let d := decEntry (e.1.getD 0 0) (e.1.getD 1 0)
    let ys := a.1.map fun x => qntY x d.1 d.2.1 d.2.2 (fmtLo f sg) (fmtHi f sg)
    e.2.writeWords st 18 0x40 (wa gd) (encVec { pend := false, fmt := f, signed := sg, tile := 0, count := n } :: packVec f n ys)
/-! ## VOP (R167, Table 6.6) -/

/-- VOP with its register values; FUNC 10 is QNT. -/
def State.doVop (s : State) (st f t d x y z n : Nat) : State :=
  if f = 10 then s.doQnt st t d x y z n
  else
    let a := s.vecIn st (typeRead f t) x n
    let b := if f ≤ 7 then a.2.vecIn st (typeRead f t) y n else ([], a.2)
    let c := if f = 3 then b.2.vecIn st t z n else if f = 7 then b.2.vecIn st 2 z n else ([], b.2)
    c.2.writeWords st 18 0x40 (wa d) (typePack (typeWritten f t) (vopResults f t a.1 b.1 c.1))

/-! ## Sampling (R142 to R145, R168) -/

/-- A candidate: value, identifier. -/
abbrev Cand := Word × Word
/-- a ranks before b (R142): value descending, then identifier ascending; a NaN below every number. -/
def rankBefore (a b : Cand) : Bool :=
  if flt b.1 a.1 then true else if flt a.1 b.1 then false else a.2.slt b.2
/-- Insert in ranked order. -/
def rankInsert (c : Cand) : List Cand → List Cand
  | [] => [c]
  | x :: t => if rankBefore c x then c :: x :: t else x :: rankInsert c t
/-- Candidates in ranked order. -/
def ranked (l : List Cand) : List Cand := l.foldl (fun a c => rankInsert c a) []
/-- Words of a candidate list. -/
def candWords (l : List Cand) : List Word := l.flatMap fun c => [c.1, c.2]
/-- VTOPK with its register values; with fewer logits than K, the candidates there are (DESIGN CHOICE, log 120). -/
def State.doVtopk (s : State) (st k d x y n : Nat) (merge : Bool) : State :=
  let r := s.readWords st 18 0x41 (wa x) (if merge then 2 * n else n)
  let cs := (List.range n).map fun i =>
    if merge then (canon (r.1.getD (2 * i) 0), r.1.getD (2 * i + 1) 0)
    else (canon (r.1.getD i 0), BitVec.ofNat 32 (y + i))
  r.2.writeWords st 18 0x41 (wa d) (candWords ((ranked cs).take k))

/-- z of R144 for a seed and a position. -/
def drawZ (seed : DWord) (n : Nat) : DWord :=
  let z := seed + BitVec.ofNat 64 n * 0x9E3779B97F4A7C15
  let z := (z ^^^ (z >>> 30)) * 0xBF58476D1CE4E5B9
  let z := (z ^^^ (z >>> 27)) * 0x94D049BB133111EB
  z ^^^ (z >>> 31)
/-- The draw u of R144. -/
def draw (seed : DWord) (n : Nat) : Word := roundRat false (drawZ seed n >>> 40).toNat (2 ^ 24)
/-- Index of the first element at which the running sum, from c, meets a test. -/
def firstSum (test : Word → Bool) : Word → Nat → List Word → Option Nat
  | _, _, [] => none
  | c, i, e :: t => if test (fadd c e) then some i else firstSum test (fadd c e) (i + 1) t
/-- Sum in ascending order. -/
def sumUp (l : List Word) : Word := match l with | [] => 0 | a :: t => t.foldl fadd a
/-- Token picked (R143). -/
def sample (cs : List Cand) (tau p u : Word) : Word :=
  let id := fun i => (cs.getD i (0, 0)).2
  if f32in tau = .fin false 0 0 ∨ f32in tau = .fin true 0 0 ∨ cs.length = 1 then id 0
  else
    let v0 := (cs.getD 0 (0, 0)).1
    let es := cs.map fun c => fexp (fmul (fsub c.1 v0) (frecip tau))
    let ps := fmul p (sumUp es)
    let keep := match firstSum (fun c => !flt c ps) 0 0 es with | some i => i + 1 | none => cs.length
    let us := fmul u (sumUp (es.take keep))
    match firstSum (fun c => flt us c) 0 0 (es.take keep) with
    | some i => id i
    | none => id (keep - 1)
/-- VSMP with its register values. -/
def State.doVsmp (s : State) (st d x k y : Nat) : State :=
  let c := s.readWords st 18 0x42 (wa x) (2 * k)
  let p := c.2.readWords st 18 0x42 (wa y) 5
  let cs := (List.range k).map fun i => (c.1.getD (2 * i) 0, c.1.getD (2 * i + 1) 0)
  let w := fun i => p.1.getD i (0 : Word)
  let u := draw ((w 2).setWidth 64 ||| ((w 3).setWidth 64 <<< 32)) (w 4).toNat
  p.2.writeWords st 18 0x42 (wa d) [sample cs (w 0) (w 1) u]

/-- Accepted guesses: the longest agreeing run from the front (R145). -/
def accepted : List Word → List Word → Nat
  | g :: gs, y :: ys => if g = y then accepted gs ys + 1 else 0
  | _, _ => 0
/-- VACC with its register values. -/
def State.doVacc (s : State) (st d x y g : Nat) : State :=
  let a := s.readWords st 18 0x43 (wa x) g
  let b := a.2.readWords st 18 0x43 (wa y) (g + 1)
  let n := accepted a.1 b.1
  let s' := b.2.writeWords st 18 0x43 (wa d) (BitVec.ofNat 32 n :: (a.1.take n ++ [b.1.getD n 0]))
  ((s'.count 0x524005 g).count 0x524006 n).count 0x524007 (n + 1)

/-! ## The vector unit queue (R150, R151) -/

/-- The vector unit runs an instruction, whole when it begins it (log 15). -/
def State.runVec (s : State) (st : Nat) (o : VecOp) : State :=
  match o with
  | .vop f t d a b c n => s.doVop st f t d a b c n
  | .qnt t d a b c n => s.doQnt st t d a b c n
  | .vtopk k d a b n m => s.doVtopk st k d a b n m
  | .vsmp d a k p => s.doVsmp st d a k p
  | .vacc d a b g => s.doVacc st d a b g
/-- Run the queue in order; `fuel` is its length. -/
def State.pumpVec (st : Nat) : Nat → State → State
  | 0, s => s
  | f + 1, s =>
    match (s.stand st).vecQ with
    | [] => s
    | o :: t => State.pumpVec st f ((s.modStand st fun x => { x with vecQ := t }).runVec st o)
/-- Enqueue for the vector unit and begin what can begin. -/
def State.vecOp (s : State) (st : Nat) (o : VecOp) : State :=
  let s := s.modStand st fun x => { x with vecQ := x.vecQ ++ [o] }
  State.pumpVec st (s.stand st).vecQ.length s
/-- Room in the queue of 8 and the two that the engine holds. -/
def Stand.vecRoom (x : Stand) : Bool := decide (x.vecQ.length < 10)

/-- QNT. -/
def effQnt (st t gd ga gb gc cm1 : Nat) (s : State) : State :=
  s.vecOp st (.qnt t (s.g st gd) (s.g st ga) (s.g st gb) (s.g st gc) (cm1 + 1))
/-- QNT; TYPE 2 and 3 are refused at installation (R167). -/
def execQnt (st : StandId) (type : Fin 4) (gd ga gb gc : Reg) (cm1 : Fin 4096) (s : State) : Res :=
  if type.val ≤ 1 then .next (s.issue st (.qnt st type gd ga gb gc cm1) (s.stand st).vecRoom (effQnt st type gd ga gb gc cm1))
  else .refused .illFormed
/-- VOP. -/
def effVop (st f t gd ga gb gc cm1 : Nat) (s : State) : State :=
  s.vecOp st (.vop f t (s.g st gd) (s.g st ga) (s.g st gb) (s.g st gc) (cm1 + 1))
/-- Checks of R167 and R189 on VOP. -/
def vopFields (func : Fin 64) (type : Fin 4) : Bool :=
  decide (func.val ≤ 15 ∧ type.val ≤ 2 ∧ (type.val = 2 → func.val ≤ 7 ∨ 14 ≤ func.val))
/-- VOP. -/
def execVop (st : StandId) (func : Fin 64) (type : Fin 4) (gd ga gb gc : Reg) (cm1 : Fin 4096) (s : State) : Res :=
  if vopFields func type then
    .next (s.issue st (.vop st func type gd ga gb gc cm1) (s.stand st).vecRoom (effVop st func type gd ga gb gc cm1))
  else .refused .illFormed
/-- VTOPK. -/
def effVtopk (st km1 gd ga gb cm1 : Nat) (merge : Bool) (s : State) : State :=
  s.vecOp st (.vtopk (km1 + 1) (s.g st gd) (s.g st ga) (s.g st gb) (cm1 + 1) merge)
/-- VTOPK; with MERGE the count is 2K (R168). -/
def execVtopk (st : StandId) (km1 : Fin 64) (gd ga gb : Reg) (cm1 : Fin 4096) (merge : Bool) (s : State) : Res :=
  if merge = false ∨ cm1.val + 1 = 2 * (km1.val + 1) then
    .next (s.issue st (.vtopk st km1 gd ga gb cm1 merge) (s.stand st).vecRoom (effVtopk st km1 gd ga gb cm1 merge))
  else .refused .illFormed
/-- VSMP. -/
def effVsmp (st gd ga km1 gp : Nat) (s : State) : State :=
  s.vecOp st (.vsmp (s.g st gd) (s.g st ga) (km1 + 1) (s.g st gp))
/-- VSMP. -/
def execVsmp (st : StandId) (gd ga : Reg) (km1 : Fin 64) (gp : Reg) (s : State) : Res :=
  .next (s.issue st (.vsmp st gd ga km1 gp) (s.stand st).vecRoom (effVsmp st gd ga km1 gp))
/-- VACC. -/
def effVacc (st gd ga gb g : Nat) (s : State) : State :=
  s.vecOp st (.vacc (s.g st gd) (s.g st ga) (s.g st gb) g)
/-- VACC; G 0 to 4 (R145). -/
def execVacc (st : StandId) (gd ga gb : Reg) (g : Fin 8) (s : State) : Res :=
  if g.val ≤ 4 then .next (s.issue st (.vacc st gd ga gb g) (s.stand st).vecRoom (effVacc st gd ga gb g)) else .refused .illFormed

end Sys2Proof.Machine
end

