-- ==== Sys2Proof/Machine/Held.lean ====
section
/-! DEFINITION. Instructions held on an interlock (06 R171, 03 R68): what begins when the awaited condition holds. -/

namespace Sys2Proof.Machine

/-- A Cotis-2 instruction on a state; other commands are no instructions of a stand. -/
def runInstr (i : Instr) (s : State) : Res :=
  match i with
  | .nop st => execNop st s
  | .li st gd imm => execLi st gd imm s
  | .alu st gd ga gb f n imm => execAlu st gd ga gb f n imm s
  | .ldw st gd ga off => execLdw st gd ga off s
  | .stw st gs ga off => execStw st gs ga off s
  | .br st c ga gb t => execBr st c ga gb t s
  | .bend st => execBend st s
  | .wait st c d v n m t => execWait st c d v n m t s
  | .rdctl st gd clr arg sel => execRdctl st gd clr arg sel s
  | .vld st p k ga d => execVld st p k ga d s
  | .pass st p k b f n w g d a => execPass st p k b f n w g d a s
  | .rqnt st p f n m t g gt gd => execRqnt st p f n m t g gt gd s
  | .topen st t => execTopen st t s
  | .tclose st => execTclose st s
  | .wopen st k b f n => execWopen st k b f n s
  | .wclose st k => execWclose st k s
  | .wrel st k r => execWrel st k r s
  | .bpdn st b => execBpdn st b s
  | .bwake st b => execBwake st b s
  | .creq st d w c m r t => execCreq st d w c m r t s
  | .rwr st d w r o l f n g v => execRwr st d w r o l f n g v s
  | .mwr st gm w r o l f n g v => execMwr st gm w r o l f n g v s
  | .red st d rid l w r g => execRed st d rid l w r g s
  | .dma st d b ga w r n g => execDma st d b ga w r n g s
  | .barv st c => execBarv st c s
  | .bwt st c => execBwt st c s
  | .xld st b ga gb n d => execXld st b ga gb n d s
  | .mma st mo m n k a x y gb => execMma st mo m n k a x y gb s
  | .mwo st w k m n gd gs => execMwo st w k m n gd gs s
  | .ada st gh gx gd m gi => execAda st gh gx gd m gi s
  | .adb st gh gg gd m go => execAdb st gh gg gd m go s
  | .vop st f t gd ga gb gc n => execVop st f t gd ga gb gc n s
  | .qnt st t gd ga gb gc n => execQnt st t gd ga gb gc n s
  | .vtopk st k gd ga gb n m => execVtopk st k gd ga gb n m s
  | .vsmp st gd ga k gp => execVsmp st gd ga k gp s
  | .vacc st gd ga gb g => execVacc st gd ga gb g s
  | _ => .next s

/-- Replace the instructions that the controller holds back. -/
def State.setBacklog (s : State) (st : Nat) (l : List Instr) : State := s.modStand st fun x => { x with backlog := l }
/-- A hold that does not count toward the beat watchdog: BWT on a channel extended to other modules (R178, R228). -/
def State.peerWait (s : State) (i : Instr) : Bool :=
  match i with
  | .bwt _ c => s.extended c
  | _ => false
/-- The instruction at the front leaves the hold. -/
def State.endHold (s : State) (st : Nat) (i : Instr) (rest : List Instr) : State :=
  let n := if s.peerWait i then s.time.tick - (s.stand st).headSince else 0
  s.modStand st fun x => { x with backlog := rest, headSince := s.time.tick, dogHold := x.dogHold + n }
/-- Issue what the controller holds, in order, until one must wait; `fuel` is the number held. -/
def State.drain (st : Nat) : Nat → State → State
  | 0, s => s
  | f + 1, s =>
    match (s.stand st).backlog with
    | [] => s
    | i :: t =>
      match runInstr i (s.setBacklog st []) with
      | .next s' => if (s'.stand st).backlog = [] then State.drain st f (s'.endHold st i t) else s
      | _ => s
/-- An engine begins what it can begin. -/
def State.pump (s : State) (st : Nat) (u : Engine) : State :=
  match u with
  | .ctrl => if s.canIssue st then State.drain st (s.stand st).backlog.length s else s
  | .core p => if s.arith then s.pumpPos st p else s
  | .out => if s.arith then State.pumpOut st (s.stand st).outQ.length s else s
  | .dma => if s.arith then s.nextDma st else s
  | .dmu => if s.arith then State.pumpDmu st (s.stand st).dmuQ.length s else s
  | .vec => if s.arith then State.pumpVec st (s.stand st).vecQ.length s else s
/-- INTERLOCK_RELEASE (R171). -/
def execInterlockRelease (st : StandId) (u : Engine) (s : State) : Res := .next (s.pump st u)
/-- PEND_WAIT_RELEASE (R68): the loader of a position, the router outbound or the DMU; no other engine waits on a header. -/
def execPendWaitRelease (st : StandId) (u : Engine) (s : State) : Res :=
  .next (match u with
    | .ctrl => s
    | u => s.pump st u)

end Sys2Proof.Machine
end

