-- ==== Sys2Proof/WellFormed.lean ====
section
/-! DEFINITION. Well-formed commands: the field checks of R189 for a Cotis-2 instruction. A command that is no instruction is
well formed as it stands: its form is its type's. -/

namespace Sys2Proof

open Machine
/-- The fields lie in the ranges of R189. -/
def Instr.wellFormed (i : Instr) : Bool :=
  match i with
  | .alu _ _ _ _ _ func _ => decide (func.val ≤ 10)
  | .br _ cond _ _ _ => decide (cond.val ≤ 6)
  | .pass _ _ _ _ _ nrows width _ _ _ => passFields nrows width
  | .rqnt _ _ firsto nout mode fmt sign _ _ => rqntFields firsto nout mode fmt sign
  | .wopen _ _ _ first count => wopenFields first count
  | .creq _ dest _ count mode row _ => creqFields dest count mode row
  | .rwr _ dest _ _ offset length final nwrites _ _ => destField dest && writeFields offset length final nwrites
  | .mwr _ _ _ _ offset length final nwrites _ _ => writeFields offset length final nwrites
  | .red _ dest _ _ _ _ _ => destField dest
  | .dma _ _ _ ga _ _ words _ => dmaFields words ga
  | .xld _ _ _ _ count _ => decide (1 ≤ count.val ∧ count.val ≤ 1024)
  | .mma _ mode _ _ km1 _ _ _ _ => mmaFields mode km1
  | .mwo _ wmode _ _ _ _ _ => decide (wmode.val ≠ 3)
  | .qnt _ type _ _ _ _ _ => decide (type.val ≤ 1)
  | .vop _ func type _ _ _ _ _ => vopFields func type
  | .vtopk _ km1 _ _ _ cm1 merge => !merge || decide (cm1.val + 1 = 2 * (km1.val + 1))
  | .vacc _ _ _ _ g => decide (g.val ≤ 4)
  | .nop _ | .li _ _ _ | .ldw _ _ _ _ | .stw _ _ _ _ | .bend _ | .implicitBend _ | .wait _ _ _ _ _ _ _ | .rdctl _ _ _ _ _
  | .vld _ _ _ _ _ | .passVerdict _ _ _ | .requantizerOutput _ _ | .topen _ _ | .tclose _ | .tileVerdict _ _ | .interlockRelease _ _
  | .pendWaitRelease _ _ | .wclose _ _ | .wrel _ _ _ | .bpdn _ _ | .bwake _ _ | .bankWakeDone _ _ | .gateWaitExpiry _ _
  | .creqReceive _ _ | .cgrantReceive _ _ | .creditVoidReceive _ _ | .awayReceive _ _ | .remoteWriteReceive _ _ | .rowFilled _ _ _
  | .barv _ _ | .bwt _ _ | .barrierPhaseComplete _ | .ada _ _ _ _ _ _ | .adb _ _ _ _ _ _ | .vsmp _ _ _ _ _ | .hazard _ _ _ _ _
  | .beatBoundary _ _ | .beatLaunch | .beatWatchdog _ | .standReset _ | .scratchpadUe _ _ _ _ _ | .rowRepair _ _ _
  | .flitCrcFail _ _ _ | .packetReceive _ _ _ | .mcastForward _ | .reducePacketArrive _ _ | .combiningWindowExpiry _ _
  | .reductionPartArrive _ _ | .reductionTimeout _ _ | .seamWireTest _ _ _ | .meshLinkWireTest _ _ _ _ | .descriptorTimeout
  | .stepTimeout _ | .suspensionTimeout _ | .servingStart | .servingDrain | .servingStop | .stage _ _ _ _ _ | .weightCancel
  | .requestAgain | .arm _ _ _ | .disarm | .weightActivate _ | .scrubNow | .inboxPost _ | .shardArrive _ | .attemptTimeout _ _
  | .arrayWriteVerifyDone _ _ _ _ | .shardFinalCheck _ _ | .scrubRead _ _ _ | .adapterLoad _ _ _ _ | .adapterRemove _
  | .binaryLoad _ _ | .binaryActivate _ | .memreqReceive _ _ | .memrspReceive _ _ | .patrolRead _ _ | .pseudoChannelRemap _ _
  | .arbiterGrant _ | .arbiterPark _ _ _ _ _ | .arbiterWatchdog _ | .clearArbiterCounters _ | .resendPoint _ | .hostWindowWrite _ _
  | .hostWindowRead _ _ | .cxlSnoop _ | .hostLinkTraining _ _ _ | .portModeNegotiation _ _ | .blockLockLoss _ | .helloSend _
  | .hello _ _ | .helloLoss _ | .transportFrameReceive _ _ _ | .ack _ _ _ _ | .retransmitTimeout _ _ | .relay _ _ | .reduce _ _
  | .reroute _ | .arrive _ _ _ | .complete _ _ | .withdraw _ _ _ | .withdrawn _ _ | .shardReq _ _ _ _ | .shardData _ _ _ _ _
  | .neighbourSolicitation _ _ _ | .cableInsert _ _ | .cableRemove _ | .coppicingStart _ _ _ | .repairSequencerDone _
  | .selfTestStep _ _ _ _ _ | .forcedClearing _ _ | .voltageMarginCommand _ | .sliceCommand _ _ _ _ _ | .groveFecFailure _
  | .faultStop _ | .foresterWatchdog | .foresterRestart | .errorRecordWrite | .cperRemove _ | .wallClockWrite _ | .adcResult _ _
  | .adcTrigger _ | .diodeReading _ _ _ | .diodeReadingTimeout _ | .thermistorReading _ | .throttleRelease | .powerLevelRequest _
  | .orderlyStopClockStop | .immediateStop | .thermalTrip _ | .calibrationCommand _ | .adcCalibrationRun _ _ _
  | .arrayCalibrationDue _ | .vauxValid _ | .vauxLoss _ | .railSequence _ | .brownout _ _ | .phaseFailed _ _ | .powerSample _
  | .coldReset _ | .warmReset _ | .unitResetCommand _ | .perstN | .fatalReset _ _ | .fatalDelayExpiry | .escalatedWatchdog
  | .coldExit _ | .floorCommand _ | .ownerKeyCommand _ | .lifecycleCommand _ _ _ | .debugFlagWrite _ | .getVersion _ _
  | .getCapabilities _ _ | .negotiateAlgorithms _ _ | .getDigests _ _ | .getCertificate _ _ | .challenge _ _ | .getMeasurements _ _
  | .spdmUnsupportedRequest _ _ | .dictionaryRead _ _ _ _ _ _ | .dictionaryWrite _ _ _ _ _ _ _ | .describe _ _ _ _
  | .segmentTimeout _ _ _ | .requestLimitTimeout _ | .mailboxCommand _ | .identifyMemoryDevice | .getTimestamp | .setTimestamp _
  | .mailboxUnsupported _ | .setEndpointId _ | .getEndpointId | .getMctpVersionSupport _ | .getMessageTypeSupport
  | .vlanDatagram _ _ _ _ _ | .recountSnapshot _ | .firmwareUpload _ | .msixEventVector _ | .unitReturnsToService _
  | .recountSnapshotTimeout _ | .msixVectorUnmask _ | .hotReset => true
/-- The command is a Cotis-2 instruction, which a program of a stand can hold (04). -/
def Instr.isCotis (i : Instr) : Bool :=
  match i with
  | .nop _ | .li _ _ _ | .alu _ _ _ _ _ _ _ | .ldw _ _ _ _ | .stw _ _ _ _ | .br _ _ _ _ _ | .bend _ | .wait _ _ _ _ _ _ _
  | .rdctl _ _ _ _ _ | .vld _ _ _ _ _ | .pass _ _ _ _ _ _ _ _ _ _ | .rqnt _ _ _ _ _ _ _ _ _ | .topen _ _ | .tclose _
  | .wopen _ _ _ _ _ | .wclose _ _ | .wrel _ _ _ | .bpdn _ _ | .bwake _ _ | .creq _ _ _ _ _ _ _ | .rwr _ _ _ _ _ _ _ _ _ _
  | .mwr _ _ _ _ _ _ _ _ _ _ | .red _ _ _ _ _ _ _ | .dma _ _ _ _ _ _ _ _ | .barv _ _ | .bwt _ _ | .xld _ _ _ _ _ _
  | .mma _ _ _ _ _ _ _ _ _ | .mwo _ _ _ _ _ _ _ | .ada _ _ _ _ _ _ | .adb _ _ _ _ _ _ | .vop _ _ _ _ _ _ _ _ | .qnt _ _ _ _ _ _ _
  | .vtopk _ _ _ _ _ _ _ | .vsmp _ _ _ _ _ | .vacc _ _ _ _ _ => true
  | .implicitBend _ | .passVerdict _ _ _ | .requantizerOutput _ _ | .tileVerdict _ _ | .interlockRelease _ _
  | .pendWaitRelease _ _ | .bankWakeDone _ _ | .gateWaitExpiry _ _ | .creqReceive _ _ | .cgrantReceive _ _
  | .creditVoidReceive _ _ | .awayReceive _ _ | .remoteWriteReceive _ _ | .rowFilled _ _ _ | .barrierPhaseComplete _
  | .hazard _ _ _ _ _ | .beatBoundary _ _ | .beatLaunch | .beatWatchdog _ | .standReset _ | .scratchpadUe _ _ _ _ _
  | .rowRepair _ _ _ | .flitCrcFail _ _ _ | .packetReceive _ _ _ | .mcastForward _ | .reducePacketArrive _ _
  | .combiningWindowExpiry _ _ | .reductionPartArrive _ _ | .reductionTimeout _ _ | .seamWireTest _ _ _
  | .meshLinkWireTest _ _ _ _ | .descriptorTimeout | .stepTimeout _ | .suspensionTimeout _ | .servingStart | .servingDrain
  | .servingStop | .stage _ _ _ _ _ | .weightCancel | .requestAgain | .arm _ _ _ | .disarm | .weightActivate _ | .scrubNow
  | .inboxPost _ | .shardArrive _ | .attemptTimeout _ _ | .arrayWriteVerifyDone _ _ _ _ | .shardFinalCheck _ _ | .scrubRead _ _ _
  | .adapterLoad _ _ _ _ | .adapterRemove _ | .binaryLoad _ _ | .binaryActivate _ | .memreqReceive _ _ | .memrspReceive _ _
  | .patrolRead _ _ | .pseudoChannelRemap _ _ | .arbiterGrant _ | .arbiterPark _ _ _ _ _ | .arbiterWatchdog _
  | .clearArbiterCounters _ | .resendPoint _ | .hostWindowWrite _ _ | .hostWindowRead _ _ | .cxlSnoop _ | .hostLinkTraining _ _ _
  | .portModeNegotiation _ _ | .blockLockLoss _ | .helloSend _ | .hello _ _ | .helloLoss _ | .transportFrameReceive _ _ _
  | .ack _ _ _ _ | .retransmitTimeout _ _ | .relay _ _ | .reduce _ _ | .reroute _ | .arrive _ _ _ | .complete _ _
  | .withdraw _ _ _ | .withdrawn _ _ | .shardReq _ _ _ _ | .shardData _ _ _ _ _ | .neighbourSolicitation _ _ _ | .cableInsert _ _
  | .cableRemove _ | .coppicingStart _ _ _ | .repairSequencerDone _ | .selfTestStep _ _ _ _ _ | .forcedClearing _ _
  | .voltageMarginCommand _ | .sliceCommand _ _ _ _ _ | .groveFecFailure _ | .faultStop _ | .foresterWatchdog | .foresterRestart
  | .errorRecordWrite | .cperRemove _ | .wallClockWrite _ | .adcResult _ _ | .adcTrigger _ | .diodeReading _ _ _
  | .diodeReadingTimeout _ | .thermistorReading _ | .throttleRelease | .powerLevelRequest _ | .orderlyStopClockStop
  | .immediateStop | .thermalTrip _ | .calibrationCommand _ | .adcCalibrationRun _ _ _ | .arrayCalibrationDue _ | .vauxValid _
  | .vauxLoss _ | .railSequence _ | .brownout _ _ | .phaseFailed _ _ | .powerSample _ | .coldReset _ | .warmReset _
  | .unitResetCommand _ | .perstN | .fatalReset _ _ | .fatalDelayExpiry | .escalatedWatchdog | .coldExit _ | .floorCommand _
  | .ownerKeyCommand _ | .lifecycleCommand _ _ _ | .debugFlagWrite _ | .getVersion _ _ | .getCapabilities _ _
  | .negotiateAlgorithms _ _ | .getDigests _ _ | .getCertificate _ _ | .challenge _ _ | .getMeasurements _ _
  | .spdmUnsupportedRequest _ _ | .dictionaryRead _ _ _ _ _ _ | .dictionaryWrite _ _ _ _ _ _ _ | .describe _ _ _ _
  | .segmentTimeout _ _ _ | .requestLimitTimeout _ | .mailboxCommand _ | .identifyMemoryDevice | .getTimestamp | .setTimestamp _
  | .mailboxUnsupported _ | .setEndpointId _ | .getEndpointId | .getMctpVersionSupport _ | .getMessageTypeSupport
  | .vlanDatagram _ _ _ _ _ | .recountSnapshot _ | .firmwareUpload _ | .msixEventVector _ | .unitReturnsToService _
  | .recountSnapshotTimeout _ | .msixVectorUnmask _ | .hotReset => false

end Sys2Proof
end

