-- ==== Sys2Proof/Machine/Binary.lean ====
section
/-! DEFINITION. Cotis-2 words, the checks of a binary container, and the binary commands (06 sections 6.2 and 6.8). -/

namespace Sys2Proof.Machine

/-! ## Cotis-2 words (R152, R153, Tables 6.2 and 6.3) -/

/-- Sum of the bits that a list of fields covers. -/
def fieldMask (l : List (Nat × Nat)) : Nat := (l.map fun f => 2 ^ (f.1 + 1) - 2 ^ f.2).sum
/-- Every bit of [55:0] outside the fields is 0 (R153). -/
def reservedZero (w : Nat) (l : List (Nat × Nat)) : Bool := Nat.land (w % 2 ^ 56) (fieldMask l) == w % 2 ^ 56
/-- A register field. -/
def wreg (w hi : Nat) : Reg := Fin.ofNat 32 (bits w hi (hi - 4))
/-- Fields of each opcode (Table 6.3); none: an opcode absent from Table 6.2. -/
def opFields (op : Nat) : Option (List (Nat × Nat)) :=
  match op with
  | 0x00 | 0x06 | 0x19 => some []
  | 0x01 => some [(55, 51), (31, 0)]
  | 0x02 => some [(55, 51), (50, 46), (45, 41), (40, 40), (39, 36), (15, 0)]
  | 0x03 | 0x04 => some [(55, 51), (50, 46), (15, 0)]
  | 0x05 => some [(55, 53), (52, 48), (47, 43), (13, 0)]
  | 0x07 => some [(55, 40), (39, 39), (38, 38), (37, 37), (36, 36), (35, 35)]
  | 0x08 => some [(55, 51), (8, 8), (7, 4), (2, 0)]
  | 0x10 => some [(55, 40), (39, 39), (38, 34), (15, 0)]
  | 0x11 => some [(55, 40), (39, 39), (38, 37), (36, 27), (26, 16), (15, 13), (12, 12), (11, 11), (10, 10)]
  | 0x12 => some [(55, 52), (51, 45), (44, 37), (36, 35), (34, 32), (31, 31), (30, 26), (25, 21)]
  | 0x18 => some [(15, 0)]
  | 0x20 => some [(55, 52), (51, 47), (46, 42), (41, 36)]
  | 0x21 => some [(55, 52)]
  | 0x22 => some [(55, 52), (31, 0)]
  | 0x23 | 0x24 => some [(55, 51)]
  | 0x28 => some [(55, 43), (42, 39), (38, 33), (32, 32), (31, 27), (15, 0)]
  | 0x29 => some [(55, 43), (42, 39), (38, 34), (33, 28), (27, 21), (20, 20), (19, 13), (12, 8), (7, 7)]
  | 0x2A => some [(55, 51), (50, 47), (46, 42), (41, 36), (35, 29), (28, 28), (27, 21), (20, 16), (15, 15)]
  | 0x2B => some [(55, 43), (42, 27), (26, 26), (25, 22), (21, 17), (16, 12)]
  | 0x2C => some [(55, 55), (54, 54), (53, 49), (48, 45), (44, 40), (39, 28), (27, 23)]
  | 0x30 | 0x31 => some [(5, 0)]
  | 0x38 => some [(55, 55), (54, 50), (49, 45), (44, 34), (15, 0)]
  | 0x39 => some [(55, 54), (53, 49), (48, 44), (43, 33), (32, 32), (31, 31), (30, 30), (29, 25)]
  | 0x3A => some [(55, 54), (53, 53), (52, 48), (47, 43), (42, 38), (37, 33)]
  | 0x3B | 0x3C => some [(55, 51), (50, 46), (45, 41), (40, 25), (24, 20)]
  | 0x40 => some [(55, 50), (49, 48), (47, 43), (42, 38), (37, 33), (32, 28), (27, 16)]
  | 0x41 => some [(55, 50), (49, 45), (44, 40), (39, 35), (34, 23), (22, 22)]
  | 0x42 => some [(55, 51), (50, 46), (45, 40), (39, 35)]
  | 0x43 => some [(55, 51), (50, 46), (45, 41), (40, 38)]
  | _ => none
/-- The instruction of opcode `op` with the fields of w, for a stand. -/
def opInstr (st : StandId) (op w : Nat) : Option Instr :=
  match op with
  | 0x00 => some (.nop st)
  | 0x01 => some (.li st (wreg w 55) (BitVec.ofNat 32 w))
  | 0x02 => some (.alu st (wreg w 55) (wreg w 50) (wreg w 45) (bit w 40) (Fin.ofNat 16 (bits w 39 36)) (BitVec.ofNat 16 w))
  | 0x03 => some (.ldw st (wreg w 55) (wreg w 50) (BitVec.ofNat 16 w))
  | 0x04 => some (.stw st (wreg w 55) (wreg w 50) (BitVec.ofNat 16 w))
  | 0x05 => some (.br st (Fin.ofNat 8 (bits w 55 53)) (wreg w 52) (wreg w 47) (Fin.ofNat 16384 (bits w 13 0)))
  | 0x06 => some (.bend st)
  | 0x07 => some (.wait st (BitVec.ofNat 16 (bits w 55 40)) (bit w 39) (bit w 38) (bit w 37) (bit w 36) (bit w 35))
  | 0x08 => some (.rdctl st (wreg w 55) (bit w 8) (Fin.ofNat 16 (bits w 7 4)) (Fin.ofNat 8 (bits w 2 0)))
  | 0x10 => some (.vld st (BitVec.ofNat 16 (bits w 55 40)) (Fin.ofNat 2 (bits w 39 39)) (wreg w 38) (BitVec.ofNat 16 w))
  | 0x11 => some (.pass st (BitVec.ofNat 16 (bits w 55 40)) (Fin.ofNat 2 (bits w 39 39)) (Fin.ofNat 4 (bits w 38 37))
      (Fin.ofNat 1024 (bits w 36 27)) (Fin.ofNat 2048 (bits w 26 16)) (Fin.ofNat 8 (bits w 15 13)) (bit w 12) (bit w 11) (bit w 10))
  | 0x12 => some (.rqnt st (Fin.ofNat 16 (bits w 55 52)) (Fin.ofNat 128 (bits w 51 45)) (Fin.ofNat 256 (bits w 44 37))
      (Fin.ofNat 4 (bits w 36 35)) (Fin.ofNat 8 (bits w 34 32)) (bit w 31) (wreg w 30) (wreg w 25))
  | 0x18 => some (.topen st (BitVec.ofNat 16 w))
  | 0x19 => some (.tclose st)
  | 0x20 => some (.wopen st (Fin.ofNat 16 (bits w 55 52)) (Fin.ofNat 32 (bits w 51 47)) (Fin.ofNat 32 (bits w 46 42))
      (Fin.ofNat 64 (bits w 41 36)))
  | 0x21 => some (.wclose st (Fin.ofNat 16 (bits w 55 52)))
  | 0x22 => some (.wrel st (Fin.ofNat 16 (bits w 55 52)) (BitVec.ofNat 32 w))
  | 0x23 => some (.bpdn st (Fin.ofNat 32 (bits w 55 51)))
  | 0x24 => some (.bwake st (Fin.ofNat 32 (bits w 55 51)))
  | 0x28 => some (.creq st (BitVec.ofNat 13 (bits w 55 43)) (Fin.ofNat 16 (bits w 42 39)) (Fin.ofNat 64 (bits w 38 33)) (bit w 32)
      (Fin.ofNat 32 (bits w 31 27)) (BitVec.ofNat 16 w))
  | 0x29 => some (.rwr st (BitVec.ofNat 13 (bits w 55 43)) (Fin.ofNat 16 (bits w 42 39)) (Fin.ofNat 32 (bits w 38 34))
      (Fin.ofNat 64 (bits w 33 28)) (Fin.ofNat 128 (bits w 27 21)) (bit w 20) (Fin.ofNat 128 (bits w 19 13)) (wreg w 12) (bit w 7))
  | 0x2A => some (.mwr st (wreg w 55) (Fin.ofNat 16 (bits w 50 47)) (Fin.ofNat 32 (bits w 46 42)) (Fin.ofNat 64 (bits w 41 36))
      (Fin.ofNat 128 (bits w 35 29)) (bit w 28) (Fin.ofNat 128 (bits w 27 21)) (wreg w 20) (bit w 15))
  | 0x2B => some (.red st (BitVec.ofNat 13 (bits w 55 43)) (BitVec.ofNat 16 (bits w 42 27)) (bit w 26) (Fin.ofNat 16 (bits w 25 22))
      (Fin.ofNat 32 (bits w 21 17)) (wreg w 16))
  | 0x2C => some (.dma st (bit w 55) (bit w 54) (wreg w 53) (Fin.ofNat 16 (bits w 48 45)) (Fin.ofNat 32 (bits w 44 40))
      (Fin.ofNat 4096 (bits w 39 28)) (wreg w 27))
  | 0x30 => some (.barv st (Fin.ofNat 64 (bits w 5 0)))
  | 0x31 => some (.bwt st (Fin.ofNat 64 (bits w 5 0)))
  | 0x38 => some (.xld st (bit w 55) (wreg w 54) (wreg w 49) (Fin.ofNat 2048 (bits w 44 34)) (BitVec.ofNat 16 w))
  | 0x39 => some (.mma st (Fin.ofNat 4 (bits w 55 54)) (wreg w 53) (wreg w 48) (Fin.ofNat 2048 (bits w 43 33)) (bit w 32) (bit w 31)
      (bit w 30) (wreg w 29))
  | 0x3A => some (.mwo st (Fin.ofNat 4 (bits w 55 54)) (Fin.ofNat 2 (bits w 53 53)) (wreg w 52) (wreg w 47) (wreg w 42) (wreg w 37))
  | 0x3B => some (.ada st (wreg w 55) (wreg w 50) (wreg w 45) (BitVec.ofNat 16 (bits w 40 25)) (wreg w 24))
  | 0x3C => some (.adb st (wreg w 55) (wreg w 50) (wreg w 45) (BitVec.ofNat 16 (bits w 40 25)) (wreg w 24))
  | 0x40 =>
    if bits w 55 50 = 10 then some (.qnt st (Fin.ofNat 4 (bits w 49 48)) (wreg w 47) (wreg w 42) (wreg w 37) (wreg w 32)
      (Fin.ofNat 4096 (bits w 27 16)))
    else some (.vop st (Fin.ofNat 64 (bits w 55 50)) (Fin.ofNat 4 (bits w 49 48)) (wreg w 47) (wreg w 42) (wreg w 37) (wreg w 32)
      (Fin.ofNat 4096 (bits w 27 16)))
  | 0x41 => some (.vtopk st (Fin.ofNat 64 (bits w 55 50)) (wreg w 49) (wreg w 44) (wreg w 39) (Fin.ofNat 4096 (bits w 34 23)) (bit w 22))
  | 0x42 => some (.vsmp st (wreg w 55) (wreg w 50) (Fin.ofNat 64 (bits w 45 40)) (wreg w 39))
  | 0x43 => some (.vacc st (wreg w 55) (wreg w 50) (wreg w 45) (Fin.ofNat 8 (bits w 40 38)))
  | _ => none
/-- The instruction that a 64-bit word spells for a stand; none for an opcode absent from Table 6.2 or a reserved bit set. -/
def decodeCotis (st : StandId) (w : Nat) : Option Instr :=
  let op := bits w 63 56
  match opFields op with
  | none => none
  | some l => if reservedZero w l then opInstr st op w else none

/-! ## Container checks (R186 to R189) -/

/-- Identifier of a key (R432). -/
def keyId (spki : List Byte) : List Byte := (sha256 spki).take 8
/-- Owner keys enrolled (R436). -/
def State.ownerKeys (s : State) : List (List Byte) :=
  ((List.range 4).map fun k => s.octet (entryKey 0x1510 (k + 1)) 422).filter fun k => !k.all (· = 0)
/-- A SIG1 block is a signature by one of the keys over a message (R188, R432); its reserved bytes are no part of this check. -/
def sig1By (keys : List (List Byte)) (blk msg : List Byte) : Bool :=
  decide (field blk 0 4 = 0x31474953 ∧ field blk 4 2 = 1) &&
  match keys.find? fun k => keyId k = slice blk 8 8 with
  | some k => pssVerify k msg (slice blk 16 384)
  | none => false
/-- Keys accepted for containers (R435): the owner's, and test keys in MANUFACTURE and RETURNED. -/
def State.binaryKeys (s : State) : List (List Byte) :=
  s.ownerKeys ++ (if s.power.lifecycle = 0 ∨ s.power.lifecycle = 3 then Config.testKeys else [])
/-- First check of R189: MAGIC, key, signature, BODY_DIGEST. -/
def State.conSigned (s : State) (b : List Byte) : Bool :=
  decide (field b 0 4 = 0x32535443) && decide (conSig b + 400 ≤ b.length) &&
  sig1By s.binaryKeys (slice b (conSig b) 400) (slice b 0 256) &&
  decide (sha256 (slice b 256 (conSig b - 256)) = slice b 96 32)
/-- Offsets of the images from PROG_OFF on; none when a LENGTH is out of range. -/
def images (b : List Byte) : Nat → Nat → Option (List Nat × Nat)
  | 0, o => some ([], o)
  | n + 1, o =>
    let l := conImageLen b o
    if l = 0 ∨ 16384 < l ∨ b.length < o + 8 + 8 * l then none
    else (images b n (o + 8 + 8 * l)).map fun r => (o :: r.1, r.2)
/-- Sections as (start, end). -/
def conSections (b : List Byte) (progEnd : Nat) : List (Nat × Nat) :=
  [(conProg b, progEnd), (conSmap b, conSmap b + 80000), (conSched b, conSched b + conNsched b * conPeriod b * 8),
   (conTile b, conTile b + 8 * conNtile b), (conBar b, conBar b + 40960)]
/-- Two sections overlap. -/
def overlap (x y : Nat × Nat) : Bool := decide (x.1 < y.2 ∧ y.1 < x.2)
/-- No two of a list overlap. -/
def disjointAll : List (Nat × Nat) → Bool
  | [] => true
  | x :: t => t.all (fun y => !overlap x y) && disjointAll t
/-- Header ranges and reserved fields (Table 6.15). -/
def conHeader (b : List Byte) (debug : Bool) : Bool :=
  decide (field b 4 2 = 2 ∧ field b 8 2 = 0x00B0 ∧ conFlags b < 4) && (!bit (conFlags b) 1 || debug) &&
  zeros b 10 2 && zeros b 28 4 && zeros b 128 128 &&
  decide (1 ≤ conPeriod b ∧ conPeriod b ≤ 4096 ∧ 200 ≤ field b 16 2 ∧ field b 16 2 ≤ 6400 ∧ field b 16 2 ≤ field b 18 2 ∧
    field b 18 2 ≤ 6400 ∧ 1 ≤ conNprog b ∧ conNprog b ≤ 5000 ∧ 1 ≤ conNsched b ∧ conNsched b ≤ 5000 ∧ conNtile b ≤ 65535)
/-- Sections in range, on multiples of 8, and apart from one another; the container ends at SIG_OFF + 400. -/
def conLayoutOk (b : List Byte) (progEnd : Nat) : Bool :=
  decide (b.length = conSig b + 400) && zeros b (conSig b + 6) 2 && disjointAll (conSections b progEnd) &&
  ([conProg b, conSmap b, conSched b, conTile b, conBar b, conSig b].all fun o => decide (o % 8 = 0)) &&
  (conSections b progEnd).all fun x => decide (256 ≤ x.1 ∧ x.2 ≤ conSig b)
/-- Rank of a format on the widening ladder (Table 3.9): formats 0 to 5 widen in order. -/
def sentinelOk (w : Nat) : Bool :=
  let ceil := bits w 31 29
  let fmt := bits w 28 26
  let sg := bit w 25
  decide (bits w 23 16 = 0 ∧ fmt ≤ ceil ∧ ceil ≤ 5 ∧ bits w 15 0 ≠ 0) && (sg || decide (ceil ≠ 5))
/-- The tile table is in ascending order without a duplicate, and every word satisfies R76. -/
def tilesOk : List Nat → Bool
  | [] => true
  | [w] => sentinelOk w
  | w :: v :: t => sentinelOk w && decide (bits w 15 0 < bits v 15 0) && tilesOk (v :: t)
/-- R88 of a heartwood instruction. -/
def heartwoodOk (i : Instr) : Bool :=
  match i with
  | .pass _ _ _ _ _ _ width sign _ _ => decide (width.val = 5) && sign
  | .rqnt _ _ _ _ mode _ _ _ _ => decide (mode.val = 2)
  | .topen .. | .ada .. | .adb .. => false
  | _ => true
/-- One instruction word of an image of `len` instructions (R189). -/
def wordOk (tiles : List Nat) (heart : Bool) (len w : Nat) : Bool :=
  match decodeCotis 0 w with
  | none => false
  | some i =>
    i.wellFormed && (!heart || heartwoodOk i) &&
    match i with
    | .br _ _ _ _ target => decide (target.val < len)
    | .topen _ tile => tiles.any fun t => bits t 15 0 = tile.toNat
    | _ => true
/-- An image: reserved bytes and every word. -/
def imageWordsOk (b : List Byte) (o : Nat) : Bool :=
  let l := conImageLen b o
  zeros b (o + 4) 4 && (List.range l).all fun i => wordOk (conTiles b) (bit (conFlags b) 0) l (conInstr b o i)
/-- Stand map and beat tables (Table 6.13, Table 6.16). -/
def standOk (b : List Byte) (starts : List Nat) (st : Nat) : Bool :=
  let q := conStand b st
  starts.contains q.1 && decide (q.2 < conNsched b) && zeros b (conSmap b + 16 * st + 10) 6 &&
  (List.range (conPeriod b)).all fun k =>
    let e := conEntry b q.2 k
    bit e 15 || decide (bits e 13 0 < conImageLen b q.1)
/-- The checks of R189 after the first. -/
def conChecked (b : List Byte) (debug : Bool) : Bool :=
  conHeader b debug &&
  match images b (conNprog b) (conProg b) with
  | none => false
  | some (starts, e) =>
    conLayoutOk b e && (starts.all fun o => imageWordsOk b o) && (allStands.all fun st => standOk b starts st) &&
    ((List.range (conNsched b * conPeriod b)).all fun k => !bit (field b (conSched b + 8 * k) 8) 14) &&
    tilesOk (conTiles b) && ((List.range 64).all fun c => zeros b (conBar b + 640 * c + 625) 15) &&
    (!bit (conFlags b) 0 || decide (conNtile b = 0))

/-! ## Binary commands (R190, R191) -/

/-- Result of a binary command: vector 16. -/
def State.binaryResult (s : State) (op code : Nat) : State :=
  ({ s with binary := { s.binary with res := op * 256 + code } } : State).due 16
/-- LOAD (R191). -/
def State.binaryLoad (s : State) (off len : Nat) : State :=
  if s.binary.activate.isSome then s.binaryResult 1 1
  else if off % 8 ≠ 0 ∨ len < 656 ∨ 1073741824 < len ∨ 64000000000 < off + len then s.binaryResult 1 5
  else
    let r := s.tierRead true off len 5105
    let s := r.2
    let put := fun (c : Option (List Byte)) => ({ s with binary := { s.binary with staged := c } } : State)
    if !s.conSigned r.1 then ((put none).count 0x512004).binaryResult 1 6
    else if !conChecked r.1 (s.power.debug == 1) then (put none).binaryResult 1 8
    else (put (some r.1)).binaryResult 1 0
/-- BINARY_LOAD. -/
def execBinaryLoad (offset length : DWord) (s : State) : Res := .next (s.binaryLoad offset.toNat length.toNat)
/-- The computing bank's version, when it is a current one, has the LAYOUT_ID of a binary (R190). -/
def State.layoutFits (s : State) (b : List Byte) : Bool :=
  !decide (s.computing.epoch ≠ 0 ∧ s.weights.current ≠ 0 ∧ s.computing.layoutId.toNat ≠ conLayout b)
/-- First condition of ACTIVATE that fails, in the order 1, 5, 9, 2, 3: the spec gives none (R191; DESIGN CHOICE, log 40). -/
def State.binaryCode (s : State) (beat : Nat) : Nat :=
  if s.binary.activate.isSome then 1
  else if 2 ^ 48 ≤ beat then 5
  else match s.binary.staged with
    | none => 9
    | some b =>
      if !s.stopped then 2
      else if !s.layoutFits b then 3
      else 0
/-- ACTIVATE (R191): takes effect at the boundary that opens BEAT. -/
def State.binaryActivate (s : State) (beat : Nat) : State :=
  let code := s.binaryCode beat
  if code ≠ 0 then s.binaryResult 2 code
  else ({ s with binary := { s.binary with activate := some beat } } : State).binaryResult 2 0
/-- BINARY_ACTIVATE. -/
def execBinaryActivate (beat : DWord) (s : State) : Res := .next (s.binaryActivate beat.toNat)
/-- A binary command block (R191). -/
def State.binaryCmd (s : State) (b : List Byte) : State :=
  let op := field b 0 1
  if op = 1 then s.binaryLoad (field b 8 8) (field b 16 8)
  else if op = 2 then s.binaryActivate (field b 24 8)
  else s.binaryResult op 5
/-- A binary becomes current (R190): every stand is reset, the phases start again (R226), B0 and the beat length are set. B0 is the first
beat that runs it, which opens at the next boundary, so that slot 0 launches there (DEDUCED, log 71). -/
def State.makeCurrent (s : State) (b : List Byte) : State :=
  let s := allStands.foldl (fun s st => s.resetStand st (s.node st).cause false) s
  let len := if s.power.debug = 1 then field b 18 2 else field b 16 2
  let s := { s with binary := { s.binary with current := some b, fresh := true, b0 := s.time.beat + 1 },
                    time := { s.time with len := len }, phases := [],
                    grove := { s.grove with chans := [] } }
  ({ s with stands := Tab.mapVals {} (fun _ x => { x with arrivals := [], arrived := [] }) s.stands } : State).applyRelays
/-- The boundary that opens BEAT, or the first after acceptance (R191); a binary does not become current while its LAYOUT_ID differs from
the computing bank's (R190). -/
def State.binaryBoundary (s : State) : State :=
  match s.binary.activate, s.binary.staged with
  | some n, some b =>
    if n ≤ s.time.beat ∧ s.layoutFits b then
      ({ s with binary := { s.binary with staged := none, activate := none } } : State).makeCurrent b
    else s
  | _, _ => s

end Sys2Proof.Machine
end

