-- ==== Sys2Proof/Machine/Tiles.lean ====
section
/-! DEFINITION. Sentinel verdicts and repeats (R77 to R85). -/

namespace Sys2Proof.Machine

/-- A unit still holds a requantize step of the tile: its outputs are not all written (R78). -/
def Stand.tileBusy (x : Stand) (uid : Nat) : Bool :=
  x.units.any fun e => (match e.2.rq with | some r => decide (r.op.tile = some uid) | none => false) ||
    e.2.queue.any fun o => match o with | .rqnt r => decide (r.tile = some uid) | _ => false
/-- Position of a step. -/
def TileStep.pos (t : TileStep) : Nat := match t with | .pass p .. => p | .rqnt p _ => p
/-- Cycles of a step in the cost of a repeat (R83). -/
def TileStep.cycles (t : TileStep) : Nat := match t with | .pass _ _ _ _ c => c | .rqnt _ r => ceilDiv r.nout 4
/-- Passes of a tile. -/
def Tile.passes (t : Tile) : Nat := (t.steps.filter fun e => match e with | .pass .. => true | _ => false).length
/-- Cost C of a repeat (R83). -/
def Tile.repeatCost (t : Tile) : Nat :=
  ((List.range 16).map fun p => ((t.steps.filter fun e => e.pos = p).map TileStep.cycles).sum).foldl max 0 + 9
/-- The tile fires (R78). -/
def Tile.fires (t : Tile) : Bool :=
  decide (t.mode = 1 ∧ t.outputs ≠ 0 ∧ t.outputs * t.thresh < t.clips * 65536) && bit t.word.toNat 24
/-- Next format of a repeat (R79, R80); none: a ceiling event (R82). -/
def Tile.nextFmt (t : Tile) : Option Nat :=
  if 256 < t.passes then none
  else match wider t.fmt (bit t.word.toNat 25) with
    | some f => if f ≤ bits t.word.toNat 31 29 then some f else none
    | none => none
/-- Bank pointer or a bank state changes at the next boundary (R84). -/
def State.bankChangeNext (s : State) (st : Nat) (t : Tile) : Bool :=
  let w := s.weights.sw
  let d := s.weightBoundary
  let v := d.weights.sw
  let cores := (t.steps.map TileStep.pos).map fun p => (s.stand st).coreAt p
  (decide (w.st = 3 ∨ w.st = 4) && !w.pointerDone && decide (w.beat ≤ s.time.beat + 1)) ||
  (decide (v.st = 1 ∧ (d.version (!d.weights.ptrB)).epoch = v.epoch) && d.bankComplete (!d.weights.ptrB)) || (decide (w.st = 4) && w.retired) ||
  (cores.any fun c =>
    let k := s.core st c
    let n := d.core st c
    n.bptrB != k.bptrB || n.bankA.st != k.bankA.st || n.bankB.st != k.bankB.st ||
      (k.fenced && ((k.bankA.usable && k.bankA.lostCheck) || (k.bankB.usable && k.bankB.lostCheck)))) ||
  (match (s.stand st).coppice with | some q => q.verified && t.steps.any fun e => e.pos == q.pos | none => false)
/-- Operations of a repeat at one position, in original order: each pass after the reload of its slot (R80). -/
def repeatOps (p : Nat) : List TileStep → List CoreOp
  | [] => []
  | .pass q op b src _ :: t =>
    if q = p then
      (match src with | some a => [.vld op.slot a] | none => []) ++ .pass { op with bankFix := b } :: repeatOps p t
    else repeatOps p t
  | .rqnt q op :: t => if q = p then .rqnt op :: repeatOps p t else repeatOps p t
/-- Put an operation back behind the first n passes of a list. -/
def putBack (o : CoreOp) : Nat → List CoreOp → List CoreOp
  | 0, l => o :: l
  | _, [] => [o]
  | n + 1, a :: t => a :: putBack o (if a.isPass then n else n + 1) t
/-- A requantize step that its engine holds on its interlock has not begun (R80): it goes back to its place in the queue. -/
def PosUnit.release (u : PosUnit) : PosUnit :=
  match u.rq with
  | some j =>
    if j.earlier = 0 then u
    else
      let n := j.earlier - u.passes.length
      let r := u.queue.take u.nrep
      if j.rep then { u with rq := none, queue := putBack (.rqnt j.op) n r ++ u.queue.drop u.nrep, nrep := u.nrep + 1 }
      else { u with rq := none, queue := r ++ putBack (.rqnt j.op) (n - passesIn r) (u.queue.drop u.nrep) }
  | none => u
/-- Put a repeat's operations ahead of everything of the core that has not begun, or, for a deferred one, behind those of earlier
verdicts (R80, R83). -/
def PosUnit.addRepeat (u : PosUnit) (ops : List CoreOp) (deferred : Bool) : PosUnit :=
  let u := u.release
  { u with queue := if deferred then u.queue.take u.nrep ++ ops ++ u.queue.drop u.nrep else ops ++ u.queue, nrep := u.nrep + ops.length }
/-- A repeat's operations reach a position; a vacant position discards them (R364). -/
def State.repeatAt (s : State) (st p : Nat) (ops : List CoreOp) (deferred : Bool) : State :=
  if ops = [] then s
  else if (s.fill st p).isNone then s.count 0x525004 ops.length
  else (s.modStand st fun x => x.modPos p fun u => u.addRepeat ops deferred).pumpPos st p
/-- Start a repeat of a tile (R80). -/
def State.startRepeat (s : State) (st : Nat) (t : Tile) (deferred : Bool) : State :=
  let steps := t.steps
  (List.range 16).foldl (fun s p => s.repeatAt st p (repeatOps p steps) deferred) s
/-- A record of the sentinel log (R85); its writing node is the forester bus agent, 5,105 (DESIGN CHOICE, log 118). -/
def State.sentinel (s : State) (st : Nat) (t : Tile) (dst flags cost : Nat) : State :=
  let n := s.rel.sentLog
  let b := leBytes 6 s.time.beat ++ leBytes 2 st ++ leBytes 2 t.num ++ leBytes 1 (dst * 16 + t.fmt) ++ leBytes 1 flags ++
    leBytes 4 t.clips ++ leBytes 4 t.outputs ++ leBytes 4 cost ++ leBytes 8 n
  let s := s.tierWrite true (s.setting 0x222004 63000000000 + 32 * (n % 65536)) b 5105
  { s with rel := { s.rel with sentLog := n + 1 } }
/-- The last verdict of a tile: PEND becomes 0 in every vector it has written (R80). -/
def State.endTile (s : State) (st : Nat) (t : Tile) : State :=
  s.modStand st fun x =>
    { x with tiles := x.tiles.filter fun u => u.uid ≠ t.uid,
             spad := t.vectors.foldl (fun m a => Tab.set 0 m (wa a) (encVec { decVec (Tab.get 0 m (wa a)) with pend := false })) x.spad }
/-- Replace a tile; a deferred one goes behind the others (R83: deferred repeats run in the order of their verdicts). -/
def Stand.putTile (x : Stand) (t : Tile) : Stand :=
  let rest := x.tiles.filter fun u => u.uid ≠ t.uid
  { x with tiles := if t.deferred then rest ++ [t] else x.tiles.map fun u => if u.uid = t.uid then t else u }
/-- A verdict that leads to a repeat (R80, R83, R84). -/
def State.repeatTile (s : State) (st : Nat) (t : Tile) (f : Nat) : State :=
  let c := t.repeatCost
  let fits := decide (t.cost + c ≤ bits t.word.toNat 63 48)
  let forced := !fits && s.bankChangeNext st t
  let now := fits || forced
  let s := (s.count 0x522207 c).count (if now then 0x522204 else 0x522205)
  let s := s.sentinel st t f (b2n forced * 2 + b2n (!now)) c
  let cost := if now then t.cost + c else t.cost
  let t' : Tile := { t with fmt := f, outputs := 0, clips := 0, first := false, cost := cost, deferred := !now, running := false }
  let s := s.modStand st fun x => x.putTile t'
  if now then s.startRepeat st t' false else s
/-- The verdict of tile `idx` of those that await one (R78, R82). -/
def State.tileVerdict (s : State) (st idx : Nat) : State :=
  match (s.stand st).tiles[idx]? with
  | none => s
  | some t =>
    if t.deferred ∨ (s.stand st).tileBusy t.uid ∨ (((s.stand st).tiles.take idx).any fun u => u.first) then s
    else if !t.fires then s.endTile st t
    else
      let s := s.count 0x522203
      match t.nextFmt with
      | some f => s.repeatTile st t f
      | none => ((s.count 0x522206).sentinel st t t.fmt (4 + 8 * b2n (decide (256 < t.passes))) 0).endTile st t
/-- TILE_VERDICT (R78): no effect while the tile's outputs are not written, while an earlier tile waits for its first verdict
(R159), or while its repeat is deferred. -/
def execTileVerdict (st : StandId) (idx : Nat) (s : State) : Res := .next (s.tileVerdict st idx)
/-- Deferred repeats of a stand start at its launch (R83, R180). -/
def State.startDeferred (s : State) (st : Nat) : State :=
  ((s.stand st).tiles.filter fun t => t.deferred).foldl (fun s t =>
    let t' : Tile := { t with deferred := false, running := true, cost := t.repeatCost }
    (s.modStand st fun x => x.putTile t').startRepeat st t' true) s

end Sys2Proof.Machine
end

