-- ==== Sys2Proof/Machine/Coppice.lean ====
section
/-! DEFINITION. Coppicing: a spare core takes a service position (R366 to R369, R487, Table 12.7). -/

namespace Sys2Proof.Machine

/-- Why core 16 is not free, as the spare state of a NO_SPARE record (R367, log 41); 0: it is free. -/
def State.spareState (s : State) (st : Nat) : Nat :=
  let x := s.stand st
  let c := s.core st 16
  if x.svc.valid ∨ x.pairA.isSome ∨ x.pairB.isSome then 1
  else if c.fenced then 2
  else if c.bankA.worn ∨ c.bankB.worn then 3
  else if x.coppice.isSome then 4
  else if !c.sliceOk then 5
  else 0
/-- Banks in COMPUTE for the positions of the module (Table 2.2): the pointer's, and both in capacity mode or a grace window. -/
def State.computeBanks (s : State) : List Bool :=
  if s.weights.capmode ∨ s.weights.sw.graceOpen then [false, true]
  else if s.weights.current = 0 then [] else [s.weights.ptrB]
/-- No spare for a coppicing (R367, R379): recorded; urgent: fault stop; planned: DEGRADED. -/
def State.noSpare (s : State) (st p : Nat) (urgent : Bool) : State :=
  let s := s.record 0x0105 0 (leBytes 1 p ++ leBytes 1 (s.spareState st)) st
  if urgent then s.faultStop 0x0105 else s.degrade
/-- Banks of core 16 enter WRITE for a coppicing (R368). -/
def State.spareWrite (s : State) (st : Nat) (bs : List Bool) : State :=
  s.modCore st 16 fun c => bs.foldl (fun c b => c.modBank b fun k => { k with st := .write }) c
/-- COPPICING_START (R367): urgent after a fence of the core in the position, planned while that core serves and was found faulty. -/
def State.coppiceStart (s : State) (st p : Nat) (urgent : Bool) : State :=
  let x := s.stand st
  let old := x.coreAt p
  if urgent ≠ ((s.core st old).fenced || (x.paired p && (s.core st 16).fenced)) ∨ (!urgent ∧ !(s.core st old).suspect) then s
  else match x.coppice with
    | some q =>
      if q.pos = p then s.modStand st fun x => { x with coppice := some { q with urgent := urgent || q.urgent } }
      else s.noSpare st p urgent
    | none =>
      if s.spareState st ≠ 0 then s.noSpare st p urgent
      else (s.modStand st fun x => { x with coppice := some { pos := p, old := old, urgent := urgent, start := s.time.tick } }).spareWrite
        st s.computeBanks
/-- COPPICING_START. -/
def execCoppicingStart (st : StandId) (p : Pos) (urgent : Bool) (s : State) : Res := .next (s.coppiceStart st p urgent)
/-- Banks of core 16 still to be written. -/
def State.spareLeft (s : State) (st : Nat) : List Bool := [false, true].filter fun b => decide (((s.core st 16).bank b).st = .write)
/-- One bank of the sparing: the spare's bank written from the master area, or (false) the spare marked FAILED (R368, R378). -/
def State.spareOne (s : State) (st : Nat) (q : Coppice) (b : Bool) : State × Bool :=
  let r := (s.masterRead b st q.pos).writeBank b st 16 ((s.shard b st).layout q.pos) (s.masterRow b st q.pos) false 0
  if r.2 then (r.1.setBankSt b st 16 .idle, true)
  else
    ((((r.1.setBankSt b st 16 .failed).modCore st 16 fun c => { c with sliceOk := false }).modStand st fun x => { x with coppice := none }).noSpare
      st q.pos q.urgent, false)
/-- Write the banks of a list; a bank that cannot be written is FAILED and ends the coppicing as one without a spare. -/
def State.spareGo (st : Nat) (q : Coppice) : List Bool → State → State
  | [], s => s.modStand st fun x =>
      { x with coppice := some { q with verified := true, micros := (s.time.tick - q.start) / 100 } }
  | b :: t, s => if (s.spareOne st q b).2 then State.spareGo st q t (s.spareOne st q b).1 else (s.spareOne st q b).1
/-- REPAIR_SEQUENCER_DONE (R368): every row of the spare's banks is written and verified. -/
def execRepairSequencerDone (st : StandId) (s : State) : Res :=
  match (s.stand st).coppice with
  | some q => if q.verified then .next s else .next (State.spareGo st q (s.spareLeft st) s)
  | none => .next s
/-- The shard of a bank is written again at one position, from its master area (R487, Table 9.10). -/
def State.rewriteAt (s : State) (b : Bool) (st p : Nat) : State :=
  if (s.version b).epoch ≠ 0 ∧ ((s.shard b st).st = .verified ∨ (s.shard b st).st = .writing ∨ (s.shard b st).st = .arrived) then
    (s.modShard b st fun h => { h with st := .writing, done := h.done &&& ~~~(BitVec.ofNat 16 (2 ^ p)) }).pumpWrites
  else s
/-- The spare fills the position at a boundary (R369). -/
def State.switchIn (s : State) (st : Nat) (q : Coppice) : State :=
  let bs := s.computeBanks
  let others := [false, true].filter fun b => !bs.contains b
  let s := s.modCore st 16 fun c =>
    let c := bs.foldl (fun c b => c.modBank b fun k => { k with st := .compute }) c
    let c := others.foldl (fun c b => c.modBank b fun k => { k with st := .empty }) c
    { c with bptrB := s.weights.ptrB, capmode := s.weights.capmode, slot0 := {}, slot1 := {}, acc := [] }
  let s := s.modStand st fun x => { x with svc := { fenced := q.old, valid := true, spos := q.pos }, coppice := none }
  let s := others.foldl (fun s b => s.rewriteAt b st q.pos) s
  (s.count (if q.urgent then 0x540004 else 0x540005)).record 0x0104 3
    (leBytes 1 q.pos ++ leBytes 1 q.old ++ leBytes 1 (b2n (!q.urgent)) ++ leBytes 4 q.micros) st
/-- A coppicing at a boundary: a bank that entered COMPUTE meanwhile is written before the switch (Table 9.10). -/
def State.coppiceBoundary (s : State) (st : Nat) : State :=
  match (s.stand st).coppice with
  | none => s
  | some q =>
    if !q.verified then s
    else
      let missing := s.computeBanks.filter fun b => decide (((s.core st 16).bank b).st ≠ .idle)
      if missing = [] then s.switchIn st q
      else (s.modStand st fun x => { x with coppice := some { q with verified := false } }).spareWrite st missing
/-- A WARM reset restarts a coppicing (Table 12.7): the spare's banks are EMPTY and written again. -/
def State.coppiceRestart (s : State) (st : Nat) : State :=
  match (s.stand st).coppice with
  | none => s
  | some q => (s.modStand st fun x => { x with coppice := some { q with verified := false, start := s.time.tick } }).spareWrite
      st s.computeBanks

end Sys2Proof.Machine
end

