-- ==== Sys2Proof/Machine/Beats.lean ====
section
/-! DEFINITION. Beat boundaries and launches (07 sections 7.2 and 7.3), the beat watchdog, hazards, row repair. -/

namespace Sys2Proof.Machine

/-! ## MSI-X (R450, Table 15.3) -/

/-- Send one MSI-X message, or set the pending bit of a masked vector. -/
def State.sendVector (s : State) (v : Nat) : State :=
  let h := s.host
  if h.msixen ∧ !h.msixMask.getLsbD v then
    ({ s with host := { h with msixPend := h.msixPend &&& ~~~(BitVec.ofNat 32 (2 ^ v)) } } : State).emit (.msix v) |>.count 0x52900C
  else { s with host := { h with msixPend := h.msixPend ||| BitVec.ofNat 32 (2 ^ v) } }
/-- Vectors due at a boundary, each at most once. -/
def State.sendDue (s : State) : State :=
  let vs := (List.range 21).filter fun v => s.host.msixDue.getLsbD v
  vs.foldl State.sendVector { s with host := { s.host with msixDue := 0 } }

/-! ## Time (R199 to R202) -/

/-- Ticks by which the running beat is shortened (R200). -/
def Time.shortening (t : Time) : Nat := min t.slip (t.len / 4)
/-- Target end of the running beat (R200). -/
def Time.target (t : Time) : Nat := t.start + t.len - t.shortening
/-- The boundary tick: the target end, or now when that has passed (log 42). -/
def Time.boundaryTick (t : Time) : Nat := max t.tick t.target
/-- The beat counter takes the new beat's number (R196, R197); overrun is counted. -/
def State.openBeat (s : State) : State :=
  let tgt := s.time.target
  let s := s.advance (s.time.boundaryTick - s.time.tick)
  let late := s.time.tick - tgt
  let s := if late = 0 then s else (s.count 0x520001).count 0x520003 late
  { s with time := { s.time with beat := (s.time.beat + 1) % 2 ^ 48, start := s.time.tick } }
/-- Reference start of the running beat (R199). -/
def Time.refStart (t : Time) : Nat := t.originTick + (t.beat - t.originBeat) * t.len
/-- Slip of the beat just opened; the origin when one is due (R199, R200, R202). -/
def State.takeSlip (s : State) : State :=
  let t := s.time
  let t := if t.originDue then { t with originTick := t.start, originBeat := t.beat, originDue := false } else t
  let slip := t.start - t.refStart
  let event := decide (s.setting 0x200005 64 * t.len < slip) && !t.slipRaised
  let s := { s with time := { t with slip := slip, slipRaised := (t.slipRaised || event) && decide (slip ≠ 0) } }
  let n := s.time.shortening
  let s := if n = 0 then s else (s.count 0x520002).count 0x520004 n
  if event then (s.count 0x520005).record 0x0405 3 (leBytes 4 slip) else s

/-! ## Units at a boundary -/

/-- Due row repairs that were copied take effect (R104 step 3); the row's corrected-error count starts again (DESIGN CHOICE, log 115).
Rows still due when that took the last spare are recorded (R105). -/
def State.rowsBoundary (s : State) (st : Nat) : State :=
  (List.range 32).foldl (fun s b =>
    let had := ((s.stand st).bank b).noSpare
    let s := ((s.stand st).bank b).copying.foldl (fun s e =>
      let lo := b * 2048 + e.1 * 64
      let s := s.modStand st fun x =>
        { x.modBank b fun k =>
            { k with spare0 := if e.2 = 0 then some e.1 else k.spare0, spare1 := if e.2 = 1 then some e.1 else k.spare1,
                     due := k.due.filter fun d => d.1 ≠ e.1, corr := Tab.set 0 k.corr e.1 0, fieldRepairs := k.fieldRepairs + 1,
                     copying := k.copying.filter fun c => c.1 ≠ e.1 } with
          wrongBits := Tab.clear x.wrongBits fun a => decide (lo ≤ a ∧ a < lo + 64) }
      (s.count 0x523004).record 0x0202 3 (leBytes 1 b ++ leBytes 1 e.1 ++ leBytes 1 (32 + e.2)) st b) s
    if !had && ((s.stand st).bank b).noSpare then ((s.stand st).bank b).due.foldl (fun s d => s.rowDegraded st b d.1) s else s) s
/-- A fence shows in the service map from the next boundary (R364): of a core that serves, or of core 16 in a pair. -/
def State.fenceMap (s : State) (st : Nat) : State :=
  let x := s.stand st
  match (List.range 16).find? fun p => (s.core st (x.coreAt p)).fenced with
  | some p => s.modStand st fun x => { x with svc := { x.svc with fenced := x.coreAt p } }
  | none =>
    if (s.core st 16).fenced && (x.pairA.isSome || x.pairB.isSome) then s.modStand st fun x => { x with svc := { x.svc with fenced := 16 } }
    else s
/-- A bank in COMPUTE that is unusable becomes FAILED at the first boundary after its core was fenced (R32, R50). -/
def ABank.fencedBank (k : ABank) : ABank := if k.usable && k.lostCheck then { k with st := .failed } else k
/-- The banks of a stand's fenced cores. -/
def State.fencedBanks (s : State) (st : Nat) : State :=
  ((List.range 17).filter fun c => (s.core st c).fenced).foldl (fun s c =>
    s.modCore st c fun x => { x with bankA := x.bankA.fencedBank, bankB := x.bankB.fencedBank }) s
/-- One stand at a boundary: row maps, service map, the end of a quarantine (R365), the costs of repeats (R83). -/
def State.standBoundary (s : State) (st : Nat) : State :=
  let s := (((s.rowsBoundary st).coppiceBoundary st).fenceMap st).fencedBanks st
  s.modStand st fun x =>
    { x with quarantined := false, dogHold := 0, tile := x.tile.map fun t => { t with cost := 0 },
             tiles := x.tiles.map fun t => { t with cost := 0 } }
/-- Stands on which a boundary acts: those listed, and those of which only a fenced core is. -/
def State.boundaryStands (s : State) : List Nat :=
  (s.stands.map fun e => e.1) ++
  ((s.cores.filter fun e => e.2.fenced && !s.stands.any fun x => x.1 == e.1 / 17).map fun e => e.1 / 17).eraseDups
/-- Column maps and shadow trims of a bank take effect (R60, R411). -/
def ABank.boundary (k : ABank) : ABank :=
  { k with map := k.nextMap.getD k.map, nextMap := none, trims := k.shadow.getD k.trims, shadow := none }
/-- Arrays at a boundary; each committed array calibration is counted (R411). -/
def State.arraysBoundary (s : State) : State :=
  let done := s.cores.filter fun e => e.2.bankA.shadow.isSome || e.2.bankB.shadow.isSome
  let n := done.length
  let s := done.foldl (fun s e =>
    let q := quadrant (e.1 / 17)
    { s with sense := { s.sense with quadPending := Tab.set 0 s.sense.quadPending q (Tab.get 0 s.sense.quadPending q - 1),
                                     quadCommit := Tab.set 0 s.sense.quadCommit q s.time.beat } }) s
  (s.mapCores fun _ c => { c with bankA := c.bankA.boundary, bankB := c.bankB.boundary }).count 0x514003 n
/-- ADC corrections of a finished run take effect (R408). -/
def State.adcBoundary (s : State) : State :=
  if s.sense.adcRunEnd then
    let f := fun (_ : Nat) (a : Adc) => match a.shadow with
      | some (o, g) => { a with offset := o, gain := g, shadow := none }
      | none => a
    ({ s with sense := { s.sense with adcRunEnd := false, adcs := Tab.mapVals {} f s.sense.adcs, adcCommit := s.time.beat } } : State).count
      0x514001
  else s
/-- Seam replays of the beat are over (R224). -/
def State.seamBoundary (s : State) : State :=
  { s with seams := Tab.mapVals {} (fun _ x => { x with replays := 0 }) s.seams }

/-! ## The serving engine's boundary cycle (R231) -/

/-- Steps before and in step 2: commands, the switch, the retirement (R289 to R291). A completion that an arrival of this
boundary causes is applied at the next one. -/
def State.epochBoundary (s : State) : State :=
  let s := s.weightBoundary.adapterBoundary.repairMaster
  s.switchComplete.retireComplete.switchPointer.switchArrive.retireArrive
/-- The steps of R231 in order; blocks received are applied before step 5 (R255). An orderly stop leaves steps 3 to 5 out (R402), and
the stopped ARITH clock all but the commands on weights (R404). -/
def State.serveBoundary (s : State) (returns : List ReturnEntry) (anns : List AnnEntry) : State :=
  if s.sense.stop = 3 then s.epochBoundary
  else
    let s := (s.servCommit returns).epochBoundary.servStop.emptyBatch
    let s := if s.sense.stop = 0 then s.servSample.servAdmit else s
    let s := anns.foldl State.applyAnn s.servRates
    let s := if s.sense.stop = 0 then s.servAllocate else s
    s.servAnnounce.servEnd.servPublish

/-! ## BEAT_BOUNDARY and BEAT_LAUNCH -/

/-- The completion gather shows every stand complete (R177, R197). -/
def State.allComplete (s : State) : Bool := s.stands.all fun e => e.2.complete
/-- A boundary can fall: the TIME domain runs (RUNNING or WARM_RESET), the beat counter is not frozen, the clock was not stopped
in the middle of a beat, every stand is complete. -/
def State.canOpen (s : State) : Bool :=
  decide (s.power.state = 3 ∨ s.power.state = 4) && !s.time.frozen && decide (s.sense.stop ≠ 4) && s.allComplete
/-- The RESET record, written after the exit (R442). -/
def State.resetRecord (s : State) : State :=
  s.record 0x0A04 3 (leBytes 4 s.power.cause.toNat ++ leBytes 8 s.power.causeBeat)
/-- Ends of a WARM reset at its first boundary (R426 step 4). -/
def State.warmEnd (s : State) : State :=
  if s.power.state = 4 then
    (({ s with power := { s.power with state := 3 } } : State).count 0x512001).resetRecord.due 19
  else s
/-- The effects of a fault stop begin: SERVING becomes DRAINING (R379). -/
def State.faultDrain (s : State) : State :=
  if s.rel.health = 2 then ({ s with rel := { s.rel with stopNow := true } } : State).serveDrain else s
/-- Launches may follow this boundary (R184, R190, R402, R404). -/
def State.mayLaunch (s : State) : Bool :=
  decide (s.sense.stop = 0) && !s.time.hazardStop && !s.time.resumeWait && !s.binary.fresh
/-- The effects of a boundary, in order. -/
def State.boundary (s : State) (returns : List ReturnEntry) (anns : List AnnEntry) : State :=
  let s := s.openBeat.warmEnd.faultDrain
  let s := s.serveBoundary returns anns
  let s := ({ s with binary := { s.binary with fresh := false } } : State).binaryBoundary
  let s := if s.binary.fresh then { s with time := { s.time with originDue := true } } else s
  let s := s.takeSlip
  let s := s.boundaryStands.foldl State.standBoundary s
  let s := s.arraysBoundary.adcBoundary.seamBoundary.remapBoundary
  let s := { s with sense := { s.sense with stopBoundary := if s.sense.stop = 2 ∧ s.sense.stopBoundary = none then some s.time.tick
    else s.sense.stopBoundary } }
  let s := { s with time := { s.time with launchDue := s.mayLaunch, frozen := s.time.hazardStop } }
  s.sendDue
/-- BEAT_BOUNDARY (R197): the return table of the ended beat and the announcement blocks received in it. -/
def execBeatBoundary (returns : List ReturnEntry) (anns : List AnnEntry) (s : State) : Res :=
  if s.canOpen then .next (s.boundary returns anns) else .next s

/-! ## Forced clearings (R373) -/

/-- The spare of a bank that a repair takes. -/
def SpadBank.freeSpare (k : SpadBank) : Option Nat :=
  let used := fun (i : Nat) => k.copying.any fun c => c.2 == i
  if k.spare0.isNone ∧ !used 0 then some 0 else if k.spare1.isNone ∧ !used 1 then some 1 else none
/-- Slices run in this lifecycle state (Table 12.5). -/
def State.slicesRun (s : State) : Bool := s.power.lifecycle = 0 || s.power.lifecycle = 2 || s.power.lifecycle = 3
/-- Ticks of a sweep period [0x2100:03]. -/
def State.sweepTicks (s : State) : Nat := sec (s.setting 0x210003 600)
/-- An item due since a tick has waited 1 s [0x2100:04] without a clearing beat by f. -/
def State.waitedLong (s : State) (since : Nat) (f : Nat → Bool) : Bool :=
  decide (since + sec 1 ≤ s.time.tick) && !s.clearedIn (s.time.tick - since) f
/-- Core of a maintenance item of the test engine or of calibration. -/
def maintCore : MaintKind → Nat
  | .core c | .trim c => c
  | _ => 16
/-- Items of a stand that force a clearing: due for 1 s without a clearing beat, or a row repair after an uncorrectable read; a row
without a spare left is no item. -/
def State.forcedItems (s : State) (st : Nat) : Nat :=
  let x := s.stand st
  let cores := (List.range 17).filter fun c =>
    !(s.core st c).fenced && s.waitedLong ((s.core st c).sliceTick + s.sweepTicks) (s.clearCore st c)
  let banks := (List.range 32).filter fun b => s.waitedLong ((x.bank b).sliceTick + s.sweepTicks) (s.clearBank st b)
  let rows := ((List.range 32).map fun b =>
    if (x.bank b).freeSpare.isSome then ((x.bank b).due.filter fun d => d.2.1 || s.waitedLong d.2.2 (s.clearBank st b)).length else 0).sum
  let scrubs := (List.range 32).filter fun k =>
    let key := k / 16 * 80000 + st * 16 + k % 16
    s.weights.scrubLeft.contains key && ((s.core st (x.coreAt (k % 16))).bank (decide (k / 16 = 1))).st == .compute &&
      s.waitedLong (s.scrubPoint key) (s.clearCore st (x.coreAt (k % 16)))
  (if s.slicesRun ∧ s.setting 0x210001 1 = 1 then cores.length + banks.length else 0) + rows + scrubs.length +
    (x.maint.filter fun m => s.waitedLong m.since (s.clearCore st (maintCore m.kind))).length

/-! ## BEAT_LAUNCH -/

/-- The launch at one stand (R180): deferred repeats, then the slot's entry; NONE launches nothing. A forced clearing comes before
both (R373). -/
def State.launchStand (s : State) (st : Nat) : State :=
  if s.isAway st then s
  else match s.entryOf st s.time.beat with
    | some e =>
      let n := s.forcedItems st
      let go := fun (c : Option (Nat × Nat)) (x : Stand) => { x with pc := bits e 13 0, running := true, bended := false, clearing := c }
      if 0 < n then s.modStand st (go (some (s.time.tick, n))) else (s.startDeferred st).modStand st (go none)
    | none => (s.startDeferred st).modStand st fun x => { x with running := false, bended := false }
/-- BEAT_LAUNCH (R198): the launch pulse reaches every stand, once per boundary. -/
def execBeatLaunch (s : State) : Res :=
  if s.time.launchDue ∧ s.power.state = 3 then
    .next (allStands.foldl State.launchStand { s with time := { s.time with launchDue := false } })
  else .next s

/-! ## The beat watchdog (R178) -/

/-- Ticks of this beat in which a BWT on an extended channel held the controller. -/
def State.heldTicks (s : State) (st : Nat) : Nat :=
  let x := s.stand st
  x.dogHold + match x.backlog with
    | i :: _ => if s.peerWait i then s.time.tick - max x.headSince s.time.start else 0
    | [] => 0
/-- The watchdog has expired. -/
def State.dogExpired (s : State) (st : Nat) : Bool :=
  !(s.stand st).complete && decide (s.time.start + s.setting 0x235006 16 * s.time.len + s.heldTicks st < s.time.tick)
/-- The reset, its record, and the fault stop of a stand that takes three in 1,000 beats (R178, R379). -/
def State.dogReset (s : State) (st : Nat) : State :=
  let s := (s.resetStand st 6 true).count 0x525008 |>.count 0x512002
  let s := s.record 0x020B 0 (leBytes 2 (s.node st).inc) st
  let bs := ((s.stand st).dogBeats.filter fun b => decide (s.time.beat < b + 1000)) ++ [s.time.beat]
  let s := s.modStand st fun x => { x with dogBeats := bs }
  if 3 ≤ bs.length then s.faultStop 0x020B else s
/-- BEAT_WATCHDOG. -/
def execBeatWatchdog (st : StandId) (s : State) : Res := if s.dogExpired st then .next (s.dogReset st) else .next s

/-! ## Scratchpad errors and row repair (R100, R104) -/

/-- SCRATCHPAD_UE: a read finds the word uncorrectable (R100, R365, R370). -/
def execScratchpadUe (st : StandId) (bank : SBank) (row : RowNo) (word : Fin 64) (opcode : Byte) (s : State) : Res :=
  let a := bank.val * 2048 + row.val * 64 + word.val
  let s := s.modStand st fun x => { x with wrongBits := Tab.set 0 x.wrongBits a (max 2 (Tab.get 0 x.wrongBits a)) }
  .next (s.spadUe st bank row word opcode.toNat)
/-- The repair of a due row starts (R104): in a forced clearing, or, unless it follows an uncorrectable read, in a clearing beat that is
not shortened. -/
def State.repairStarts (s : State) (st b : Nat) (ue : Bool) : Bool :=
  s.forcedOpen st || (!ue && s.clearingBank st b && !s.shortened)
/-- ROW_REPAIR: the row is copied to a spare; a start in a shortened beat is withheld (R201). -/
def execRowRepair (st : StandId) (bank : SBank) (row : RowNo) (s : State) : Res :=
  let k := (s.stand st).bank bank
  match k.due.find? fun d => d.1 = row.val, k.freeSpare with
  | some d, some i =>
    if k.copying.any fun c => c.1 = row.val then .next s
    else if s.repairStarts st bank d.2.1 then
      .next (s.modStand st fun x => x.modBank bank fun k => { k with copying := k.copying ++ [(row.val, i)] })
    else if !d.2.1 && s.clearingBank st bank then .next (s.count 0x520006)
    else .next s
  | _, _ => .next s

end Sys2Proof.Machine
end

