-- ==== Sys2Proof/Machine/Entries.lean ====
section
/-! DEFINITION. The object dictionary's entries: types, access codes, defaults, persistence, ranges and gates, as the entry
tables of the spec give them (0 R12 to R15, 15 R451). -/

namespace Sys2Proof.Machine

/-- An entry's attributes (Table 15.4). `ty` 1 UINT8 to 7 OCTET; `access` 0 RO, 1 RW, 2 W1C, 3 WO, 4 RWL; `gate`: bit s for
lifecycle state s; `dflt` none: not a fixed number. -/
structure Entry where
  idx : Nat
  sub : Nat
  ty : Nat
  size : Nat
  access : Nat
  dflt : Option Nat
  per : Bool
  gate : Nat
  lo : Int
  hi : Int
  deriving DecidableEq, Repr

/-- Bytes of a scalar type. -/
def tySize (ty : Nat) : Nat := if ty = 1 then 1 else if ty = 2 ∨ ty = 5 then 2 else if ty = 3 ∨ ty = 6 then 4 else 8
/-- A read-only scalar. -/
def Entry.ro (idx sub ty : Nat) (dflt : Option Nat) (per : Bool) : Entry :=
  { idx, sub, ty, size := tySize ty, access := 0, dflt, per, gate := 0, lo := 0, hi := 0 }
/-- A scalar to read and write. -/
def Entry.rw (idx sub ty : Nat) (dflt : Option Nat) (per : Bool) (lo hi : Int) : Entry :=
  { idx, sub, ty, size := tySize ty, access := 1, dflt, per, gate := 0, lo, hi }
/-- A scalar to write. -/
def Entry.wo (idx sub ty : Nat) (lo hi : Int) : Entry :=
  { idx, sub, ty, size := tySize ty, access := 3, dflt := none, per := false, gate := 0, lo, hi }
/-- A scalar under a lifecycle gate. -/
def Entry.rwl (idx sub ty : Nat) (dflt : Option Nat) (per : Bool) (lo hi : Int) (gate : Nat) : Entry :=
  { idx, sub, ty, size := tySize ty, access := 4, dflt, per, gate, lo, hi }
/-- An OCTET entry. -/
def Entry.oct (idx sub size access : Nat) (per : Bool) (gate : Nat) : Entry :=
  { idx, sub, ty := 7, size, access, dflt := none, per, gate, lo := 0, hi := 0 }

/-- Entries of indices 0x1000 to 0x10FF. -/
def entries10 : List Entry :=
  [[.ro 0x1000 1 4 none false,
    .oct 0x1000 2 6 0 false 0,
    .oct 0x1000 3 16 0 false 0,
    .ro 0x1000 4 1 none true,
    .ro 0x1000 5 1 (some 0) false],
   [.oct 0x1010 1 16 3 false 0,
    .oct 0x1010 2 400 3 false 0,
    .rwl 0x1010 3 1 (some 0) true 0 1 11]].flatten
/-- Entries of indices 0x1100 to 0x11FF. -/
def entries11 : List Entry :=
  [[.wo 0x1100 1 1 1 2,
    .wo 0x1100 2 2 0 5106,
    .ro 0x1100 3 3 none false,
    .ro 0x1100 4 4 none false,
    .ro 0x1100 5 4 none false,
    .ro 0x1100 6 1 (some 0) false],
   [.rw 0x1100 7 1 (some 0) true 0 1,
    .rw 0x1100 8 3 (some 60) true 1 86400,
    .rw 0x1100 9 1 (some 0) true 0 2,
    .ro 0x1100 10 2 (some 0) false],
   [.rwl 0x1110 1 3 none true 0 0 9,
    .rwl 0x1110 2 3 none true 0 0 9,
    .rwl 0x1110 3 3 none true 0 0 9,
    .rwl 0x1110 4 3 none true 0 0 9,
    .rwl 0x1110 5 3 none true 0 0 9]].flatten
/-- Entries of indices 0x1200 to 0x12FF. -/
def entries12 : List Entry :=
  [[.ro 0x1200 1 2 none false,
    .ro 0x1200 2 2 none false,
    .rw 0x1200 3 2 (some 1500) true 800 1500,
    .ro 0x1200 4 1 (some 0) false],
   [.rw 0x1210 1 1 (some 0) false 0 67,
    .ro 0x1210 2 2 none false]].flatten
/-- Entries of indices 0x1300 to 0x13FF. -/
def entries13 : List Entry :=
  [[.ro 0x1300 1 3 (some 0) false,
    .ro 0x1300 2 5 none false,
    .rw 0x1300 3 5 (some 6080) true 4480 6080,
    .ro 0x1300 4 5 (some 6720) false,
    .ro 0x1300 5 5 (some 7360) false,
    .ro 0x1300 6 5 (some 7040) false],
   [.rw 0x1300 7 1 (some 3) true 1 10,
    .rw 0x1300 8 1 (some 0) true 0 1,
    .rw 0x1300 9 2 (some 100) true 10 10000,
    .rw 0x1300 10 2 (some 500) true 100 10000,
    .rw 0x1300 11 5 (some 5760) true 3840 5888,
    .ro 0x1300 12 1 (some 0) false],
   [.rw 0x1310 1 1 (some 0) false 0 7,
    .rw 0x1310 2 2 (some 3435) true 2000 6000,
    .rw 0x1310 3 3 (some 10000) true 1000 1000000,
    .rw 0x1310 4 5 (some 5440) true 0 8000,
    .ro 0x1310 5 5 none false]].flatten
/-- Entries of indices 0x1400 to 0x14FF. -/
def entries14 : List Entry :=
  [[.rw 0x1400 1 1 (some 5) true 1 20,
    .rw 0x1400 2 3 (some 86400) true 3600 2592000,
    .wo 0x1400 3 1 0 4,
    .ro 0x1400 4 4 (some 0) false,
    .ro 0x1400 5 1 (some 0) false],
   [.rw 0x1410 1 1 (some 0) false 0 95,
    .ro 0x1410 2 3 (some 0) false,
    .ro 0x1410 3 6 none false,
    .ro 0x1410 4 6 none false,
    .rwl 0x1410 5 6 none true (-8388608) 8388607 9,
    .rwl 0x1410 6 3 none true 0 4294967295 9],
   [.rw 0x1410 7 3 (some 0) true 0 4294967295,
    .rw 0x1410 8 1 (some 4) true 0 9],
   [.rw 0x1420 1 1 (some 0) false 0 3,
    .ro 0x1420 2 5 none false,
    .ro 0x1420 3 4 (some 0) false,
    .ro 0x1420 4 3 (some 0) false]].flatten
/-- Entries of indices 0x1500 to 0x15FF. -/
def entries15 : List Entry :=
  [[.ro 0x1500 1 1 none false,
    .rw 0x1500 2 1 (some 0) true 0 1,
    .wo 0x1500 3 1 0 64,
    .oct 0x1500 4 16 0 false 0,
    .oct 0x1500 5 4096 0 false 0],
   [.oct 0x1510 1 422 4 true 2,
    .oct 0x1510 2 422 4 true 2,
    .oct 0x1510 3 422 4 true 2,
    .oct 0x1510 4 422 4 true 2,
    .oct 0x1510 5 832 3 false 0],
   [.oct 0x1520 1 32 0 false 0,
    .oct 0x1520 2 32 0 false 0]].flatten
/-- Entries of indices 0x1F00 to 0x1FFF. -/
def entries1F : List Entry :=
  [[.oct 0x1F00 1 1573184 0 false 0],
   [.ro 0x1F10 1 2 (some 100) false,
    .rw 0x1F10 2 2 (some 1000) true 100 10000,
    .rw 0x1F10 3 1 (some 0) true 0 1,
    .rw 0x1F10 4 2 (some 51201) true 49152 65535,
    .oct 0x1F10 5 16 1 true 0,
    .rw 0x1F10 6 1 (some 128) true 0 128],
   [.oct 0x1F20 1 8388608 3 false 0,
    .ro 0x1F20 2 2 (some 0) false]].flatten
/-- Entries of indices 0x2000 to 0x20FF. -/
def entries20 : List Entry :=
  [[.ro 0x2000 1 2 (some 800) false,
    .ro 0x2000 2 4 (some 0) false,
    .ro 0x2000 3 3 (some 0) false,
    .ro 0x2000 4 1 (some 25) false,
    .rw 0x2000 5 2 (some 64) true 1 4096,
    .ro 0x2000 6 1 (some 15) false],
   [.ro 0x2000 7 4 (some 0) false]].flatten
/-- Entries of indices 0x2100 to 0x21FF. -/
def entries21 : List Entry :=
  [[.rw 0x2100 1 1 (some 1) true 0 1,
    .ro 0x2100 2 2 (some 850) false,
    .rw 0x2100 3 3 (some 600) true 60 86400,
    .ro 0x2100 4 2 (some 1000) false,
    .ro 0x2100 5 1 (some 32) false,
    .rw 0x2100 6 1 (some 8) true 0 255],
   [.wo 0x2100 7 1 0 3,
    .ro 0x2100 8 3 (some 0) false],
   [.oct 0x2110 1 8 4 false 9]].flatten
/-- Entries of indices 0x2200 to 0x22FF. -/
def entries22 : List Entry :=
  [[.ro 0x2200 1 2 (some 256) false,
    .ro 0x2200 2 2 (some 512) false,
    .rw 0x2200 3 2 (some 4096) true 0 4096,
    .ro 0x2200 4 1 (some 1) false,
    .ro 0x2200 5 1 (some 4) false],
   [.rw 0x2210 1 3 (some 0) false 0 84999,
    .ro 0x2210 2 3 none false,
    .ro 0x2210 3 4 (some 0) false,
    .ro 0x2210 4 4 (some 0) false,
    .ro 0x2210 5 3 (some 0) true,
    .ro 0x2210 6 3 (some 0) true],
   [.ro 0x2210 7 4 (some 0) false],
   [.rw 0x2220 1 2 (some 16) true 0 65534,
    .rw 0x2220 2 1 (some 1) true 0 1,
    .ro 0x2220 3 3 (some 65536) false,
    .ro 0x2220 4 4 none false,
    .ro 0x2220 5 4 (some 0) false,
    .ro 0x2220 6 1 (some 0) false]].flatten
/-- Entries of indices 0x2300 to 0x23FF. -/
def entries23 : List Entry :=
  [[.ro 0x2300 1 2 (some 20) false,
    .ro 0x2300 2 2 (some 1200) false,
    .rw 0x2300 3 1 (some 4) true 1 255,
    .ro 0x2300 4 1 (some 16) false,
    .ro 0x2300 5 1 (some 16) false],
   [.rw 0x2310 1 2 (some 0) false 0 4999,
    .rw 0x2310 2 1 (some 0) false 0 31,
    .ro 0x2310 3 2 none false,
    .ro 0x2310 4 1 (some 0) false,
    .ro 0x2310 5 2 none false,
    .ro 0x2310 6 1 (some 0) true],
   [.ro 0x2340 1 3 (some 32768) false,
    .ro 0x2340 2 1 (some 6) false,
    .ro 0x2340 3 1 (some 2) false,
    .ro 0x2340 4 1 (some 64) false,
    .ro 0x2340 5 1 (some 4) false,
    .ro 0x2340 6 3 (some 65536) false],
   [.ro 0x2340 7 3 (some 16777216) false],
   [.ro 0x2350 1 4 (some 0) false,
    .oct 0x2350 2 32 0 false 0,
    .ro 0x2350 3 2 none false,
    .ro 0x2350 4 4 none false,
    .ro 0x2350 5 4 none false,
    .rw 0x2350 6 2 (some 16) true 2 1024],
   [.ro 0x2350 7 2 (some 16384) false,
    .ro 0x2350 8 1 (some 4) false],
   [.ro 0x2360 1 1 (some 0) false,
    .rw 0x2360 2 1 (some 0) false 0 1,
    .ro 0x2360 3 1 (some 0) false],
   [.oct 0x2370 1 32 3 false 0,
    .ro 0x2370 2 2 (some 0) false,
    .ro 0x2370 3 4 (some 0) false]].flatten
/-- Entries of indices 0x2400 to 0x24FF. -/
def entries24 : List Entry :=
  [[.rw 0x2400 1 1 (some 16) true 0 255,
    .rw 0x2400 2 1 (some 2) true 1 16,
    .ro 0x2400 3 1 (some 32) false,
    .ro 0x2400 4 1 (some 8) false,
    .ro 0x2400 5 1 (some 8) false],
   [.rw 0x2410 1 1 (some 0) false 0 49,
    .ro 0x2410 2 3 none false],
   [.rw 0x2420 1 1 (some 0) false 0 63,
    .ro 0x2420 2 2 (some 0) false,
    .ro 0x2420 3 3 (some 0) false,
    .ro 0x2420 4 2 (some 0) false,
    .ro 0x2420 5 1 (some 0) false]].flatten
/-- Entries of indices 0x2500 to 0x25FF. -/
def entries25 : List Entry :=
  [[.ro 0x2500 1 4 (some 504000000000) false,
    .ro 0x2500 2 4 (some 1536000000000) false,
    .ro 0x2500 3 4 (some 64000000000) false,
    .ro 0x2500 4 4 (some 63000000000) false,
    .rw 0x2500 5 4 (some 100000000000) true 68719476736 503999999744,
    .rw 0x2500 6 4 (some 100000000000) true 100000000000 1535999999744],
   [.rw 0x2500 7 2 (some 10) true 1 1000,
    .ro 0x2500 8 1 (some 32) false,
    .ro 0x2500 9 1 (some 16) false,
    .rw 0x2500 10 3 (some 86400) true 3600 2592000,
    .ro 0x2500 11 4 (some 63100000000) false],
   [.rw 0x2510 1 1 (some 0) false 0 92,
    .rw 0x2510 2 1 (some 0) false 0 20,
    .rw 0x2510 3 4 (some 0) false 0 0,
    .rw 0x2510 4 4 (some 0) false 0 0,
    .rw 0x2510 5 3 (some 0) false 0 0,
    .rw 0x2510 6 1 none true 0 3],
   [.wo 0x2510 7 1 1 1,
    .ro 0x2510 8 1 (some 0) false,
    .ro 0x2510 9 2 (some 65535) false],
   [.rw 0x2520 1 1 (some 0) false 0 7,
    .ro 0x2520 2 2 none false],
   [.rw 0x2530 1 2 (some 0) false 0 5106,
    .ro 0x2530 2 2 (some 1) false,
    .ro 0x2530 3 1 (some 0) false]].flatten
/-- Entries of indices 0x2600 to 0x26FF. -/
def entries26 : List Entry :=
  [[.rwl 0x2600 1 3 (some 0) true 0 4294967295 2,
    .rwl 0x2600 2 1 (some 0) true 0 15 2,
    .oct 0x2600 3 128 4 true 2,
    .oct 0x2600 4 8 0 false 0,
    .rw 0x2600 5 2 (some 100) true 10 10000,
    .rw 0x2600 6 1 (some 4) true 2 64],
   [.rw 0x2600 7 2 (some 20) true 5 1000,
    .rw 0x2600 8 2 (some 200) true 20 10000,
    .rw 0x2600 9 2 (some 51200) true 49152 65535,
    .rw 0x2600 10 2 (some 4000) true 1 4094,
    .oct 0x2600 11 3200 1 true 0,
    .rw 0x2600 12 1 (some 0) true 0 79],
   [.rw 0x2610 1 1 (some 0) false 0 13,
    .ro 0x2610 2 3 none false,
    .rw 0x2610 3 1 (some 255) true 0 255,
    .oct 0x2610 4 16 1 true 0,
    .rw 0x2610 5 1 (some 64) true 1 128,
    .oct 0x2610 6 16 1 true 0],
   [.rw 0x2610 7 1 (some 0) true 0 63],
   [.rw 0x2620 1 4 (some 0) true 0 18446744073709551615,
    .rw 0x2620 2 1 (some 0) false 0 13,
    .rw 0x2620 3 1 (some 0) false 0 15,
    .oct 0x2620 4 16 1 true 0],
   [.rw 0x2630 1 1 (some 0) false 0 65,
    .oct 0x2630 2 10 1 true 0,
    .ro 0x2630 3 1 none false,
    .ro 0x2630 4 3 (some 0) false],
   [.oct 0x2640 1 16 1 true 0,
    .ro 0x2640 2 1 (some 4) false]].flatten
/-- Entries of indices 0x2700 to 0x27FF. -/
def entries27 : List Entry :=
  [[.ro 0x2700 1 3 (some 0) false,
    .ro 0x2700 2 2 none false,
    .ro 0x2700 3 2 none false,
    .ro 0x2700 4 2 (some 32) false,
    .ro 0x2700 5 2 (some 4096) false,
    .ro 0x2700 6 4 (some 68719476736) false],
   [.rw 0x2700 7 1 (some 8) true 1 8,
    .rw 0x2700 8 1 (some 63) true 0 63]].flatten
/-- Entries of indices 0x3000 to 0x30FF. -/
def entries30 : List Entry :=
  [[.rw 0x3000 1 1 (some 0) false 0 2,
    .rw 0x3000 2 4 (some 0) true 0 63999999936,
    .rw 0x3000 3 4 (some 64) true 0 63991611392,
    .ro 0x3000 4 3 (some 65536) false,
    .rw 0x3000 5 4 (some 8388672) true 0 63932891136,
    .ro 0x3000 6 3 (some 1048576) false],
   [.rw 0x3000 7 2 (some 4096) true 1 65535,
    .ro 0x3000 8 2 (some 16384) false,
    .ro 0x3000 9 3 (some 65536) false,
    .rw 0x3000 10 1 (some 4) true 1 255,
    .rw 0x3000 11 2 (some 0) true 0 65535,
    .ro 0x3000 12 1 (some 3) false],
   [.rw 0x3000 13 3 (some 125000) true 1 4294967295,
    .ro 0x3000 14 2 (some 4096) false,
    .ro 0x3000 15 3 (some 131072) false],
   [.rw 0x3010 1 2 (some 0) false 0 1023,
    .rw 0x3010 2 3 (some 65536) true 0 81920,
    .rw 0x3010 3 3 (some 4294967295) true 0 4294967295,
    .ro 0x3010 4 3 (some 0) false,
    .ro 0x3010 5 3 (some 0) false],
   [.rw 0x3020 1 4 (some 0) true 0 18446744073709551615,
    .rw 0x3020 2 2 (some 0) true 1 4096,
    .rw 0x3020 3 1 (some 0) true 1 64,
    .rw 0x3020 5 1 (some 2) true 1 64,
    .rw 0x3020 6 3 (some 0) true 0 4294967295,
    .rw 0x3020 7 3 (some 0) true 0 4294967295],
   [.rw 0x3020 8 3 (some 4294967295) true 0 4294967295,
    .rw 0x3020 9 1 (some 4) true 0 4,
    .rw 0x3020 10 2 (some 0) true 0 65535,
    .rw 0x3020 11 1 (some 0) true 0 79,
    .rw 0x3020 12 3 (some 0) true 0 4294967295]].flatten
/-- Entries of indices 0x3100 to 0x31FF. -/
def entries31 : List Entry :=
  [[.oct 0x3100 1 32 3 false 0,
    .ro 0x3100 2 2 (some 0) false,
    .ro 0x3100 3 3 none false,
    .ro 0x3100 4 3 none false,
    .ro 0x3100 5 1 none false,
    .ro 0x3100 6 4 none false],
   [.ro 0x3100 7 1 (some 0) false,
    .rw 0x3100 8 2 (some 1000) true 1 5000,
    .ro 0x3100 9 2 (some 60) false,
    .ro 0x3100 10 1 (some 4) false,
    .ro 0x3100 11 1 (some 3) false,
    .rw 0x3100 12 4 (some 83886080) true 0 63991607296],
   [.rw 0x3100 13 3 (some 86400) true 0 2592000,
    .wo 0x3100 14 1 0 15,
    .ro 0x3100 15 2 (some 65535) false,
    .ro 0x3100 16 2 (some 4096) false],
   [.rw 0x3110 1 2 (some 0) false 0 4999,
    .rw 0x3110 2 1 (some 0) false 0 1,
    .ro 0x3110 3 3 none false,
    .ro 0x3110 4 4 (some 0) false,
    .oct 0x3110 5 625 0 false 0,
    .oct 0x3110 6 625 0 false 0]].flatten
/-- Entries of indices 0x3200 to 0x32FF. -/
def entries32 : List Entry :=
  [[.oct 0x3200 1 64 3 false 0,
    .ro 0x3200 2 2 (some 0) false,
    .ro 0x3200 3 2 (some 4096) false,
    .ro 0x3200 4 4 none false],
   [.rw 0x3210 1 2 (some 0) false 0 4095,
    .ro 0x3210 2 4 none false,
    .ro 0x3210 3 3 none false]].flatten
/-- Entries of indices 0x4000 to 0x40FF. -/
def entries40 : List Entry :=
  [[.ro 0x4000 1 3 (some 1048576) false,
    .ro 0x4000 2 4 (some 0) false,
    .rw 0x4000 3 4 (some 0) false 0 18446744073709551615],
   [.ro 0x4010 1 2 (some 0) false,
    .oct 0x4010 2 264 0 false 0,
    .wo 0x4010 3 4 0 18446744073709551615,
    .rw 0x4010 4 1 (some 0) true 0 1],
   [.ro 0x4020 1 1 (some 0) false,
    .ro 0x4020 2 2 (some 0) false,
    .ro 0x4020 3 1 (some 0) false,
    .oct 0x4020 4 256 0 false 0],
   [.ro 0x4030 1 2 none false,
    .ro 0x4030 2 3 none false,
    .ro 0x4030 3 2 none false,
    .ro 0x4030 4 2 none false,
    .ro 0x4030 5 1 none false],
   [.rw 0x4040 1 3 (some 9000000) true 1 10000000,
    .ro 0x4040 2 3 (some 10000000) false,
    .ro 0x4040 3 3 (some 0) false]].flatten
/-- Counter indices and their highest subindex (R61 and the counter tables). -/
def counterTops : List (Nat × Nat) :=
  [(0x5110, 4), (0x5120, 4), (0x5130, 5), (0x5140, 5), (0x5200, 6), (0x5210, 6), (0x5220, 7), (0x5222, 7)] ++
  [(0x5230, 10), (0x5240, 7), (0x5250, 9), (0x5260, 9), (0x5261, 1), (0x5270, 11), (0x5280, 15), (0x5290, 12)] ++
  [(0x5300, 16), (0x5310, 10), (0x5320, 3), (0x5400, 7), (0x5401, 4)]
/-- Entries of a group of 256 indices. -/
def entryGroup (g : Nat) : List Entry :=
  match g with
  | 0x10 => entries10
  | 0x11 => entries11
  | 0x12 => entries12
  | 0x13 => entries13
  | 0x14 => entries14
  | 0x15 => entries15
  | 0x1F => entries1F
  | 0x20 => entries20
  | 0x21 => entries21
  | 0x22 => entries22
  | 0x23 => entries23
  | 0x24 => entries24
  | 0x25 => entries25
  | 0x26 => entries26
  | 0x27 => entries27
  | 0x30 => entries30
  | 0x31 => entries31
  | 0x32 => entries32
  | 0x40 => entries40
  | _ => []
/-- A counter entry (R61): cleared by writing 0, the one value accepted. -/
def counterEntry (idx sub : Nat) : Option Entry :=
  match counterTops.find? fun e => e.1 = idx with
  | some e => if 1 ≤ sub ∧ sub ≤ e.2 then some (.rw idx sub 4 (some 0) false 0 0) else none
  | none => none
/-- Stop table entries [0x3020:20] to [0x3020:5F]. -/
def stopEntry (idx sub : Nat) : Option Entry :=
  if idx = 0x3020 ∧ 0x20 ≤ sub ∧ sub ≤ 0x5F then some (.rw idx sub 3 (some 0) true 0 4294967295) else none
/-- Highest subindex in use of an index; none: the index holds no entry (R451). -/
def topSub (idx : Nat) : Option Nat :=
  if idx = 0x3020 then some 0x5F
  else match counterTops.find? fun e => e.1 = idx with
    | some e => some e.2
    | none =>
      match (entryGroup (idx / 256)).filter fun e => e.idx = idx with
      | [] => none
      | l => some ((l.map fun e => e.sub).foldl max 0)
/-- The entry at [idx:sub]; subindex 0 gives the highest subindex (R451). -/
def findEntry (idx sub : Nat) : Option Entry :=
  if sub = 0 then (topSub idx).map fun n => .ro idx 0 1 (some n) false
  else if 0x5000 ≤ idx then counterEntry idx sub
  else match stopEntry idx sub with
    | some e => some e
    | none => (entryGroup (idx / 256)).find? fun e => decide (e.idx = idx ∧ e.sub = sub)
/-- The entry of a settings key, whatever instance it selects. -/
def keyEntry (k : Nat) : Option Entry := findEntry (k / 256 % 65536) (k % 256)
/-- A key whose value every module reset returns to its default: an entry that is not persistent (R15, R451). -/
def volatileKey (k : Nat) : Bool := match keyEntry k with | some e => !e.per | none => false

end Sys2Proof.Machine
end

