-- ==== Sys2Proof/Machine/Network.lean ====
section
/-! DEFINITION. The on-die network (07 sections 7.4 to 7.9): flits, packets, multicast, reductions, the ride, barrier channels. -/

namespace Sys2Proof.Machine

/-! ## Links (R206, R224, R225, R375) -/

/-- Key of a router's link in a direction. -/
def linkKey (router dir : Nat) : Nat := router * 8 + dir
/-- Link. -/
def State.link (s : State) (router dir : Nat) : Link := Tab.get {} s.links (linkKey router dir)
/-- Change a link. -/
def State.modLink (s : State) (router dir : Nat) (f : Link → Link) : State :=
  { s with links := Tab.set {} s.links (linkKey router dir) (f (s.link router dir)) }
/-- Direction of a seam link, west to east or east to west. -/
def State.seam (s : State) (y : Nat) (ew : Bool) : Seam := Tab.get {} s.seams (2 * y + b2n ew)
/-- Change a seam direction. -/
def State.modSeam (s : State) (y : Nat) (ew : Bool) (f : Seam → Seam) : State :=
  { s with seams := Tab.set {} s.seams (2 * y + b2n ew) (f (s.seam y ew)) }
/-- Router that sends into a seam direction (R223). -/
def seamRouter (y : Nat) (ew : Bool) : Nat := if ew then 2500 + y * 50 else y * 50 + 49
/-- A router has a port toward a neighbour: 0 north, 1 south, 2 east, 3 west; none toward a die edge, and a seam port in place of one
toward the other half (R204, log 105). -/
def meshPort (router dir : Nat) : Bool :=
  let x := gcol router
  let y := grow router
  if dir = 0 then decide (y < 49) else if dir = 1 then decide (0 < y)
  else if dir = 2 then decide (x ≠ 49 ∧ x ≠ 99) else decide (dir = 3 ∧ x ≠ 0 ∧ x ≠ 50)
/-- A router's ports (R204): the mesh ports, 4 local, 5 edge, 6 seam. -/
def hasPort (router dir : Nat) : Bool :=
  meshPort router dir || dir == 4 ||
  (dir == 5 && (List.range 107).any fun k => attach (5000 + k) == router) ||
  (dir == 6 && (gcol router == 49 || gcol router == 50))
/-- FLIT_CRC_FAIL (R206): the failed flit and every later one leave the replay buffer again; on the ride the beat's replays
are counted for R224. -/
def execFlitCrcFail (router : StandId) (dir : Fin 7) (seq : BitVec 8) (s : State) : Res :=
  if !hasPort router dir then .next s
  else
  let l := s.link router dir
  let again := l.replay.dropWhile fun e => e.1 ≠ seq
  let s := (s.count 0x526001).emit (.flits router dir (again.map fun e => e.1))
  let s := s.modLink router dir fun l =>
    { l with replays := l.replays.filter (fun t => decide (s.time.tick < t + ms 1)) ++ [s.time.tick] }
  .next (if dir.val = 6 then s.modSeam (grow router) (decide (2500 ≤ router.val)) fun x => { x with replays := x.replays + 1 }
    else s)
/-- The boot self-test runs its LINK slices: rails up, before the module is RUNNING (R380). -/
def State.selfTests (s : State) : Bool := decide (s.power.railStep = 6 ∧ s.power.state < 3)
/-- A link's width fell: the record of Table 12.9, and the fault stop of a failed one (R379); at boot it is a failure that no spare
covers (R380). -/
def State.linkWidth (s : State) (router dir width : Nat) : State :=
  let s := s.record 0x0401 0 (leBytes 1 dir ++ leBytes 1 width) (unit := router) (sub := dir)
  if 2 ≤ width ∧ !s.selfTests then s.faultStop 0x0401 else s
/-- MESH_LINK_WIRE_TEST (R375): failed wires in one half, or in both; a test of the boot self-test that finds nothing new records
nothing. -/
def execMeshLinkWireTest (router : StandId) (dir : Fin 4) (lower upper : Bool) (s : State) : Res :=
  let l := s.link router dir
  if !meshPort router dir then .next s
  else
    let failed := l.testDue || decide (16 < (l.replays.filter fun t => decide (s.time.tick < t + ms 1)).length)
    let w := max l.width (if lower && upper then 2 else if lower || upper then 1 else 0)
    let t := s.modLink router dir fun l => { l with width := w, replays := [], testDue := false }
    if failed || (s.selfTests && decide (l.width < w)) then .next (t.linkWidth router dir w)
    else if s.selfTests then .next t
    else .next s
/-- Data and sideband wires of a seam direction; spares follow (R223). -/
def seamWires : Nat := 1088
/-- Map every failed wire that no working spare serves to the lowest free working spare (R224). -/
def seamMap (failed : List Nat) : List Nat → List (Nat × Nat) → List (Nat × Nat)
  | [], m => m
  | w :: t, m =>
    let served := m.any fun e => e.1 = w ∧ e.2 ∉ failed
    let free := (List.range 82).find? fun k => seamWires + k ∉ failed ∧ !m.any fun e => e.2 = seamWires + k
    match if served then none else free with
    | some k => seamMap failed t (m.filter (fun e => e.1 ≠ w) ++ [(w, seamWires + k)])
    | none => seamMap failed t m
/-- Width by working wires (R225). -/
def seamWidth (failed : Nat) : Nat := if failed ≤ 82 then 0 else if 1170 < failed + 544 then 2 else 1
/-- Wire test of a seam direction (R224, R225). -/
def State.seamTest (s : State) (y : Nat) (ew : Bool) (bad : List Nat) : State :=
  let x := s.seam y ew
  let failed := bad.foldl (fun l w => if w ∈ l then l else l ++ [w]) x.failed
  let wires := seamMap failed (failed.filter fun w => w < seamWires) x.wires
  let n := (wires.filter fun e => e ∉ x.wires).length
  let w := max x.width (seamWidth failed.length)
  let s := s.modSeam y ew fun _ => { wires := wires, failed := failed, width := w }
  let s := if n = 0 then s else (s.count 0x526005 n).record 0x0402 2 (leBytes 1 y ++ leBytes 1 (b2n ew) ++ leBytes 1 n)
    (unit := seamRouter y ew) (sub := 6)
  if x.width < w then s.linkWidth (seamRouter y ew) 6 w else s
/-- SEAM_WIRE_TEST (R224): at the boot self-test, after a failed LINK slice, or when the direction needed more than 4 replays in the beat. -/
def execSeamWireTest (link : Fin 50) (eastToWest : Bool) (failed : List (Fin 1170)) (s : State) : Res :=
  if s.selfTests ∨ (s.seam link eastToWest).testDue ∨ 4 < (s.seam link eastToWest).replays then .next (s.seamTest link eastToWest (failed.map fun w => w.val)) else .next s

/-! ## Packets (R207, R208) -/

/-- Flits of a packet of p payload words. -/
def flitsOf (p : Nat) : Nat := 1 + ceilDiv (p - 12) 16
/-- Remote write header from two words. -/
def hdrOf (ws : List Word) : WriteHdr := decHdr ((ws.getD 0 0).toNat + (ws.getD 1 0).toNat * 2 ^ 32)
/-- Body of a packet from its TYPE, TSF and payload; none when malformed (Table 7.9). -/
def decBody (type tsf : Nat) (ws : List Word) : Option Body :=
  let w0 := (ws.getD 0 0).toNat
  match type with
  | 0 => if tsf = 0 ∧ ws.length = 1 then
      some (.creq { window := bits w0 31 28, count := bits w0 27 22, mode := bit w0 21, row := bits w0 20 16, tag := bits w0 15 0 })
    else none
  | 1 =>
    let n := w0 + (ws.getD 1 0).toNat * 2 ^ 32
    if tsf = 0 ∧ ws.length = 2 ∧ bits n 59 56 ≤ 4 then
      some (.cgrant { window := bits n 63 60, status := bits n 59 56, gen := bits n 55 48, mask := BitVec.ofNat 32 (n / 65536),
                      tag := bits n 15 0 })
    else none
  | 2 => if tsf = 0 ∧ ws.length = 2 + (hdrOf ws).length then some (.write (hdrOf ws) (ws.drop 2)) else none
  | 3 =>
    let m := bit tsf 61
    let q := if m then ws.drop 8 else ws
    let r : Route := { bitmapMode := m, x0 := bits tsf 60 54, x1 := bits tsf 53 47, y0 := bits tsf 46 41, y1 := bits tsf 40 35,
                       reserved := 0, bitmap := if m then BitVec.ofNat 256 (leNat (bytesOf (ws.take 8))) else 0 }
    if tsf % 2 ^ 35 = 0 ∧ q.length = 2 + (hdrOf q).length then some (.mcast r (hdrOf q) (q.drop 2)) else none
  | 4 =>
    let n := (ws.length - 1) / 2
    if tsf % 2 ^ 14 = 0 ∧ w0 % 16 = 0 ∧ ws.length = 1 + 2 * n ∧ 1 ≤ n ∧ n ≤ 32 then
      some (.reduce { rid := bits tsf 61 46, part := bits tsf 45 41, nc := bits tsf 40 28, carried := bits tsf 27 15, lead := bit tsf 14,
                      window := bits w0 31 28, row := bits w0 27 23, gen := bits w0 22 15, count := bits w0 14 4,
                      elems := (List.range n).map fun i => rawAcc (ws.drop 1) i })
    else none
  | 5 =>
    let op := bits tsf 61 60
    let n := bits tsf 49 44 + 1
    if op ≤ 2 ∧ bits tsf 43 39 = 0 ∧ ws.length = (if op = 1 then n else if op = 2 then 2 else 0) ∧
        (op = 2 → (hdrOf ws).length = n ∧ (hdrOf ws).reserved = 0) then
      some (.memreq { op := op, tierB := bit tsf 59, lock := bit tsf 58, tag := bits tsf 57 50, wm1 := n - 1, waddr := bits tsf 38 0,
                      data := if op = 1 then ws else [], whdr := if op = 2 then some (hdrOf ws) else none })
    else none
  | 6 => if bits tsf 61 60 ≤ 1 ∧ bit tsf 58 = false ∧ bits tsf 43 0 = 0 ∧ (ws = [] ∨ ws.length = bits tsf 49 44 + 1) then
      some (.memrsp { status := bits tsf 61 60, tierB := bit tsf 59, tag := bits tsf 57 50, wm1 := bits tsf 49 44, data := ws })
    else none
  | 7 => if bits tsf 57 0 = 0 ∧ ws.length = 2 then some (.away (bits tsf 61 58) (ws.getD 0 0) (ws.getD 1 0)) else none
  | 8 => if bits tsf 41 0 = 0 ∧ bits tsf 61 60 ≤ 2 then some (.mgmt tsf ws) else none
  | _ => none
/-- A packet from its header and payload words (Table 7.8); none when its receiver discards it (R208). -/
def decPacket (hdr : BitVec 128) (ws : List Word) : Option Packet :=
  let n := hdr.toNat
  if bits n 123 121 = flitsOf ws.length ∧ flitsOf ws.length ≤ 5 then
    (decBody (bits n 127 124) (bits n 61 0) ws).map fun b =>
      { src := bits n 119 107, dst := bits n 106 94, dincv := bit n 120, sinc := bits n 93 78, dinc := bits n 77 62, body := b }
  else none
/-- PACKET_RECEIVE: discarded and counted, or taken whole: it then stands in the mesh for the command of its type. A MGMT
request is answered inside the dictionary agent (R457, log 26) or AWAY. -/
def execPacketReceive (node : NodeId) (hdr : BitVec 128) (words : List Word) (s : State) : Res :=
  match decPacket hdr words with
  | none => .next (s.count 0x526008)
  | some p =>
    match p.body with
    | .mgmt .. => .next (if s.isAway node then s.answerAway { p with dst := node } else s)
    | _ => .next (if p ∈ s.mesh then s else s.send p)
/-- MCAST_FORWARD (R215): one copy to every named stand, each a remote write. -/
def execMcastForward (p : Packet) (s : State) : Res :=
  match p.body with
  | .mcast r _ _ => .next (s.fork p ((routeStands r).map fun n => { p with dst := n }))
  | _ => .next (s.take p)

/-! ## Reductions (R217 to R221) -/

/-- Reduction part of a packet. -/
def partOf (p : Packet) : Option PartMsg := match p.body with | .reduce m => some m | _ => none
/-- Same key (R218). -/
def sameKey (p q : Packet) : Bool :=
  match partOf p, partOf q with
  | some a, some b => p.dst == q.dst && a.rid == b.rid && a.part == b.part && a.nc == b.nc
  | _, _ => false
/-- Element sums modulo 2^48. -/
def addElems (a b : List Acc) : List Acc :=
  (List.range (max a.length b.length)).map fun i => a.getD i 0 + b.getD i 0
/-- Combination of an older packet and a newer one of its key (R218); the LEAD packet gives the reduction word and the sender
(R220), of two LEADs the first. -/
def combineParts (older newer : Packet) : Packet :=
  match partOf older, partOf newer with
  | some a, some b =>
    let takeNew := b.lead && !a.lead
    let w := if takeNew then b else a
    { (if takeNew then newer else older) with
      body := .reduce { w with carried := a.carried + b.carried, lead := a.lead || b.lead, elems := addElems a.elems b.elems } }
  | _, _ => older
/-- Both packets carry LEAD (R221 cause 3). -/
def bothLead (p q : Packet) : Bool :=
  match partOf p, partOf q with
  | some a, some b => a.lead && b.lead
  | _, _ => false
/-- A case of R221: counted and recorded. -/
def State.redDiscard (s : State) (unit : Nat) (p : Packet) (cause : Nat) : State :=
  match partOf p with
  | some m => (s.count 0x526004).record 0x0403 0
      (leBytes 2 p.dst ++ leBytes 2 m.rid ++ leBytes 1 m.part ++ leBytes 1 cause) (unit := unit)
  | none => s
/-- A router lies on the path of a packet (R211): along the source row to the destination's column, then along that column. -/
def onPath (router src dst : Nat) : Bool :=
  let a := attach src
  let b := attach dst
  let x := gcol router
  let y := grow router
  let between := fun (k i j : Nat) => decide (min i j ≤ k ∧ k ≤ max i j)
  (y == grow a && between x (gcol a) (gcol b)) || (x == gcol b && between y (grow a) (grow b))
/-- Combining window [0x2400:01] in NET cycles. -/
def State.combWindow (s : State) : Nat := s.setting 0x240001 16
/-- A packet held since a tick can still combine: its window may not have ended; a tick is twelve NET cycles (Table 7.1). -/
def State.combOpen (s : State) (since : Nat) : Bool := s.time.tick == since || decide (12 * (s.time.tick - since - 1) < s.combWindow)
/-- The window of a packet held since a tick may have ended. -/
def State.windowOver (s : State) (since : Nat) : Bool := decide (s.combWindow ≤ 12 * (s.time.tick - since) + 11)
/-- REDUCE_PACKET_ARRIVE (R218): combined with a partner, held for its window, or sent on when the buffer is full. At the
destination's router the packet goes to the reduction entries. -/
def execReducePacketArrive (router : StandId) (p : Packet) (s : State) : Res :=
  if (partOf p).isNone ∨ attach p.dst = router.val ∨ !onPath router p.src p.dst then .next s
  else
    let s := s.take p
    match (s.router router).combine.find? fun e => sameKey e.1 p && s.combOpen e.2 with
    | some e =>
      let s := (s.count 0x526002).modRouter router fun x =>
        { x with combine := updFirst (fun o => decide (o = e)) (fun e => (combineParts e.1 p, e.2)) x.combine }
      .next (if bothLead e.1 p then s.redDiscard router p 3 else s)
    | none =>
      if (s.router router).combine.length < 8 ∧ s.combWindow ≠ 0 then
        .next (s.modRouter router fun x => { x with combine := x.combine ++ [(p, s.time.tick)] })
      else .next (s.send p)
/-- COMBINING_WINDOW_EXPIRY (R218): a packet whose window ends is sent on. -/
def execCombiningWindowExpiry (router : StandId) (idx : Fin 8) (s : State) : Res :=
  match (s.router router).combine[idx.val]? with
  | some e =>
    if s.windowOver e.2 then .next ((s.modRouter router fun x => { x with combine := x.combine.eraseIdx idx }).send e.1) else .next s
  | none => .next s

/-- Writes of a complete part: row, offset, words, FINAL, NWRITES (R220). -/
def partWrites (m : PartMsg) : List (Nat × Nat × List Word × Bool × Nat) :=
  let ws := rawVector m.elems
  let h := if m.part = 0 then [encVec { pend := false, fmt := 7, signed := true, tile := 0, count := m.count }] else []
  let main := (m.row + m.part, (if m.part = 0 then 0 else 1), h ++ ws.take 63, true, (if m.part = 0 then 1 else 2))
  if ws.length = 64 then
    let last := decide (m.part + 1 = redPartCount m.count)
    [main, (m.row + m.part + 1, 0, ws.drop 63, last, if last then 1 else 0)]
  else [main]
/-- Deliver a complete part: remote writes from the lead into a stand, a REDUCE frame from a port endpoint (R220, R350). -/
def State.deliverPart (s : State) (node : Nat) (p : Packet) : State :=
  match partOf p with
  | none => s
  | some m =>
    let s := s.count 0x526003
    if 5088 ≤ node ∧ node < 5102 then s.reduceSend node m
    else (partWrites m).foldl (fun s w =>
      s.remoteWrite node p.src p.sinc false
        { window := m.window, row := w.1, gen := m.gen, offset := w.2.1, length := w.2.2.1.length, final := w.2.2.2.1,
          nwrites := w.2.2.2.2, reserved := 0 } w.2.2.1) s
/-- An entry that ends now: exceeded, complete, or complete without a lead. A complete part for a stand out of service waits
(R213). -/
def State.entryEnds (s : State) (node : Nat) (e : RedEntry) : Bool :=
  match partOf e.pkt with
  | some m => decide (m.nc < m.carried) || (m.carried == m.nc && (!m.lead || !s.isAway node))
  | none => true
/-- End an entry. -/
def State.endEntry (s : State) (node : Nat) (e : RedEntry) : State :=
  let s := s.modRouter node fun x => { x with entries := x.entries.erase e }
  match partOf e.pkt with
  | some m =>
    if m.nc < m.carried then s.redDiscard node e.pkt 0
    else if m.lead then s.deliverPart node e.pkt
    else s.redDiscard node e.pkt 1
  | none => s
/-- A part meets the entries: added to its key's, a free one taken, or waiting on channel 3 (R219). -/
def State.addPart (s : State) (node : Nat) (p : Packet) : State :=
  match (s.router node).entries.find? fun e => sameKey e.pkt p with
  | some e =>
    let s := s.modRouter node fun x =>
      { x with entries := updFirst (fun e => sameKey e.pkt p) (fun e => { e with pkt := combineParts e.pkt p }) x.entries }
    if bothLead e.pkt p then s.redDiscard node p 3 else s
  | none =>
    if (s.router node).entries.length < 32 then
      s.modRouter node fun x => { x with entries := x.entries ++ [{ pkt := p, since := s.time.tick }] }
    else s.modRouter node fun x => { x with waiting := x.waiting ++ [p] }
/-- End what ends, and take waiting parts to freed entries; `fuel` bounds the steps. -/
def State.settleRed (node : Nat) : Nat → State → State
  | 0, s => s
  | f + 1, s =>
    let x := s.router node
    match x.entries.find? fun e => s.entryEnds node e with
    | some e => State.settleRed node f (s.endEntry node e)
    | none =>
      match x.waiting with
      | [] => s
      | p :: t =>
        if x.entries.length < 32 ∨ x.entries.any fun e => sameKey e.pkt p then
          State.settleRed node f ((s.modRouter node fun x => { x with waiting := t }).addPart node p)
        else s
/-- Steps that settling can take. -/
def redFuel (x : Router) : Nat := 2 * (x.entries.length + x.waiting.length) + 4
/-- Settle the reduction entries of a node. -/
def State.settleReductions (s : State) (node : Nat) : State := State.settleRed node (redFuel (s.router node)) s
/-- REDUCTION_PART_ARRIVE (R219). -/
def execReductionPartArrive (node : NodeId) (p : Packet) (s : State) : Res :=
  let s := s.take p
  if (partOf p).isNone then .next s else .next ((s.addPart node p).settleReductions node)
/-- The part of an entry is complete (R219). -/
def RedEntry.whole (e : RedEntry) : Bool := match partOf e.pkt with | some m => m.carried == m.nc && m.lead | none => false
/-- REDUCTION_TIMEOUT (R221 cause 2): two beat lengths by default [0x2400:02]; a complete part that waits for its stand stays (R213). -/
def execReductionTimeout (node : NodeId) (idx : Fin 32) (s : State) : Res :=
  match (s.router node).entries[idx.val]? with
  | some e =>
    if !e.whole ∧ e.since + s.setting 0x240002 2 * s.time.len ≤ s.time.tick then
      .next (((s.modRouter node fun x => { x with entries := x.entries.eraseIdx idx }).redDiscard node e.pkt 2).settleReductions node)
    else .next s
  | none => .next s

/-- UNIT_RETURNS_TO_SERVICE (R326, R327): parts kept for a stand are delivered (R213). -/
def execUnitReturnsToService (node : NodeId) (s : State) : Res :=
  .next ((s.modNode node fun u => { u with away := false }).settleReductions node)

/-! ## Barrier channels (R226, R228) -/

/-- The local condition holds: the phase completes, on an extended channel only with the grove's completion (R228). -/
def State.completePhase (s : State) (c : Nat) : State :=
  if !s.allArrived c then s
  else if s.extended c then s.flagCheck c
  else { s.count 0x526101 with phases := Tab.set 0 s.phases c (s.phase c + 1) }
/-- BARRIER_PHASE_COMPLETE. -/
def execBarrierPhaseComplete (chan : Fin 64) (s : State) : Res := .next (s.completePhase chan)

end Sys2Proof.Machine
end

