-- ==== Sys2Proof/Machine/Ports.lean ====
section
/-! DEFINITION. Grove and canopy ports (11, 16 R470): modes, hellos, transport, relays and reductions at their destination,
barriers across modules, shards for and from a peer, cables. -/

namespace Sys2Proof.Machine

/-! ## Modes and hellos (R336 to R341, R470) -/

/-- Modes that a port may advertise (R336): its mask, without mode 0 on a canopy port. -/
def State.ownModes (s : State) (p : Nat) : Nat :=
  let m := s.setting (entryKey 0x2610 3 p) 0xFF
  if p < 12 then m else m / 2 * 2
/-- Lowest mode of a mask. -/
def lowestMode (m : Nat) : Option Nat := (List.range 8).find? fun k => bit m k
/-- Gateway address of a canopy port [0x2610:06]. -/
def State.gateway (s : State) (p : Nat) : List Byte := s.octet (entryKey 0x2610 6 p) 16
/-- A canopy port whose gateway address was written, or whose PCS has come up, resolves it anew (R354). -/
def State.solicit (s : State) (p : Nat) : State := s.emit (.neighbour p true (s.gateway p))
/-- A write of the gateway address: the port is not UP until the new gateway answers (R341, R354). -/
def State.gatewayWritten (s : State) (p : Nat) : State :=
  let s := s.modPort p fun x => { x with gwok := false, st := if x.st = 3 then 2 else x.st }
  if (s.port p).pcs then s.solicit p else s
/-- Block lock in mode m: a grove port waits for its hello, a canopy port for its gateway, which it solicits (R341, R354). -/
def State.portLocked (s : State) (p m : Nat) : State :=
  let st := if p < 12 then 2 else if (s.port p).gwok then 3 else 2
  let s := s.modPort p fun x => { x with st := st, mode := m, reason := 0, pcs := true, rounds := [], lastHello := s.time.tick }
  let s := if lowestMode (s.ownModes p) = some m then s else s.count 0x528007
  if p < 12 then s else s.solicit p
/-- PORT_MODE_NEGOTIATION (R337): the lowest mode that both partners allow; none: the port goes on training. -/
def execPortModeNegotiation (port : PortId) (partner : BitVec 8) (s : State) : Res :=
  if (s.port port).cable ∧ (s.port port).powered then
    .next (match lowestMode (s.ownModes port &&& partner.toNat) with
      | some m => s.portLocked port m
      | none => s.modPort port fun x => { x with st := 1, pcs := false, reason := 0 })
  else .next s
/-- The PCS of a port is lost: DOWN; a FAILED port stays FAILED until it retrains (R344). -/
def Port.lose (x : Port) : Port := { x with st := if x.st = 5 then 5 else 0, reason := 0, pcs := false }
/-- BLOCK_LOCK_LOSS (R341). -/
def execBlockLockLoss (port : PortId) (s : State) : Res := .next (s.modPort port Port.lose)
/-- Payload of a HELLO (Table 11.6). -/
def State.helloBytes (s : State) (p : Nat) : List Byte :=
  beBytes 8 Config.serialNumber.toNat ++ beBytes 1 s.position ++ beBytes 1 p ++ beBytes 1 (s.port p).mode ++
    List.replicate 5 0 ++ s.mapDigest
/-- Hello interval in ticks. -/
def State.helloTicks (s : State) : Nat := us (s.setting (entryKey 0x2600 5) 100)
/-- A hello of a grove port is due (R341). -/
def State.helloDue (s : State) (p : Nat) : Bool :=
  decide (p < 12) && (s.port p).pcs && decide ((s.port p).lastSent = 0 ∨ (s.port p).lastSent + s.helloTicks ≤ s.time.tick)
/-- HELLO_SEND. -/
def execHelloSend (port : PortId) (s : State) : Res :=
  if s.helloDue port then
    let f := { s.frameHdr port 0 0 0 with payload := s.helloBytes port }
    .next ((s.modPort port fun x => { x with lastSent := s.time.tick }).emitFrame port 0 f)
  else .next s
/-- HELLO_LOSS (R341): no valid hello for the loss limit, counted from the block lock on. -/
def execHelloLoss (port : PortId) (s : State) : Res :=
  let x := s.port port
  if port.val < 12 ∧ (x.st = 2 ∨ x.st = 3 ∨ x.st = 4) ∧ x.lastHello + s.setting (entryKey 0x2600 6) 4 * s.helloTicks ≤ s.time.tick then
    .next (s.modPort port fun x => { x with st := 0, reason := 0 })
  else .next s
/-- Largest draw of a cable in milliwatts (Table 16.6). -/
def cableLimit (p : Nat) : Nat := if p < 12 then 2000 else 18000
/-- CABLE_INSERT (R470). -/
def execCableInsert (port : PortId) (milliwatts : Nat) (s : State) : Res :=
  if milliwatts ≤ cableLimit port then
    .next (s.modPort port fun x => { x with cable := true, powered := true, st := 1, reason := 0, pcs := false })
  else
    .next ((s.modPort port fun x => { x with cable := true, powered := false, st := 0, reason := 0, pcs := false }).record 0x0601 0
      (leBytes 1 port.val ++ leBytes 1 2) (unit := portNode port) (sub := port))
/-- CABLE_REMOVE (R470). -/
def execCableRemove (port : PortId) (s : State) : Res :=
  .next (s.modPort port fun x => { x with cable := false, powered := false, st := 0, reason := 0, pcs := false })

/-! ## Transport (R343 to R345, R352 to R354) -/

/-- Bytes that R343 calls malformed. GROVE of a hello is a check of Table 11.3, not of R343 (DEDUCED, log 43). -/
def State.frameBad (s : State) (port : Nat) (b : List Byte) : Bool :=
  let f := decFrame b
  decide (f.ver ≠ 1) || decide (6 < f.kind) || frameReserved b || decide (b.length ≠ 32 + beNat (slice b 2 2)) ||
    (decide (port < 12) && decide (f.kind ≠ 0) && decide (f.grove ≠ s.groveId))
/-- DINC names another incarnation of the endpoint (R343). -/
def State.frameStale (s : State) (port : Nat) (f : Frame) : Bool :=
  decide (f.dinc ≠ 0) && decide (f.dinc ≠ (s.node (portNode port)).inc)
/-- A path restarts at SEQ 0 toward a new incarnation of its partner (R345). -/
def State.restartPath (s : State) (port peer inc : Nat) : State :=
  let old := (s.path port peer).unacked.map (fun e => e.1) ++ (s.path port peer).waiting
  let keep := old.filter fun f => f.kind = 4 ∨ f.kind = 5
  let lost := old.filter fun f => ¬(f.kind = 4 ∨ f.kind = 5)
  let s := s.modPath port peer fun _ => { partner := inc }
  let s := lost.foldl (fun s f => (s.count 0x528005).frameGone f) s
  keep.foldl (fun s f => s.pathSend port peer { f with retx := true }) s
/-- The endpoint learns its partner's incarnation; a change restarts the path (R345). -/
def State.learnPartner (s : State) (port peer inc : Nat) : State :=
  let k := (s.path port peer).partner
  if k = inc then s
  else if k = 0 then s.modPath port peer fun p => { p with partner := inc }
  else s.restartPath port peer inc
/-- Frames of a path that ACK acknowledges: those sent before it (R344). -/
def Path.ackedBy (p : Path) (ack : Nat) : Nat :=
  let first := p.nextSeq + 2 ^ 32 - p.unacked.length % 2 ^ 32
  let n := (ack + 2 ^ 32 - first % 2 ^ 32) % 2 ^ 32
  if n ≤ p.sent then n else 0
/-- ACK and WIN of a received header (R344): acknowledged frames leave the path, and more may be sent. -/
def State.ackPath (s : State) (port peer ack win : Nat) : State :=
  let p := s.path port peer
  let n := p.ackedBy ack
  let s := s.modPath port peer fun p =>
    { p with unacked := p.unacked.drop n, sent := p.sent - n, win := win }.refill (pathCap port) s.time.tick
  let s := (p.unacked.take n).foldl (fun s e => s.frameGone e.1) s
  State.pumpPath port peer (s.path port peer).unacked.length s
/-- ACK. -/
def execAck (port : PortId) (peer : Nat) (ack win : Nat) (s : State) : Res :=
  if s.portUp port then .next ((s.count 0x528002).ackPath port peer ack win) else .next s
/-- First check of Table 11.3 that a hello fails. -/
def State.helloCheck (s : State) (port : Nat) (f : Frame) : Option Nat :=
  let nb := (neighbours s.position).getD (port % 6) 16
  if s.octet (entryKey 0x2600 3) 128 = List.replicate 128 0 then some 6
  else if s.mapSerial nb = 0 then some 5
  else if f.grove ≠ s.groveId then some 1
  else if beNat (slice f.payload 0 8) ≠ s.mapSerial nb then some 2
  else if beNat (slice f.payload 9 1) ≠ partnerPort s.position port then some 3
  else if slice f.payload 16 8 ≠ s.mapDigest then some 4
  else none
/-- A received hello decides the port's state (R341). A path with nothing on its way goes on at the SEQ that the partner
expects (DEDUCED, log 44). -/
def State.hello (s : State) (port mac : Nat) (f : Frame) : State :=
  let x := s.port port
  if 12 ≤ port ∨ x.st = 5 then s
  else
    let s := s.count 0x528002
    match s.helloCheck port f with
    | some r =>
      let s := if x.st = 4 then s else s.count 0x528006
      s.modPort port fun x => { x with st := 4, reason := r }
    | none =>
      let s := s.modPort port fun x => { x with st := 3, reason := 0, peerPort := beNat (slice f.payload 9 1),
                                                peerPos := beNat (slice f.payload 8 1), lastHello := s.time.tick, peerMac := mac }
      let s := s.learnPartner port 0 f.sinc
      let s := if (s.path port 0).unacked = [] then s.modPath port 0 fun p => { p with nextSeq := f.ack } else s
      s.ackPath port 0 f.ack f.win
/-- A frame taken in sequence: kept for its delivery here, or sent on (R344, R352). Barrier and shard frames for this module act
by the commands of their kinds. Canopy frames are never forwarded (R354). -/
def State.takeFrame (s : State) (port : Nat) (f : Frame) : State :=
  if f.dplace = s.ownPlace then
    if f.kind = 2 ∨ f.kind = 3 then s.modEndpoint (portNode port) fun e => { e with delivering := e.delivering ++ [f] } else s
  else if 12 ≤ port ∨ !s.inGrove f.dplace then s
  else if 3 ≤ f.hops then s.unreachable f
  else s.route port { f with hops := f.hops + 1, retx := false }
/-- A frame other than a hello on a port that is UP (R344, R345): accepted when its SEQ is the next expected, and
acknowledged in every case. -/
def State.frameIn (s : State) (port peer : Nat) (f : Frame) : State :=
    let s := (s.learnPartner port peer f.sinc).ackPath port peer f.ack f.win
    if f.kind = 1 then s.count 0x528002
    else if f.seq ≠ (s.path port peer).expect then s.sendAck port peer
    else
      let s := (s.modPath port peer fun p => { p with expect := (p.expect + 1) % 2 ^ 32 }).count 0x528002
      (s.takeFrame port f).sendAck port peer
/-- A transport frame that reached a port (R343): malformed or stale, a hello, or a frame of a path. A port that is not UP carries
only hellos (R341); a canopy port acts on no hello (DEDUCED, log 43). -/
def State.transportIn (s : State) (port peer mac : Nat) (b : List Byte) : State :=
  let f := decFrame b
  if s.frameBad port b then s.count 0x528004
  else if s.frameStale port f then s.count 0x528005
  else if f.kind = 0 then s.hello port mac f
  else if s.portUp port then s.frameIn port peer f
  else s
/-- A neighbour message (R354): the gateway's answer resolves its link-layer address; a solicitation of the port's own address is
answered; everything else is foreign traffic. `answer`: the link-layer address that an answer came from, none for a solicitation. -/
def State.neighbourIn (s : State) (port : Nat) (target : List Byte) (answer : Option Nat) : State :=
  match answer with
  | some mac => if target = s.gateway port then s.modPort port fun x => { x with gwok := true, st := 3, peerMac := mac } else s.count 0x52800E
  | none => if target = s.ownAddr port then s.emit (.neighbour port false target) else s.count 0x52800E
/-- An untagged IPv6 packet on a canopy port (R338, R354): a neighbour message, a transport frame to the port's address and UDP port,
or foreign traffic; extension headers make it foreign (DEDUCED, log 136). -/
def State.ipv6In (s : State) (port mac : Nat) (b : List Byte) : State :=
  let n := fun o k => beNat (slice b o k)
  let udp := s.setting (entryKey 0x2600 9) 51200
  if n 6 1 = 58 ∧ (n 40 1 = 135 ∨ n 40 1 = 136) then s.neighbourIn port (slice b 48 16) (if n 40 1 = 136 then some mac else none)
  else if n 0 1 / 16 = 6 ∧ n 6 1 = 17 ∧ slice b 24 16 = s.ownAddr port ∧ n 40 2 = udp ∧ n 42 2 = udp then
    s.transportIn port (n 8 16) mac (b.drop 48)
  else s.count 0x52800E
/-- An Ethernet frame on a port whose PCS is up (R338). A frame of the management VLAN goes on to the management bus, where it acts as
VLAN_DATAGRAM. -/
def State.etherIn (s : State) (port : Nat) (e : Ether) : State :=
  if !(s.port port).pcs then s
  else if port < 12 then
    if e.vlan = none ∧ e.etype = transportType ∧ (e.dst = portMac port ∨ (e.dst = broadcast ∧ (decFrame e.data).kind = 0)) then
      s.transportIn port 0 e.src e.data
    else s.count 0x52800E
  else if e.vlan = some (s.setting (entryKey 0x2600 0x0A) 4000) then s
  else if e.vlan = none ∧ e.etype = 0x86DD then s.ipv6In port e.src e.data
  else s.count 0x52800E
/-- TRANSPORT_FRAME_RECEIVE: a frame other than a hello. -/
def execTransportFrameReceive (port : PortId) (h : EtherHdr) (data : List Byte) (s : State) : Res :=
  .next (s.etherIn port { toEtherHdr := h, data := data })
/-- HELLO. -/
def execHello (port : PortId) (e : Ether) (s : State) : Res := .next (s.etherIn port e)
/-- Retransmit timeout of a path in ticks. -/
def State.retxTicks (s : State) (port : Nat) : Nat :=
  us (if port < 12 then s.setting (entryKey 0x2600 7) 20 else s.setting (entryKey 0x2600 8) 200)
/-- The oldest unacknowledged frame of a path has waited for the timeout. -/
def State.retxDue (s : State) (port peer : Nat) : Bool :=
  s.portUp port && match (s.path port peer).unacked with
    | e :: _ => decide (0 < (s.path port peer).sent ∧ e.2 + s.retxTicks port ≤ s.time.tick)
    | [] => false
/-- One round of resends (R344). -/
def State.resendRound (s : State) (port peer : Nat) : State :=
  let p := s.path port peer
  let again := (p.unacked.take p.sent).map fun e => { s.onHop port peer e.1 with retx := true }
  let s := s.modPath port peer fun p => { p with unacked := (again.map fun f => (f, s.time.tick)) ++ p.unacked.drop p.sent }
  again.foldl (fun s f => (s.count 0x528003).emitFrame port peer f) s
/-- A grove port fails (R344, R375): cause 0 resends, 1 FEC. -/
def State.portFails (s : State) (port cause : Nat) : State :=
  ((s.modPort port fun x => { x with st := 5, reason := 0 }).count 0x52800F).record 0x0601 0 (leBytes 1 port ++ leBytes 1 cause)
    (unit := portNode port) (sub := port)
/-- RETRANSMIT_TIMEOUT: more than 16 rounds within 1 ms fail a grove port. -/
def execRetransmitTimeout (port : PortId) (peer : Nat) (s : State) : Res :=
  if s.retxDue port peer then
    let rs := ((s.port port).rounds.filter fun t => decide (s.time.tick < t + ms 1)) ++ [s.time.tick]
    let s := (s.resendRound port peer).modPort port fun x => { x with rounds := rs }
    .next (if port.val < 12 ∧ 16 < rs.length then s.portFails port 0 else s)
  else .next s
/-- Take every frame off a path; those sent are resends from now on. -/
def State.strip (s : State) (port peer : Nat) : List Frame × State :=
  let p := s.path port peer
  (p.unacked.zipIdx.map (fun e => if e.2 < p.sent then { e.1.1 with retx := true } else e.1.1) ++ p.waiting,
   s.modPath port peer fun p =>
     { p with unacked := [], waiting := [], sent := 0, nextSeq := (p.nextSeq + 2 ^ 32 - p.unacked.length % 2 ^ 32) % 2 ^ 32 })
/-- Peers of a port whose path holds frames. -/
def State.busyPeers (s : State) (port : Nat) : List Nat :=
  (s.grove.paths.filter fun e => e.1 % 16 = port ∧ e.2.unacked ≠ []).map fun e => e.1 / 16
/-- A frame of a port that is not UP enters R352 again; one to or from a shard peer, which has one address only, waits (R358). -/
def State.moveFrame (s : State) (port peer : Nat) (f : Frame) : State :=
  if f.kind = 5 ∨ f.kind = 6 then s.pathSend port peer f else s.route port f
/-- REROUTE (R353, R354): the unacknowledged frames of a port that is not UP enter R352 again. -/
def execReroute (port : PortId) (s : State) : Res :=
  if s.portUp port then .next s
  else .next ((s.busyPeers port).foldl (fun s peer =>
    let r := s.strip port peer
    r.1.foldl (fun s f => s.moveFrame port peer f) r.2) s)
/-- NEIGHBOUR_SOLICITATION (R354): a neighbour message from a link-layer address; on a grove port it is foreign traffic (R338). -/
def execNeighbourSolicitation (port : PortId) (target : List Byte) (answer : Option Nat) (s : State) : Res :=
  if port.val < 12 ∨ !(s.port port).pcs then .next (s.count 0x52800E)
  else .next (s.neighbourIn port target answer)

/-! ## Relays and reductions at their destination (R348, R349, R351) -/

/-- Key of the delivery table: source place, source port, relay slot and row; the parts of one reduction, which share a FILL,
each have an entry of their own (DEDUCED, log 45). -/
def deliveryKey (f : Frame) : Nat :=
  let k := (f.splace * 16 + f.key / 256 % 16) * 16 + f.key % 16
  if f.kind = 3 then 2 ^ 32 + (k * 32 + bits (beNat (slice f.payload 16 4)) 27 23) * 32 + f.info / 2 ^ 27
  else k * 32 + f.info / 2 ^ 27
/-- FILL is newer than the recorded one, or none is recorded (R349). -/
def State.fillNewer (s : State) (f : Frame) : Bool :=
  match Tab.get 0 s.grove.delivered (deliveryKey f) with
  | 0 => true
  | r + 1 => let d := (f.info % 65536 + 65536 - r) % 65536; decide (0 < d ∧ d < 32768)
/-- Record a delivery. -/
def State.recordFill (s : State) (f : Frame) : State :=
  { s with grove := { s.grove with delivered := Tab.set 0 s.grove.delivered (deliveryKey f) (f.info % 65536 + 1) } }
/-- The endpoint of a port no longer holds the frame. -/
def State.dropDelivering (s : State) (port : Nat) (f : Frame) : State :=
  s.modEndpoint (portNode port) fun e => { e with delivering := dropFirst f e.delivering }
/-- Deliver a row to every stand of a list (R348). -/
def State.deliverRow (s : State) (port : Nat) (f : Frame) (r : Relay) (ds : List Nat) : State :=
  let n := portNode port
  let tag := (s.endpoint n).nextTag % 65536
  let h : Holding := { tag := tag, frame := f, window := r.dwindow, row := (r.drow + f.info / 2 ^ 27) % 32, dests := ds.map fun d => (d, none) }
  let s := s.modEndpoint n fun e => { e with holding := e.holding ++ [h], nextTag := tag + 1 }
  ds.foldl (fun s d => s.epCreq n d h) s
/-- Deliver a row to a tier: one MEMREQ WRITE of 64 words, locked (R348). -/
def State.deliverTier (s : State) (port : Nat) (f : Frame) (b : Bool) (a : Nat) : State :=
  let n := portNode port
  let tag := (s.endpoint n).nextTag % 256
  let m : MemReq := { op := 1, tierB := b, lock := true, tag := tag, wm1 := 63, waddr := a / 4, data := frameRow f, whdr := none }
  let node := endpointOf b a
  let s := s.modEndpoint n fun e => { e with mems := e.mems ++ [{ node := node, req := m }], nextTag := tag + 1 }
  s.send (s.packet n node (.memreq m))
/-- Delivery of an accepted RELAY frame by its descriptor. -/
def State.deliver (s : State) (port : Nat) (f : Frame) : State :=
  let r := decRelay true f.payload
  if r.kind = 1 then s.deliverRow port f r [r.dnode]
  else if r.kind = 2 then s.deliverRow port f r (routeStands (decRoute [BitVec.ofNat 32 r.dest]))
  else if r.kind = 3 ∨ r.kind = 4 then s.deliverTier port f (decide (r.kind = 4)) r.dest
  else s
/-- RELAY. -/
def execRelay (port : PortId) (f : Frame) (s : State) : Res :=
  if f.kind = 2 ∧ f ∈ (s.endpoint (portNode port)).delivering then
    let s := s.dropDelivering port f
    .next (if s.fillNewer f then (s.recordFill f).deliver port f else s.count 0x528005)
  else .next s
/-- The part that a REDUCE frame injects (R351). -/
def injectedPart (f : Frame) : PartMsg :=
  let r := decRelay true f.payload
  let ws := beWords (f.payload.drop 16)
  { rid := r.dest / 2 ^ 48, part := f.info / 2 ^ 27, nc := bits r.dest 44 32, carried := 1, lead := false, window := r.dwindow,
    row := r.drow, gen := 0, count := bits (ws.headD 0).toNat 14 4,
    elems := (List.range ((ws.length - 1) / 2)).map fun i => rawAcc (ws.drop 1) i }
/-- REDUCE. -/
def execReduce (port : PortId) (f : Frame) (s : State) : Res :=
  if f.kind = 3 ∧ f ∈ (s.endpoint (portNode port)).delivering then
    let s := s.dropDelivering port f
    .next (if s.fillNewer f then
        let s := (s.recordFill f).count 0x52800B
        s.send (s.packet (portNode port) (decRelay true f.payload).dnode (.reduce (injectedPart f)))
      else s.count 0x528005)
  else .next s

/-! ## Barriers across modules (R356, R357) -/

/-- ARRIVE at the root of the channel. -/
def execArrive (chan : Fin 66) (phase place : Nat) (s : State) : Res :=
  if s.root chan = s.ownPlace then .next (s.rootArrive chan phase place) else .next s
/-- COMPLETE: applied where the channel is extended; the module barriers always are carried (R355). -/
def execComplete (chan : Fin 66) (phase : Nat) (s : State) : Res :=
  if 64 ≤ chan.val ∨ s.extended chan then .next (s.applyComplete chan phase) else .next s
/-- WITHDRAW at the root: ignored once COMPLETE has been sent, else the arrival is removed and WITHDRAWN answers. -/
def execWithdraw (chan : Fin 66) (phase place : Nat) (s : State) : Res :=
  let x := s.chan chan
  if s.root chan ≠ s.ownPlace ∨ phase ≤ x.sentPhase ∨ phase ≤ x.done then .next s
  else .next ((s.modChan chan fun x => { x with arrivals := x.arrivals.filter fun a => a ≠ (place, phase) }).sendBarrier
    chan phase 4 place)
/-- WITHDRAWN: the DISARM took the arrival back when it was given (R357); its confirmation changes nothing more. -/
def execWithdrawn (_chan : Fin 66) (_phase : Nat) (s : State) : Res := .next s

/-! ## Shards for a peer and from it (R358, R359) -/

/-- A shard that is ARRIVED or later stands in a master area. -/
def ShardStatus.held (st : ShardStatus) : Bool :=
  match st with
  | .arrived | .writing | .verified | .unplaceable => true
  | _ => false
/-- Bank whose master area answers a request. -/
def State.peerBank (s : State) (epoch st : Nat) (second : Bool) : Option Bool :=
  [false, true].find? fun b => decide (epoch ≠ 0 ∧ (s.version b).epoch = epoch) && (s.shard b st).st.held && bit (field (s.shard b st).hdr 6 2) 0 == second
/-- Bytes of a shard rebuilt from its master area (R294). -/
def State.shardBytes (s : State) (b : Bool) (st : Nat) : List Byte := (s.shard b st).hdr ++ s.masterPayload b st
/-- Fragment n of a shard: 1,024 bytes, the last one 256. -/
def fragBytes (b : List Byte) (n : Nat) : List Byte := (b.drop (1024 * n)).take 1024
/-- One SHARD_DATA frame. -/
def State.sendFrag (s : State) (peer epoch st : Nat) (second : Bool) (b : List Byte) (n : Nat) : State :=
  s.pathSend 12 peer { s.frameHdr 12 peer 6 s.ownPlace with
    info := n * 65536, payload := beBytes 4 epoch ++ beBytes 2 st ++ beBytes 2 (b2n second) ++ fragBytes b n }
/-- SHARD_REQ: 513 frames, or ignored and counted. -/
def execShardReq (peer : Nat) (epoch : Word) (st : StandId) (second : Bool) (s : State) : Res :=
  match s.peerBank epoch.toNat st second with
  | none => .next (s.count 0x52800D)
  | some b =>
    let bs := s.shardBytes b st
    let s := (List.range 16).foldl (fun s p => s.masterRead b st p) s
    .next ((List.range 513).foldl (fun s n => s.sendFrag peer epoch.toNat st second bs n) s)
/-- A fragment of a requested shard of the staged epoch. -/
def State.fragWanted (s : State) (frag epoch st : Nat) (second : Bool) (n : Nat) : Bool :=
  s.grove.requested.contains (st, second) && decide (frag < 513 ∧ n = if frag = 512 then 256 else 1024) &&
    ([false, true].any fun b => (s.version b).peer && (s.version b).epoch == epoch && s.second b == second)
/-- SHARD_DATA: assembled, or discarded as foreign; a fragment that came before is not kept twice. -/
def execShardData (frag : Nat) (epoch : Word) (st : StandId) (second : Bool) (bytes : List Byte) (s : State) : Res :=
  if s.fragWanted frag epoch.toNat st second bytes.length then
    let old := s.grove.frags.filter fun f => !(f.1 == frag && f.2.1 == st.val && f.2.2.1 == second)
    .next { s with grove := { s.grove with frags := old ++ [(frag, st.val, second, bytes)] } }
  else .next (s.count 0x531002)

end Sys2Proof.Machine
end

