-- ==== Sys2Proof/Machine/Reliability.lean ====
section
/-! DEFINITION. Self-test, margins and calibration steps, forced clearings, fault stop, the forester's own restarts, error records
and CPER export (12; 13 R410 to R412; 15 R482; R486). -/

namespace Sys2Proof.Machine

/-! ## Self-test slices (R371 to R376) -/

/-- Slice kinds of Table 12.4 in its order: 0 CORE, 1 SPAD, 2 UNIT, 3 LINK (log 46). -/
def sliceKind : MaintKind → Nat
  | .core _ => 0 | .spad _ => 1 | .unit => 2 | .link _ => 3 | .trim _ => 4
/-- Steps of a slice (Table 12.4). -/
def sliceSteps (kind : Nat) : Nat := if kind = 0 then 32 else if kind = 1 then 4 else if kind = 2 then 16 else 1
/-- SUB of a slice's unit. -/
def sliceSub : MaintKind → Nat
  | .core c => c | .spad b => b | .unit => 0xFF | .link d => d | .trim c => c
/-- Every unit that a step of kind k uses is in a clearing beat (R181, R372); units other than cores and banks need a slot with
NONE. -/
def State.clearingFor (s : State) (st : Nat) (k : MaintKind) : Bool :=
  match k with
  | .core c | .trim c => s.clearingCore st c
  | .spad b => s.clearingBank st b
  | .unit | .link _ => (s.entryOf st s.time.beat).isNone
/-- The unit of an item lies in the quadrant under voltage margin, and the run has not tested it (R374). -/
def State.underMargin (s : State) (st : Nat) (k : MaintKind) : Bool :=
  s.rel.marginQ == some (quadrant st) &&
  match k with
  | .core c => (s.core st c).marginRun != s.rel.marginRun
  | .spad b => ((s.stand st).bank b).marginRun != s.rel.marginRun
  | _ => false
/-- Steps that a slice of kind k has behind it. -/
def State.stepsDone (s : State) (st : Nat) (k : MaintKind) : Nat :=
  match k with
  | .core c => (s.core st c).sliceStep
  | .spad b => ((s.stand st).bank b).sliceStep
  | .unit => (s.stand st).unitStep
  | _ => 0
/-- Tick since which an item is due (R373); units without a sweep period are tested after all others. -/
def State.dueSince (s : State) (st : Nat) (k : MaintKind) : Nat :=
  match k with
  | .core c => (s.core st c).sliceTick + s.sweepTicks
  | .spad b => ((s.stand st).bank b).sliceTick + s.sweepTicks
  | .unit | .link _ => s.time.tick
  | .trim _ => match (s.stand st).maint.find? fun m => m.kind == k with | some m => m.since | none => s.time.tick
/-- An item is due (R373): a slice under way, older than the sweep period or of a voltage margin run; a queued calibration item. -/
def State.itemDue (s : State) (st : Nat) (k : MaintKind) : Bool :=
  match k with
  | .core c => !(s.core st c).fenced && (s.stepsDone st k != 0 || decide (s.dueSince st k ≤ s.time.tick) || s.underMargin st k)
  | .spad _ => s.stepsDone st k != 0 || decide (s.dueSince st k ≤ s.time.tick) || s.underMargin st k
  | .unit | .link _ => true
  | .trim _ => (s.stand st).maint.any fun m => m.kind == k
/-- Periodic slices are on [0x2100:01], or a voltage margin run has asked for them. Calibration items are no slices. -/
def State.stepAllowed (s : State) (st : Nat) (k : MaintKind) : Bool :=
  match k with
  | .trim _ => true
  | _ => s.slicesRun && (s.setting 0x210001 1 == 1 || s.underMargin st k)
/-- A step of a core starts only while fewer than the limit [0x2100:02] run (R371). -/
def State.stepRoom (s : State) (k : MaintKind) : Bool :=
  match k with
  | .core _ | .trim _ => decide ((s.rel.stepTicks.filter fun t => decide (s.time.tick < t)).length < 850)
  | _ => true
/-- The units of an item are in a clearing beat, or nothing runs because of a voltage margin run. -/
def State.stepClear (s : State) (st : Nat) (k : MaintKind) : Bool := s.clearingFor st k || s.underMargin st k
/-- An item that could start has been due for longer (R371). -/
def State.olderItem (s : State) (st : Nat) (k : MaintKind) : Bool :=
  let t := s.dueSince st k
  allStands.any fun n =>
    let ks := ((List.range 17).map fun c => MaintKind.core (Fin.ofNat 17 c)) ++ ((List.range 32).map fun b => MaintKind.spad (Fin.ofNat 32 b)) ++
      (s.stand n).maint.map fun m => m.kind
    ks.any fun q => decide (s.dueSince n q < t) && s.itemDue n q && s.stepAllowed n q && s.stepClear n q
/-- The next CORE or SPAD slice runs under clock margin: one in every [0x2100:06], on an unthrottled die (R374, R400). -/
def State.marginNext (s : State) : Bool :=
  let n := s.setting 0x210006 8
  decide (n ≠ 0 ∧ s.level = 0 ∧ (s.rel.slicesBegun + 1) % n = 0)
/-- The first step of a slice settles whether it runs under clock margin (R374). -/
def State.beginSlice (s : State) (st : Nat) (k : MaintKind) : State :=
  if s.stepsDone st k ≠ 0 then s
  else
    let m := s.marginNext && !s.underMargin st k
    let t := { s with rel := { s.rel with slicesBegun := s.rel.slicesBegun + 1 } }
    match k with
    | .core c => t.modCore st c fun x => { x with sliceMargin := m }
    | .spad b => t.modStand st fun x => x.modBank b fun k => { k with sliceMargin := m }
    | _ => s
/-- Margin code of a slice: 0 none, 1 clock, 2 voltage (Table 12.9). -/
def State.marginCode (s : State) (st : Nat) (k : MaintKind) : Nat :=
  if s.underMargin st k then 2
  else match k with
    | .core c => b2n (s.core st c).sliceMargin
    | .spad b => b2n ((s.stand st).bank b).sliceMargin
    | _ => 0
/-- What a failed slice leads to (Table 12.4): a core asks for planned coppicing, and as a spare is no longer free; a row becomes
due for repair, the one that was found (log 46); a unit without a spare stops the module; a link is wire-tested. -/
def State.sliceFails (s : State) (st : Nat) (k : MaintKind) (found : Nat) : State :=
  match k with
  | .core c | .trim c => s.modCore st c fun x => { x with sliceOk := false, suspect := true }
  | .spad b => s.rowDue st b (found % 32) false
  | .unit => s.faultStop 0x0106
  | .link d =>
    let s := s.modLink st d fun l => { l with testDue := true }
    if d.val = 6 then s.modSeam (grow st) (decide (2500 ≤ st)) fun x => { x with testDue := true } else s
/-- Units of a quadrant that the voltage margin run has not tested are left; fenced cores are not tested. -/
def State.marginOpen (s : State) (q : Nat) : Bool :=
  allStands.any fun n => quadrant n == q &&
    (((List.range 17).any fun c => !(s.core n c).fenced && s.underMargin n (.core (Fin.ofNat 17 c))) ||
      (List.range 32).any fun b => s.underMargin n (.spad (Fin.ofNat 32 b)))
/-- A voltage margin run that has tested every unit of its quadrant ends (R374). -/
def State.marginEnds (s : State) : State :=
  match s.rel.marginQ with
  | some q => if s.marginOpen q then s else { s with rel := { s.rel with marginQ := none } }
  | none => s
/-- A CORE or SPAD slice of the sweep is over (R372). -/
def State.sweepStep (s : State) : State :=
  let n := s.rel.sliceCount + 1
  let full := decide (245000 ≤ n)
  { s with rel := { s.rel with sliceCount := if full then 0 else n,
                               lastSweep := if full then (s.time.tick - s.rel.sweepStart) / sec 1 else s.rel.lastSweep,
                               sweepStart := if full then s.time.tick else s.rel.sweepStart } }
/-- A slice ends: its age starts again; sweeps and margin runs are counted (R372, R374). -/
def State.sliceEnds (s : State) (st : Nat) (k : MaintKind) (pass : Bool) (code : Nat) : State :=
  let s := s.count (if pass then 0x521002 else 0x521003)
  let s := if code = 0 then s else s.count 0x521004
  let run := s.rel.marginRun
  let seen := s.underMargin st k
  match k with
  | .core c =>
    let f := fun (x : Core) => if seen then run else x.marginRun
    ((s.modCore st c fun x => { x with sliceTick := s.time.tick, sliceStep := 0, sliceOk := pass, marginRun := f x }).sweepStep).marginEnds
  | .spad b =>
    let f := fun (k : SpadBank) => if seen then run else k.marginRun
    ((s.modStand st fun x => x.modBank b fun k => { k with sliceTick := s.time.tick, sliceStep := 0, marginRun := f k }).sweepStep).marginEnds
  | .unit => s.modStand st fun x => { x with unitStep := 0 }
  | _ => s
/-- The last step of a slice, or one that fails: its result (Table 12.4). -/
def State.sliceResult (s : State) (st : Nat) (k : MaintKind) (code : Nat) (pass : Bool) (found : Nat) : State :=
  if pass then s.sliceEnds st k true code
  else
    (((s.sliceEnds st k false code).record 0x0106 0 (leBytes 1 (sliceKind k) ++ leBytes 1 (s.stepsDone st k) ++ leBytes 1 code) (unit := st)
      (sub := sliceSub k))).sliceFails st k found
/-- One step of a slice (R371, R372). -/
def State.sliceStep (s : State) (st : Nat) (k : MaintKind) (pass : Bool) (found : Nat) : State :=
  let s := (s.beginSlice st k).count 0x521001
  let step := s.stepsDone st k
  if !pass ∨ sliceSteps (sliceKind k) ≤ step + 1 then s.sliceResult st k (s.marginCode st k) pass found
  else match k with
    | .core c => s.modCore st c fun x => { x with sliceStep := step + 1 }
    | .spad b => s.modStand st fun x => x.modBank b fun k => { k with sliceStep := step + 1 }
    | .unit => s.modStand st fun x => { x with unitStep := step + 1 }
    | _ => s

/-! ## Calibration items (R409 to R412) -/

/-- A bank that an item trims: it holds a version and is IDLE, or it is in COMPUTE. -/
def State.trims (s : State) (st c : Nat) (b : Bool) : Bool :=
  let k := (s.core st c).bank b
  match k.st with
  | .idle => decide ((s.version b).epoch ≠ 0)
  | .compute => s.clearingCore st c
  | _ => false
/-- Trim one bank into its shadow copy; a column that fails keeps its previous trim (R412). The trims found are free (log 9). -/
def State.trimBank (s : State) (st c : Nat) (failed : Option Nat) (b : Bool) : State :=
  if s.trims st c b then
    let t := s.freshTrims
    let s := { s with freeCtr := s.freeCtr + 268 }
    s.modCore st c fun x => x.modBank b fun k =>
      { k with shadow := some (match failed with | some f => Tab.set 0 t f (Tab.get 0 k.trims f) | none => t) }
  else s
/-- Position that core c of a stand fills. -/
def Stand.posOf (x : Stand) (c : Nat) : Nat := if c = 16 then (if x.svc.valid then x.svc.spos else 16) else c
/-- Column and bank that fail an item: a column whose calibration rows do not read as their pattern, or, when the item fails without one,
the column found, of the first bank (R410, R412, log 46). -/
def State.trimFails (s : State) (st c : Nat) (pass : Bool) (found : Nat) (bs : List Bool) : Option (Nat × Bool) :=
  match bs.findSome? fun b => ((List.range 268).find? fun k => !((s.core st c).bank b).calOk k).map fun k => (k, b) with
  | some f => some f
  | none => if pass then none else some (found % 268, bs.headD false)
/-- The item of a core runs (R410). -/
def State.trimStep (s : State) (st c : Nat) (pass : Bool) (found : Nat) : State :=
  let bs := [false, true].filter fun b => s.trims st c b
  let f := s.trimFails st c pass found bs
  let q := quadrant st
  let s := (s.count 0x521001).modStand st fun x => { x with maint := x.maint.filter fun m => m.kind ≠ .trim (Fin.ofNat 17 c) }
  let s := bs.foldl (fun s b => s.trimBank st c (match f with | some (k, g) => if g = b then some k else none | none => none) b) s
  let s := if bs = [] then { s with sense := { s.sense with quadPending := Tab.set 0 s.sense.quadPending q (Tab.get 0 s.sense.quadPending q - 1) } }
    else s
  match f, bs with
  | some (col, b), _ :: _ =>
    ((s.count 0x514004).record 0x0908 0 (leBytes 1 ((s.stand st).posOf c) ++ leBytes 1 (b2n b) ++ leBytes 2 col) (unit := st)
      (sub := c)).sliceFails st (.core (Fin.ofNat 17 c)) found
  | _, _ => s
/-- A step of the test engine runs for so many ARITH cycles, six to a tick (R196); a core's counts toward the limit until its end
(R371). -/
def State.maintStep (s : State) (st : Nat) (k : MaintKind) (pass : Bool) (cycles found : Nat) : State :=
  let now := s.time.tick
  let s := match k with
    | .core _ | .trim _ => { s with rel := { s.rel with stepTicks := (s.rel.stepTicks.filter fun t => decide (now < t)) ++ [now + (cycles + 5) / 6] } }
    | _ => s
  match k with
  | .trim c => s.trimStep st c pass found
  | k => s.sliceStep st k pass found
/-- SELF_TEST_STEP (R371, R201): a start in a shortened beat is withheld and counted, except in a forced clearing. A
step has at most 600 cycles; `pass` and `found` are what it shows: its outcome, and the row or column that fails. -/
def execSelfTestStep (st : StandId) (k : MaintKind) (pass : Bool) (cycles : Nat) (found : Fin 268) (s : State) : Res :=
  if 600 < cycles || !s.arith || !s.itemDue st k || !s.stepAllowed st k || !s.stepRoom k then .next s
  else if s.forcedOpen st then .next (s.maintStep st k pass cycles found)
  else if !s.stepClear st k || s.olderItem st k then .next s
  else if s.shortened then .next (s.count 0x520006)
  else .next (s.maintStep st k pass cycles found)

/-! ## Forced clearings and commands (R373, R374, R376) -/

/-- A forced clearing ends: the stand's launch goes on with its deferred repeats (R373, R180). -/
def State.clearingEnds (s : State) (st : Nat) : State := (s.modStand st fun x => { x with clearing := none }).startDeferred st
/-- FORCED_CLEARING (R373): the forced clearing that a launch waits for is over, after at most 32 us. -/
def execForcedClearing (st : StandId) (ticks : Nat) (s : State) : Res :=
  match (s.stand st).clearing with
  | some (_, n) =>
    if s.arith ∧ 0 < ticks ∧ ticks ≤ us 32 then
      let s := (s.count 0x521005).count 0x521006 ticks
      .next ((s.record 0x0801 3 (leBytes 1 n ++ leBytes 2 ticks) (unit := st)).clearingEnds st)
    else .next s
  | none => .next s
/-- A voltage margin run begins (R374). -/
def State.marginStart (s : State) (q : Nat) : State :=
  { s with rel := { s.rel with marginQ := some q, marginRun := s.rel.marginRun + 1 } }
/-- VOLTAGE_MARGIN_COMMAND (R374): refused unless serving is STOPPED; the current binary's slots are taken as NONE while its slices
run (log 47). -/
def execVoltageMarginCommand (quadrant : Byte) (s : State) : Res :=
  if quadrant.toNat < 4 ∧ s.serving.state = 0 ∧ s.slicesRun then .next (s.marginStart quadrant.toNat) else .next s
/-- Kind of a slice command; none out of range. -/
def sliceOf (kind sub : Nat) : Option MaintKind :=
  if kind = 0 then (if h : sub < 17 then some (.core ⟨sub, h⟩) else none)
  else if kind = 1 then (if h : sub < 32 then some (.spad ⟨sub, h⟩) else none)
  else if kind = 2 then some .unit
  else if kind = 3 then (if h : sub < 7 then some (.link ⟨sub, h⟩) else none)
  else none
/-- A whole slice that a command asked for (R376); `block` is the command as it reads back. The row that a failing one shows is free
(log 46). -/
def State.wholeSlice (s : State) (st kind margin : Nat) (k : MaintKind) (block : List Byte) (pass : Bool) : State :=
  (({ s with rel := { s.rel with cmdSlice := block }, freeCtr := s.freeCtr + b2n (!pass) } : State).count 0x521001 (sliceSteps kind)).sliceResult st k
    margin pass (Config.freeNat s.freeCtr)
/-- SLICE_COMMAND (R376): a whole slice of a stand, in MANUFACTURE and RETURNED. -/
def execSliceCommand (unit : BitVec 16) (sub kind margin : Byte) (pass : Bool) (s : State) : Res :=
  if (s.power.lifecycle = 0 ∨ s.power.lifecycle = 3) ∧ unit.toNat < 5000 ∧ margin.toNat < 3 then
    match sliceOf kind.toNat sub.toNat with
    | some k => .next (s.wholeSlice unit.toNat kind.toNat margin.toNat k (leBytes 2 unit.toNat ++ [sub, kind, margin, 0, 0, 0]) pass)
    | none => .next s
  else .next s
/-- GROVE_FEC_FAILURE (R375): more than 16 uncorrectable codewords within 10 us at a port whose PCS is up. -/
def execGroveFecFailure (port : Fin 12) (s : State) : Res :=
  if (s.port port).pcs then .next (s.portFails port 1) else .next s
/-- FAULT_STOP (R379). -/
def execFaultStop (cls : BitVec 16) (s : State) : Res := .next (s.faultStop cls.toNat)

/-! ## The forester (R381, R482) -/

/-- Header of the answer to a dictionary message (R454): a status, END, the length of its data. -/
def answerHeader (m : List Byte) (status : Nat) (fin : Bool) (len : Nat) : List Byte :=
  leBytes 1 (field m 0 1 % 128 + 128) ++ leBytes 1 status ++ slice m 2 5 ++ leBytes 1 (2 * b2n fin) ++ slice m 8 4 ++ leBytes 2 len ++
    [0, 0]
/-- A mailbox command completes: return code and output; vector 18 while the mailbox interrupt is enabled (R459, Table 15.3). -/
def State.mailboxDone (s : State) (ret : Nat) (out : List Byte) : State :=
  let s := s.emit (.mailbox ret out)
  if s.host.mbirq then s.due 18 else s
/-- A forester restart: queued requests, staged segments and kept snapshots are gone, and a waiting mailbox request is answered BUSY
(R482); SPDM starts again at GET_VERSION (log 50). -/
def State.foresterFresh (s : State) : State :=
  let lost := s.host.queued.filter fun q => q.path = .mailbox
  let s := { s with host := { s.host with staged := [], queued := [], snapshots := [] },
                    power := { s.power with fwCheck := true, spdmVersion := false, spdmCaps := false, spdmAlgs := false } }
  lost.foldl (fun s q => s.mailboxDone 0 ([1, 0x7E, 0, 0] ++ answerHeader q.msg 7 false 0)) s
/-- FORESTER_RESTART (R482). -/
def execForesterRestart (s : State) : Res := .next s.foresterFresh
/-- FORESTER_WATCHDOG (R381): counted for the escalation of Table 14.3. -/
def execForesterWatchdog (s : State) : Res :=
  let n := s.rel.foresterRestarts + 1
  let ts := (s.rel.restartTicks.filter fun t => decide (s.time.tick < t + sec 60)) ++ [s.time.tick]
  let s := s.foresterFresh
  .next (({ s with rel := { s.rel with foresterRestarts := n, restartTicks := ts } } : State).record 0x0804 0 (leBytes 4 n)
    (unit := 0xF000))

/-! ## Records (R382 to R384, R486) -/

/-- Bytes of an error record (Table 12.8). -/
def ErrRec.bytes (r : ErrRec) (seq : Nat) : List Byte :=
  leBytes 8 seq ++ leBytes 8 r.wall ++ leBytes 8 r.beat ++ leBytes 2 r.cls ++ leBytes 1 (r.sev % 4 * 64) ++ leBytes 1 r.opcode ++
    leBytes 2 r.unit ++ leBytes 1 r.sub ++ leBytes 1 0 ++ leBytes 2 (lowBits 16 r.temp) ++ leBytes 1 r.tsens ++ leBytes 1 r.railch ++
    leBytes 2 r.rail ++ leBytes 2 0 ++ slice r.detail 0 24
/-- Remove the oldest informational record, or the oldest of any severity (R384). -/
def cperDrop (q : List (Nat × ErrRec)) : List (Nat × ErrRec) :=
  if q.any fun e => e.2.sev = 3 then q.eraseP fun e => decide (e.2.sev = 3) else q.drop 1
/-- A record enters the CPER queue of 4,096. -/
def State.queueCper (s : State) (n : Nat) (r : ErrRec) : State :=
  if r.sev = 3 ∧ s.setting 0x401004 0 ≠ 1 then s
  else
    let q := s.rel.cper
    let full := decide (4096 ≤ q.length)
    let s := if full then s.count 0x540003 else s
    { s with rel := { s.rel with cper := (if full then cperDrop q else q) ++ [(n, r)] } }
/-- Error log offset [0x2500:0B]. -/
def State.errorLogAt (s : State) : Nat := s.setting 0x25000B 63100000000
/-- ERROR_RECORD_WRITE (R382): the oldest pending record enters the log. -/
def execErrorRecordWrite (s : State) : Res :=
  match s.rel.collector with
  | [] => .next s
  | r :: t =>
    let n := s.rel.logCount
    let s := { s with rel := { s.rel with collector := t, logCount := n + 1 } }
    let s := s.tierWrite true (s.errorLogAt + 64 * (n % 1048576)) (r.bytes n) 5105
    let s := (s.count 0x540001).count (0x540101 + r.sev % 4)
    let s := if r.sev < 2 then s.due 17 else s
    .next (s.queueCper n r)
/-- CPER_REMOVE. -/
def execCperRemove (seq : DWord) (s : State) : Res :=
  .next { s with rel := { s.rel with cper := s.rel.cper.filter fun e => e.1 ≠ seq.toNat } }
/-- Set the wall clock, or unset it with 0 (R486). -/
def State.setWall (s : State) (v : Nat) : State := { s with rel := { s.rel with wall := v, wallSet := decide (v ≠ 0) } }
/-- WALL_CLOCK_WRITE. -/
def execWallClockWrite (value : DWord) (s : State) : Res := .next (s.setWall value.toNat)

end Sys2Proof.Machine
end

