-- ==== Sys2Proof/Machine/Sensing.lean ====
section
/-! DEFINITION. Converter, temperatures, the thermal loop and calibration (13). -/

namespace Sys2Proof.Machine

/-- Change ADC channel n. -/
def State.modAdc (s : State) (n : Nat) (f : Adc → Adc) : State :=
  { s with sense := { s.sense with adcs := Tab.set {} s.sense.adcs n (f (s.adc n)) } }
/-- Change diode d. -/
def State.modDiode (s : State) (d : Nat) (f : Sensor → Sensor) : State :=
  { s with sense := { s.sense with diodes := Tab.set {} s.sense.diodes d (f (s.diode d)) } }
/-- Thermistor pin n. -/
def State.therm (s : State) (n : Nat) : Sensor := Tab.get {} s.sense.therms n
/-- Change thermistor pin n. -/
def State.modTherm (s : State) (n : Nat) (f : Sensor → Sensor) : State :=
  { s with sense := { s.sense with therms := Tab.set {} s.sense.therms n (f (s.therm n)) } }
/-- The rails of the die are up: BOOTING, RUNNING or WARM_RESET. -/
def State.powered (s : State) : Bool := s.power.state = 2 || s.power.state = 3 || s.power.state = 4

/-! ## Conversions (R388 to R391) -/

/-- Clamp to a signed 24-bit value. -/
def clamp24 (v : Int) : Int := max (-8388608) (min v 8388607)
/-- Correction of a raw result (R391). -/
def Adc.correct (a : Adc) (raw : Int) : Int := clamp24 (roundHalfEven ((raw + a.offset) * a.gain) 4194304)
/-- Trigger source in force: 0 FREE, 1 TIMER, 2 PWM; thermistors are triggered by a TIMER (R397). -/
def State.trigSource (s : State) (ch : Nat) : Nat :=
  if ch < 64 then 0 else if ch < 72 then 1 else bits (s.setting (entryKey 0x1410 7 ch) 0) 31 30
/-- A conversion of a channel ends: one cut short by a restart is discarded (R389), a settled one is corrected. Channels 94 and 95
have no input. -/
def State.adcResult (s : State) (ch : Nat) (raw : Int) : State :=
  let a := s.adc ch
  if a.settle ≤ 1 then
    let raw := if 94 ≤ ch then 0 else clamp24 raw
    s.modAdc ch fun a => { a with raw := raw, code := a.correct raw, settle := 0, trigBusy := false }
  else s.modAdc ch fun a => { a with settle := a.settle - 1 }
/-- ADC_RESULT: a triggered channel converts only after its trigger. -/
def execAdcResult (ch : Fin 96) (raw : Int) (s : State) : Res :=
  if s.powered ∧ (s.trigSource ch = 0 ∨ (s.adc ch).trigBusy) then .next (s.adcResult ch raw) else .next s
/-- ADC_TRIGGER (R390): the channel restarts; a trigger before the previous result has settled is ignored and counted. -/
def execAdcTrigger (ch : Fin 96) (s : State) : Res :=
  if !s.powered ∨ s.trigSource ch = 0 then .next s
  else if (s.adc ch).trigBusy then .next (s.count 0x514005)
  else .next (s.modAdc ch fun a => { a with trigBusy := true, settle := 3 })

/-! ## The thermal loop (R398 to R402) -/

/-- Throttle limit [0x1300:03]. -/
def State.throttleLimit (s : State) : Int := s.setting 0x130003 6080
/-- Hysteresis [0x1300:07] in 1/64 degree. -/
def State.hysteresis (s : State) : Int := 64 * (s.setting 0x130007 3 : Nat)
/-- Channel of the hottest reading, and the reading (13.3). -/
def State.hottest (s : State) : Nat × Int :=
  (List.range 64).foldl (fun (m : Nat × Int) d => if m.2 < s.diodeValue d then (d, s.diodeValue d) else m) (0, s.diodeValue 0)
/-- Limit of a thermistor pin [0x1310:04]. -/
def State.thermLimit (s : State) (n : Nat) : Int := s.setting (entryKey 0x1310 4 n) 5440
/-- Every diode and thermistor lies below its limit minus the hysteresis (R399). -/
def State.allBelow (s : State) : Bool :=
  decide (s.hottest.2 < s.throttleLimit - s.hysteresis) &&
  (List.range 8).all fun n => !(s.therm n).own || decide ((s.therm n).reading < s.thermLimit n - s.hysteresis)
/-- Remember when a reading was last not below (R399). -/
def State.noteBelow (s : State) : State :=
  if s.allBelow then s else { s with sense := { s.sense with belowSince := s.time.tick } }
/-- Set the levels; the thermal state changes between NORMAL and THROTTLED (R400, Table 15.3). -/
def State.setLevels (s : State) (t p : Nat) : State :=
  let same : Bool := decide (s.level = 0) == decide (max t p = 0) && decide (s.sense.plevel = p)
  let s := { s with sense := { s.sense with tlevel := t, plevel := p } }
  if same then s else s.due 19
/-- The thermal level rises by 1 (R399): cause 0 a diode, 1 a thermistor. -/
def State.rise (s : State) (cause ch : Nat) (reading : Int) : State :=
  let recent : Bool := match s.sense.lastRise with | some t => decide (s.time.tick < t + ms 1) | none => false
  if s.sense.tlevel = 7 ∨ recent ∨ s.sense.stop ≠ 0 then s
  else
    let n := s.sense.tlevel + 1
    let s := (s.setLevels n s.sense.plevel).count 0x513001
    let s := { s with sense := { s.sense with lastRise := some s.time.tick, lastChange := s.time.tick } }
    s.record 0x0902 3 (leBytes 1 n ++ leBytes 1 cause ++ leBytes 1 ch ++ leBytes 2 (lowBits 16 reading)) (unit := 0xF200 + ch)
/-- Distance of two ticks. -/
def tickGap (a b : Nat) : Nat := (a - b) + (b - a)
/-- The entry of a history nearest to a tick. -/
def nearest (t : Nat) : List (Nat × Int) → Option (Nat × Int)
  | [] => none
  | e :: l => match nearest t l with
    | some f => if tickGap f.1 t < tickGap e.1 t then some f else some e
    | none => some e
/-- Rise of the hottest diode since its reading nearest to 1 ms earlier, and the ticks between the two (R401). -/
def State.slope (s : State) (d : Nat) : Int × Nat :=
  match (s.diode d).history with
  | [] => (0, 1)
  | e :: l => match nearest (e.1 - ms 1) l with
    | some f => (e.2 - f.2, e.1 - f.1)
    | none => (0, 1)
/-- Ticks to trip; none: unbounded (R401). -/
def State.toTrip (s : State) : Option Nat :=
  let r := s.slope s.hottest.1
  if 0 < r.1 ∧ 0 < r.2 then some ((7360 - s.hottest.2) * r.2 / r.1).toNat else none
/-- Stop reserve [0x1300:0A] in ticks. -/
def State.stopReserve (s : State) : Nat := us (s.setting 0x13000A 500)
/-- Ticks still needed for an orderly stop (R401). -/
def State.stopNeeds (s : State) : Nat := (s.time.target - s.time.tick) + s.stopReserve
/-- The THERMAL_STOP record: kind 0 orderly, 1 immediate. -/
def State.stopRecord (s : State) (kind : Nat) : State :=
  let h := s.hottest
  let r := s.slope h.1
  let perMs := if r.2 = 0 then 0 else r.1 * (ms 1 : Nat) / r.2
  s.record 0x0903 1 (leBytes 1 kind ++ leBytes 1 h.1 ++ leBytes 2 (lowBits 16 h.2) ++ leBytes 2 (lowBits 16 perMs) ++
    leBytes 4 (match s.toTrip with | some t => t / 100 | none => 0xFFFFFFFF)) (unit := 0xF200 + h.1)
/-- An immediate stop is decided: the clock stops within 1 us (R403). -/
def State.stopNow (s : State) : State :=
  let s := (s.count 0x513004).stopRecord 1
  { s with sense := { s.sense with stop := 1 } }
/-- An orderly stop is decided (R402). -/
def State.stopOrderly (s : State) : State :=
  let s := ((s.count 0x513003).stopRecord 0).due 19
  { s with sense := { s.sense with stop := 2, stopTick := s.time.tick, stopBoundary := none } }
/-- The stop decision at or above the stop limit (R401). -/
def State.stopDecide (s : State) : State :=
  match s.toTrip with
  | some t => if t < s.stopNeeds then s.stopNow else s.stopOrderly
  | none => s.stopOrderly
/-- Launches resume below the resume limit [0x1300:0B] (R404). -/
def State.resumeCheck (s : State) : State :=
  if s.time.resumeWait ∧ s.hottest.2 < s.setting 0x13000B 5760 then { s with time := { s.time with resumeWait := false } } else s
/-- The thermal loop, each time a diode reading completes (13.3). The stop decision comes before a throttle rise (log 48). -/
def State.thermalLoop (s : State) : State :=
  let s := s.noteBelow.resumeCheck
  let h := s.hottest
  if s.sense.stop = 0 then
    if 6720 ≤ h.2 then s.stopDecide
    else if s.throttleLimit ≤ h.2 then s.rise 0 h.1 h.2
    else s
  else if s.sense.stop = 2 ∧ 7040 ≤ h.2 then s.stopNow
  else s

/-! ## Readings (R392 to R397) -/

/-- Cadence of a reading (Table 13.4): 0 10 ms, 1 1 ms, 2 250 us. -/
def State.cadenceOf (s : State) (r : Int) : Nat :=
  if r < s.throttleLimit - 640 then 0 else if r < 6720 - 320 then 1 else 2
/-- Ticks of a cadence. -/
def cadenceTicks (c : Nat) : Nat := if c = 0 then ms 10 else if c = 1 then ms 1 else us 250
/-- Failed diodes of a quadrant. -/
def State.failedIn (s : State) (q : Nat) : Nat :=
  ((List.range 64).filter fun d => d / 32 * 2 + d % 32 / 16 = q ∧ (s.diode d).failed).length
/-- More than four failed diodes in a quadrant make health DEGRADED (R396). -/
def State.diodeHealth (s : State) : State := if (List.range 4).any fun q => decide (4 < s.failedIn q) then s.degrade else s
/-- SENSOR_FAILED. -/
def State.sensorRecord (s : State) (ch cause : Nat) (reading sub : Int) : State :=
  (s.count 0x513005).record 0x0901 0 (leBytes 1 ch ++ leBytes 1 cause ++ leBytes 2 (lowBits 16 reading) ++ leBytes 2 (lowBits 16 sub))
    (unit := 0xF200 + ch)
/-- Diode d fails (R395). -/
def State.diodeFails (s : State) (d cause : Nat) (reading : Int) : State :=
  let s := s.modDiode d fun x => { x with failed := true, valid := false, cause := cause }
  (s.sensorRecord d cause reading (s.substitute d)).diodeHealth
/-- Ideality factor of diode d in 1/65536, and its series resistance in milliohm (R392). -/
def State.ideality (s : State) (d : Nat) : Nat := Tab.get 65536 s.sense.ideality d
def State.seriesR (s : State) (d : Nat) : Nat := Tab.get 0 s.sense.seriesR d
/-- T of R392 in 1/64 degree, to nearest (log 49), from the corrected codes at 10 uA and at 160 uA. A code is 0.390625 uV;
q / k = 16021766340 / 1380649 K/V; ln 16 to 30 decimals. -/
def diodeTemp (eta rs : Nat) (c10 c160 : Int) : Int :=
  let dv : Int := (c160 - c10) * 390625 - (rs : Int) * 150000
  let den : Nat := 1380649 * 10 ^ 12 * eta * 2772588722239781237668928485833
  roundHalfEven (640 * 16021766340 * 65536 * 10 ^ 30 * dv - 174816 * (den : Int)) (10 * den)
/-- Terms of 2 artanh z in units of 2^-128: z, z^3 / 3, z^5 / 5, ...; p the power, z2 the square, k the divisor. -/
def artanhGo : Nat → Nat → Nat → Nat → Nat
  | 0, _, _, _ => 0
  | f + 1, p, z2, k => 2 * p / k + artanhGo f (p * z2 / 2 ^ 128) z2 (k + 2)
/-- ln(n / d) for d ≤ n ≤ 2 d, in units of 2^-128. -/
def lnUnit (n d : Nat) : Nat :=
  let z := (n - d) * 2 ^ 128 / (n + d)
  artanhGo 48 z (z * z / 2 ^ 128) 1
/-- ln(n / d) for positive n and d, in units of 2^-128. -/
def lnFix (n d : Nat) : Int :=
  let e := log2rat n d
  e * (lnUnit 2 1 : Int) + lnUnit (n * 2 ^ (-e).toNat) (d * 2 ^ e.toNat)
/-- Temperature of R397 in 1/64 degree, to nearest (log 49), from the corrected codes of the pin and of VREF_EXT: the resistance
is 10,000 c / (v - c) (R473). A shorted pin reads the highest value, an open one the limit of the formula. -/
def thermTemp (b r25 : Nat) (c v : Int) : Int :=
  if c ≤ 0 then 32767
  else if v ≤ c then -17482
  else
    let l := lnFix (10000 * c.toNat) ((v - c).toNat * r25)
    let den : Int := 20 * (b : Int) * 2 ^ 128 + 5963 * l
    if den ≤ 0 then 32767
    else roundHalfEven (640 * 5963 * (b : Int) * 2 ^ 128 - 174816 * den) (10 * den).toNat
/-- Temperature of a thermistor pin now. -/
def State.thermNow (s : State) (n : Nat) : Int :=
  thermTemp (s.setting (entryKey 0x1310 2 n) 3435) (s.setting (entryKey 0x1310 3 n) 10000) (s.adc (64 + n)).code (s.adc 92).code
/-- A temperature outside -40 to 150 degrees. -/
def tempOut (r : Int) : Bool := decide (r < -2560) || decide (9600 < r)
/-- A reading that passes is stored; its cadence is that of the next reading (R394). -/
def State.diodeTakes (s : State) (d : Nat) (r : Int) : State :=
  let c := s.cadenceOf r
  s.modDiode d fun x =>
    { x with reading := r, valid := true, misses := 0, cadence := c, last := s.time.tick, history := (s.time.tick, r) :: x.history.take 15 }
/-- The checks of R395 on a completed reading; `c10` is the code at 10 uA: 0.2 V to 0.9 V. -/
def State.diodeCheck (s : State) (d : Nat) (c10 r : Int) : State :=
  let ns := s.neighbourReadings d
  if tempOut r ∨ c10 < 512000 ∨ 2304000 < c10 then s.diodeFails d 2 r
  else if ns ≠ [] ∧ (r - median ns > 384 ∨ median ns - r > 384) then
    let n := (s.diode d).misses + 1
    let s := s.modDiode d fun x => { x with misses := n, valid := false, last := s.time.tick }
    if 3 ≤ n then s.diodeFails d 1 r else s
  else s.diodeTakes d r
/-- DIODE_READING (R392): from its two settled codes, checked, then the thermal loop acts. A failed diode stays failed. -/
def execDiodeReading (d : Fin 64) (c10 c160 : Int) (s : State) : Res :=
  if s.powered then
    .next ((if (s.diode d).failed then s else s.diodeCheck d c10 (diodeTemp (s.ideality d) (s.seriesR d) c10 c160)).thermalLoop)
  else .next s
/-- Thermistor pin n fails (R397): it has no substitute. -/
def State.thermFails (s : State) (n cause : Nat) (reading : Int) : State :=
  (s.modTherm n fun x => { x with failed := true, valid := false, cause := cause }).sensorRecord (64 + n) cause reading 0
/-- No reading within three periods of a sensor's cadence (R395). -/
def State.readingLate (s : State) (x : Sensor) (period : Nat) : Bool :=
  s.powered && !x.failed && decide (x.last + 3 * period ≤ s.time.tick)
/-- DIODE_READING_TIMEOUT (R395): no reading of the channel within three cadence periods; a pin of channels 64 to 71 reads every 100 ms
and fails under the same rule (R397). -/
def execDiodeReadingTimeout (d : Fin 72) (s : State) : Res :=
  if d.val < 64 then
    let x := s.diode d
    .next (if s.readingLate x (cadenceTicks x.cadence) then s.diodeFails d 3 x.reading else s)
  else
    let x := s.therm (d.val - 64)
    .next (if s.readingLate x (ms 100) then s.thermFails (d.val - 64) 3 x.reading else s)
/-- THERMISTOR_READING (R397): out of range fails the pin; at or above its limit it raises the throttle. -/
def execThermistorReading (pin : Fin 8) (s : State) : Res :=
  let n := pin.val
  let reading := s.thermNow n
  if !s.powered ∨ (s.therm n).failed then .next s
  else if tempOut reading then
    .next (s.thermFails n 2 reading)
  else
    let s := (s.modTherm n fun x => { x with reading := reading, valid := true, last := s.time.tick }).noteBelow
    .next (if s.thermLimit n ≤ reading then
        (s.record 0x0905 3 (leBytes 1 n ++ leBytes 2 (lowBits 16 reading)) (unit := 0xF200 + (64 + n))).rise 1 (64 + n) reading
      else s)

/-! ## Throttle and stops (R399 to R403) -/

/-- THROTTLE_RELEASE (R399). -/
def execThrottleRelease (s : State) : Res :=
  if s.sense.stop = 0 ∧ 0 < s.sense.tlevel ∧ s.allBelow ∧
      max s.sense.lastChange s.sense.belowSince + ms (s.setting 0x130009 100) ≤ s.time.tick then
    let s := s.setLevels (s.sense.tlevel - 1) s.sense.plevel
    .next { s with sense := { s.sense with lastChange := s.time.tick } }
  else .next s
/-- POWER_LEVEL_REQUEST (R400): applied at once; an orderly stop has frozen the levels (R402). -/
def State.applyPower (s : State) (level : Nat) : State := if s.sense.stop = 0 then s.setLevels s.sense.tlevel level else s
/-- POWER_LEVEL_REQUEST. -/
def execPowerLevelRequest (level : Fin 8) (s : State) : Res := .next (s.applyPower level)
/-- Write every pending record (R402 step 3); `fuel` is their number. -/
def State.flushRecords : Nat → State → State
  | 0, s => s
  | f + 1, s => match execErrorRecordWrite s with
    | .next t => State.flushRecords f t
    | _ => s
/-- ORDERLY_STOP_CLOCK_STOP (R402 steps 3 and 4): after the stop's boundary. -/
def execOrderlyStopClockStop (s : State) : Res :=
  if s.sense.stop = 2 ∧ s.sense.stopBoundary.isSome then
    let s := (State.flushRecords s.rel.collector.length s).due 19
    .next { s with sense := { s.sense with stop := 3 } }
  else .next s
/-- The boundary of an orderly stop has not come within the stop reserve (R402). -/
def State.stopOverdue (s : State) : Bool :=
  s.sense.stop = 2 && s.sense.stopBoundary.isNone && decide (s.sense.stopTick + s.stopReserve ≤ s.time.tick)
/-- Shadow trims of the steps of this beat are discarded (Table 13.7, log 137). -/
def State.dropShadows (s : State) : State :=
  s.mapCores fun _ c => { c with bankA := { c.bankA with shadow := none }, bankB := { c.bankB with shadow := none } }
/-- IMMEDIATE_STOP (R403): the clock stops in the middle of the beat. -/
def execImmediateStop (s : State) : Res :=
  if s.sense.stop = 1 ∨ s.stopOverdue then
    let s := (if s.sense.stop = 1 then s else s.stopNow).due 19
    .next ({ s with sense := { s.sense with stop := 4 } } : State).dropShadows
  else .next s

/-! ## Calibration (R406 to R409) -/

/-- Mean of diode readings. -/
def State.meanOf (s : State) (ds : List Nat) : Int := (ds.map fun d => s.diodeValue d).sum / (ds.length : Int)
/-- Mean of all 64 diode readings. -/
def State.meanAll (s : State) : Int := s.meanOf (List.range 64)
/-- Mean of a quadrant's 16 diode readings (R409). -/
def State.quadMean (s : State) (q : Nat) : Int := s.meanOf ((List.range 64).filter fun d => d / 32 * 2 + d % 32 / 16 = q)
/-- A mean has moved by more than the calibration step [0x1400:01]. -/
def State.moved (s : State) (a b : Int) : Bool :=
  let k : Int := 64 * (s.setting 0x140001 5 : Nat)
  decide (k < a - b) || decide (k < b - a)
/-- Ticks of the calibration interval [0x1400:02]. -/
def State.calTicks (s : State) : Nat := sec (s.setting 0x140002 86400)
/-- An ADC run is due (R406); it waits while a diode is at the 250 us cadence. -/
def State.adcDue (s : State) : Bool :=
  (s.sense.adcRunDue || s.moved s.meanAll s.sense.adcMean || decide (s.sense.adcLast + s.calTicks ≤ s.time.tick)) &&
  (List.range 64).all fun d => (s.diode d).failed || decide ((s.diode d).cadence ≠ 2)
/-- New gain for a mean of VREF_EXT and an offset (R407, R391); none: it has no value in Q2.22. -/
def newGain (m o : Int) : Option Int :=
  if 0 < m + o then some (roundHalfEven (6400000 * 4194304) (m + o).toNat) else none
/-- Calibrate one channel into its shadow copy: mean of the shorted input, mean of VREF_EXT (R407). The switches restart it (R389). -/
def State.calChannel (s : State) (c : Nat × Int × Int) : State :=
  let o := -c.2.1
  let g := newGain c.2.2 o
  let ok := decide (-65536 ≤ o ∧ o ≤ 65536) && match g with | some v => decide (4110418 ≤ v ∧ v ≤ 4278190) | none => false
  if 96 ≤ c.1 then s
  else if ok then (s.modAdc c.1 fun a => { a with settle := 3 }).modAdc c.1 fun a => { a with shadow := some (o, (g.getD 0).toNat), calfail := false }
  else
    ((s.modAdc c.1 fun a => { a with calfail := true, shadow := none, settle := 3 }).count 0x514002).record 0x0906 0
      (leBytes 1 c.1 ++ leBytes 4 (lowBits 32 o) ++ leBytes 4 (lowBits 32 (g.getD 0))) (unit := 0xF200 + c.1)
/-- ADC_CALIBRATION_RUN (R407): VREF_EXT and the bandgap disagree by more than 0.5 % of VREF_EXT (DEDUCED, log 49): the run ends;
else every channel is calibrated and the run commits at the next boundary (R408). -/
def execAdcCalibrationRun (vref bandgap : Int) (means : List (Nat × Int × Int)) (s : State) : Res :=
  if s.powered ∧ s.adcDue then
    let m := s.meanAll
    let s := { s with sense := { s.sense with adcRunDue := false, adcMean := m, adcLast := s.time.tick } }
    if 200 * (vref - bandgap) > vref ∨ 200 * (bandgap - vref) > vref then
      .next (({ s with sense := { s.sense with vrefBad := true } } : State).record 0x0907 0
        (leBytes 4 (lowBits 32 vref) ++ leBytes 4 (lowBits 32 bandgap)) (unit := 0xF200 + 92))
    else
      let s := means.foldl State.calChannel { s with sense := { s.sense with vrefBad := false } }
      .next { s with sense := { s.sense with adcRunEnd := true } }
  else .next s
/-- Queue one item per core of a stand that is not fenced. -/
def State.queueTrims (s : State) (st : Nat) : State :=
  let cs := (List.finRange 17).filter fun (c : Fin 17) => !(s.core st c).fenced && !(s.stand st).maint.any fun m => m.kind == .trim c
  let n := Tab.get 0 s.sense.quadPending (quadrant st) + cs.length
  let s := { s with sense := { s.sense with quadPending := Tab.set 0 s.sense.quadPending (quadrant st) n } }
  s.modStand st fun x => { x with maint := x.maint ++ cs.map fun (c : Fin 17) => { kind := .trim c, since := s.time.tick } }
/-- An array calibration of a quadrant becomes due (R409). -/
def State.quadRun (s : State) (q : Nat) : State :=
  let m := s.quadMean q
  let s := { s with sense := { s.sense with quadMean := Tab.set 0 s.sense.quadMean q m,
                                            quadLast := Tab.set 0 s.sense.quadLast q s.time.tick } }
  (allStands.filter fun st => quadrant st = q).foldl State.queueTrims s
/-- ARRAY_CALIBRATION_DUE (R409): the quadrant's mean has moved, or the interval has passed. -/
def execArrayCalibrationDue (quadrant : Fin 4) (s : State) : Res :=
  let q := quadrant.val
  if s.powered ∧ (s.moved (s.quadMean q) (Tab.get 0 s.sense.quadMean q) ∨
      Tab.get 0 s.sense.quadLast q + s.calTicks ≤ s.time.tick) then .next (s.quadRun q)
  else .next s
/-- A calibration command [0x1400:03]: 0 to 3 an array run, 4 an ADC run. -/
def State.calCommand (s : State) (v : Nat) : State :=
  if v < 4 then s.quadRun v
  else if v = 4 then { s with sense := { s.sense with adcRunDue := true } }
  else s
/-- CALIBRATION_COMMAND (R406, R409); any other value is refused. -/
def execCalibrationCommand (value : Byte) (s : State) : Res := .next (s.calCommand value.toNat)

end Sys2Proof.Machine
end

