-- ==== Sys2Proof/Machine/Power.lean ====
section
/-! DEFINITION. Supplies, the power limit, resets and their causes, the exit from a cold start, boot, keys and the lifecycle (14). -/

namespace Sys2Proof.Machine

/-- Change the power part of the state. -/
def State.modPower (s : State) (f : Power → Power) : State := { s with power := f s.power }
/-- A record of the forester: logged now, or once the die can log it (R405, R431, R433). -/
def State.foresterRecord (s : State) (cls sev : Nat) (detail : List Byte) : State :=
  if s.powered then s.record cls sev detail else s.modPower fun p => { p with due := p.due ++ [{ cls, sev, detail }] }
/-- Result of a reset, key, floor or lifecycle command [0x1100:0A]; the spec gives OP only for the reset command, so that OP is
free where none is given (log 51). -/
def State.cmdResult (s : State) (op : Option Nat) (code : Nat) : State :=
  match op with
  | some o => s.modPower fun p => { p with cmdRes := o * 256 + code }
  | none => { s with freeCtr := s.freeCtr + 1, power := { s.power with cmdRes := Config.freeNat s.freeCtr % 256 * 256 + code } }

/-! ## Causes and ring counters (R430, R431) -/

/-- Subindex of the ring counter that a module reset raises (Table 14.4, Table 14.8). -/
def ringOf (code : Nat) : Option Nat :=
  if code = 1 then some 1 else if code = 2 then some 2 else if code = 6 then some 3 else if code = 7 then some 4
  else if code = 8 then some 5 else none
/-- Raise a ring counter: 32 bits, saturating (R431). -/
def State.raiseRing (s : State) (k : Nat) : State :=
  s.modPower fun p => { p with rings := Tab.set 0 p.rings k (min 0xFFFFFFFF (Tab.get 0 p.rings k + 1)) }
/-- Last cause word (Table 14.7): BKLOST is kept. -/
def causeWord (old : BitVec 32) (code source detail : Nat) : BitVec 32 :=
  BitVec.ofNat 32 (code % 16 * 2 ^ 28 + source % 16 * 2 ^ 24 + detail % 256 * 2 ^ 16) ||| (old &&& 0x8000)
/-- The module's last cause, with the beat and the wall clock before the reset (R430, Table 14.15). -/
def State.writeCause (s : State) (code source detail : Nat) : State :=
  let s := match ringOf code with
    | some k => s.raiseRing k
    | none => s
  s.modPower fun p => { p with cause := causeWord p.cause code source detail, causeBeat := s.time.beat,
                               causeWall := if s.rel.wallSet then s.rel.wall else 0 }

/-! ## Reach of the cold resets (Table 14.4) -/

/-- A bank as the installation record restores it (R59, R60). -/
def ABank.restored (k : ABank) : ABank :=
  { k with st := if k.st = .write ∨ k.st = .verify then .empty else k.st, map := k.nextMap.getD k.map, nextMap := none, shadow := none }
/-- A core as the records restore it (R59). -/
def Core.restored (c : Core) : Core :=
  { bankA := c.bankA.restored, bankB := c.bankB.restored, bptrB := c.bptrB, capmode := c.capmode, fenced := c.fenced }
/-- A scratchpad bank as the repair record restores it (R103). -/
def SpadBank.restored (k : SpadBank) : SpadBank :=
  { spare0 := k.spare0, spare1 := k.spare1, degraded := k.degraded, fieldRepairs := k.fieldRepairs }
/-- A coppicing starts again (Table 12.7). -/
def Coppice.again (q : Coppice) : Coppice := { q with verified := false, start := 0, micros := 0 }
/-- A stand as the records restore it: row maps, service map, pairing, a coppicing that starts again (R103, Table 12.7). -/
def Stand.restored (x : Stand) : Stand :=
  { banks := Tab.mapVals {} (fun _ k => k.restored) x.banks, svc := x.svc, pairA := x.pairA, pairB := x.pairB,
    coppice := x.coppice.map Coppice.again }
/-- Every unit is at incarnation 1, with the reset as its cause (R326, R430). -/
def freshNodes (cause : Nat) : Tab NodeInfo :=
  ((List.range 5107).map fun n => (n, ({ cause := cause } : NodeInfo))).filter fun e => decide (e.2 ≠ {})
/-- Settings of entries that are not persistent return to their defaults (R15, R451). -/
def State.dropVolatile (s : State) : State :=
  { s with settings := Tab.clear s.settings fun k => volatileKey (k % 16777216),
           octets := Tab.clear s.octets fun k => volatileKey (k % 16777216) }
/-- Weights as the installation record restores them: versions, pointer, shards, staging and the switch stay; the count of members
arrived is 0, the inbox free, tier contents lost (R276, R279). -/
def Weights.restored (w : Weights) : Weights :=
  { verA := w.verA, verB := w.verB, current := w.current, ptrB := w.ptrB, capmode := w.capmode, shards := w.shards, staging := w.staging,
    sw := { w.sw with members := 0 } }
/-- Ports: endpoint, transport and flag state cleared; cables stay (Table 14.4). -/
def Grove.restored (g : Grove) : Grove :=
  { ports := Tab.mapVals {} (fun _ p => { cable := p.cable, powered := p.powered }) g.ports }
/-- Tier controllers reset, contents lost; remaps of the repair record stay (R306, Table 14.4). -/
def Mem.restored (m : Mem) : Mem :=
  { remaps := Tab.mapVals {} (fun _ r => if r.valid && !r.copying then { valid := true, pch := r.pch } else {}) m.remaps }
/-- Links: widths and seam wires of the repair record stay (R206, R224). -/
def State.restoreLinks (s : State) : State :=
  { s with links := Tab.mapVals {} (fun _ l => { width := l.width }) s.links,
           seams := Tab.mapVals {} (fun _ l => { wires := l.wires, failed := l.failed, width := l.width }) s.seams }
/-- Sensing: channel corrections and the diodes' constants stay (R392, R408); THERMTRIP_N is released unless the reset is the trip;
the power stages go on asking for the level of R422. -/
def Sense.restored (x : Sense) (trip : Bool) (floor : Nat) : Sense :=
  { adcs := Tab.mapVals {} (fun _ a => { offset := a.offset, gain := a.gain }) x.adcs, ideality := x.ideality, seriesR := x.seriesR, tripN := !trip,
    plevel := floor }
/-- The forester restarts from the boot ROM in POR, COLD, escalated WATCHDOG and FATAL (Table 14.4). -/
def restartsForester (code : Nat) : Bool := code = 1 || code = 3 || code = 6 || code = 8
/-- Host link and dictionary: MSI-X and the link reset; what the forester holds stays while it keeps running (R482). -/
def HostIf.restored (h : HostIf) (code : Nat) : HostIf :=
  let n := if code = 1 then 0 else h.nsnap
  if restartsForester code then { nsnap := n }
  else { nsnap := n, eid := h.eid, staged := h.staged, queued := h.queued, vlanLast := h.vlanLast }
/-- Errors and health: count, collector, health and wall clock cleared; CPER records stay while the forester keeps running. -/
def Rel.restored (r : Rel) (code : Nat) : Rel :=
  { cper := if restartsForester code then [] else r.cper, foresterRestarts := if code = 1 then 0 else r.foresterRestarts }
/-- Power state after a reset: rails down for POR, BROWNOUT and the trip, HELD for the trip (Table 14.4, R425). -/
def Power.restored (p : Power) (code : Nat) : Power :=
  let kept : Bool := code = 3 || code = 6 || code = 8
  { p with
    state := if code = 7 then 5 else 0, exitStep := 1, railStep := if kept then p.railStep else 0,
    seqFails := if code = 1 ∨ code = 3 then 0 else p.seqFails,
    aboveSince := none, lowSince := none, levelTick := 0, lastSRise := none, level := p.floor, samples := [], energy := 0,
    debug := p.debugNext, cmdRes := 0, upRes := 0, fwCheck := p.fwCheck || restartsForester code,
    spdmVersion := p.spdmVersion && !restartsForester code, spdmCaps := p.spdmCaps && !restartsForester code,
    spdmAlgs := p.spdmAlgs && !restartsForester code }
/-- Reset of everything in the reach of POR, BROWNOUT, COLD, escalated WATCHDOG, THERMAL_TRIP and FATAL (Table 14.4); launches
wait for the resume limit after a thermal stop (R404). -/
def State.coldParts (s : State) (code : Nat) : State :=
  let s := s.restoreLinks.dropVolatile
  { s with
    counters := [], time := { resumeWait := decide (2 ≤ s.sense.stop) },
    cores := Tab.mapVals {} (fun _ c => c.restored) s.cores, stands := Tab.mapVals {} (fun _ x => x.restored) s.stands,
    nodes := freshNodes code, mesh := [], routers := [], phases := [], serving := {}, weights := s.weights.restored,
    binary := { s.binary with activate := none, fresh := false, b0 := 0, res := 0 }, mem := s.mem.restored,
    grove := s.grove.restored, rel := s.rel.restored code, sense := s.sense.restored (code = 7) s.power.floor,
    power := s.power.restored code, host := s.host.restored code }
/-- A module reset other than WARM: its cause first, then its reach (R424, R430, R431). -/
def State.coldKind (s : State) (code source detail : Nat) : State := (s.writeCause code source detail).coldParts code

/-! ## Boot (R432, R433) -/

/-- Certificates of a chain: each preceded by its length (Table 14.9); none when one runs past the end. -/
def chainList (b : List Byte) : Nat → Nat → Option (List (List Byte))
  | 0, _ => some []
  | n + 1, o =>
    let l := field b o 4
    if b.length < o + 4 + l then none else (chainList b n (o + 4 + l)).map fun t => slice b (o + 4) l :: t
/-- The certificate chain at an offset: at least one, each one readable. -/
def chainAt (b : List Byte) (o : Nat) : Option (List Config.Cert) :=
  if b.length < o + 4 ∨ b.length < field b o 4 then none
  else match chainList b (field b o 4) (o + 4) with
    | some l => let cs := l.filterMap Config.readCert
      if cs = [] ∨ cs.length ≠ l.length then none else some cs
    | none => none
/-- Each certificate is signed by the one before it and carries the code-signing usage (R433 step 2). -/
def chainSigned : List Config.Cert → Bool
  | a :: b :: t => pssVerify a.spki b.tbs b.sig && b.codeSigning && chainSigned (b :: t)
  | _ => true
/-- Security version of an image. -/
def fwSvn (b : List Byte) : Nat := field b 6 2
/-- First step of R433 that an image fails; a wrong MAGIC, VERSION or length counts as step 1 (log 52). -/
def fwFails (b : List Byte) (floor : Nat) : Option Nat :=
  if b.length < 128 ∨ field b 0 4 ≠ 0x31465746 ∨ field b 4 2 ≠ 1 then some 1
  else match chainAt b (field b 24 8) with
    | none => some 1
    | some cs =>
      match cs.head?, cs.getLast? with
      | some root, some leaf =>
        if !(pssVerify root.spki root.tbs root.sig && Config.rootKeys.contains (sha256 root.spki)) then some 1
        else if !chainSigned cs then some 2
        else if b.length < field b 32 8 + 400 ∨ !sig1By [leaf.spki] (slice b (field b 32 8) 400) (slice b 0 128) then some 3
        else if b.length < 128 + field b 16 8 ∨ sha256 (slice b 128 (field b 16 8)) ≠ slice b 40 32 then some 4
        else if fwSvn b < floor then some 5
        else none
      | _, _ => some 1
/-- Image in slot k. -/
def Power.fw (p : Power) (k : Nat) : List Byte := if k = 0 then p.fwA else p.fwB
/-- Active firmware slot [0x1500:02]. -/
def State.activeSlot (s : State) : Nat := s.setting 0x150002 0
/-- An image refused under R433 is counted (Table 14.16); an empty slot holds none. -/
def State.imageRefused (s : State) (b : List Byte) : State := if b = [] then s else s.count 0x512004
/-- The forester starts from slot k. While the die runs, an image from the other slot is an update of its firmware, with which the forester
bus agent moves to its next incarnation (R326). -/
def State.startImage (s : State) (k : Nat) : State :=
  let s := if 3 ≤ s.power.state ∧ s.power.running ≠ k then s.modNode 5105 fun u => { u with inc := nextInc u.inc } else s
  s.modPower fun p => { p with fwCheck := false, recovery := false, running := k }
/-- The boot ROM verifies the active slot, then the other (R433); with neither the forester stays in ROM recovery and the rails
stay off. -/
def State.bootRom (s : State) : State :=
  if !s.power.fwCheck then s
  else
    let a := s.activeSlot
    match fwFails (s.power.fw a) s.power.fwFloor with
    | none => s.startImage a
    | some k =>
      let s := s.imageRefused (s.power.fw a)
      match fwFails (s.power.fw (1 - a)) s.power.fwFloor with
      | none => (s.startImage (1 - a)).foresterRecord 0x0A05 0
          (leBytes 1 a ++ leBytes 1 k)
      | some _ => (s.imageRefused (s.power.fw (1 - a))).modPower fun p => { p with fwCheck := false, recovery := true, railStep := if p.state = 0 then 0 else p.railStep }

/-! ## Supplies (R416 to R419) -/

/-- VAUX_VALID (R416, R431): a POR; when the BACKUP domain's check fails, counters and last cause are 0 and BKLOST is set. -/
def execVauxValid (backupGood : Bool) (s : State) : Res :=
  if s.power.vaux then .next s
  else
    let s := (s.modPower fun p => { p with vaux := true }).coldKind 1 0 0
    .next (if backupGood then s
      else s.modPower fun p => { p with rings := [], cause := 0x8000, causeBeat := 0, causeWall := 0,
                                        due := p.due ++ [{ cls := 0x0A06, sev := 0, detail := [] }] })
/-- Power-down steps from a sequence step, in descending order. -/
def State.rampDown (s : State) : State :=
  (List.range s.power.railStep).reverse.foldl (fun (s : State) k => s.emit (.sequence (k + 1))) (s.modPower fun p => { p with railStep := 0 })
/-- VAUX_LOSS (R419): rails down in order, or collapsing when the 48 V input fails too; the module is off until VAUX returns. -/
def execVauxLoss (in48Lost : Bool) (s : State) : Res :=
  let s := if in48Lost then s.modPower fun p => { p with railStep := 0 } else s.rampDown
  .next (s.modPower fun p => { p with vaux := false, in48 := p.in48 && !in48Lost, state := 0 })
/-- Sequence step of a rail by its RAILCH (Table 14.1); none: no such rail. -/
def railStepOf (ch : Nat) : Option Nat :=
  if ch = 15 ∨ ch = 14 then some 1 else if ch = 11 ∨ ch = 12 then some 2 else if 1 ≤ ch ∧ ch ≤ 4 then some 3
  else if ch = 6 ∨ ch = 7 then some 4 else if ch = 5 ∨ ch = 8 then some 5 else if ch = 9 ∨ ch = 10 then some 6 else none
/-- The power stages may start: VAUX valid, the forester runs, no three failures in a row, not SCRAPPED (R416, R417, R433, R440). -/
def State.maySequence (s : State) : Bool :=
  s.power.vaux && s.power.state == 0 && !s.power.recovery && s.power.lifecycle != 4 && decide (s.power.seqFails < 3 ∧ s.power.railStep = 0)
/-- Rails raised up to step n. -/
def State.rampUp (s : State) (n : Nat) : State :=
  (List.range n).foldl (fun (s : State) k => s.emit (.sequence (k + 1))) (s.modPower fun p => { p with in48 := true, railStep := n })
/-- A missed window: a BROWNOUT with that rail as detail (R417). -/
def State.sequenceFails (s : State) (step ch : Nat) : State :=
  let n := s.power.seqFails + 1
  ((((s.rampUp step).modPower fun p => { p with seqFails := n }).coldKind 2 11 ch)).foresterRecord 0x0A08 0
    (leBytes 1 step ++ leBytes 1 ch ++ leBytes 1 n)
/-- RAIL_SEQUENCE (R417): 48 V has been stable for 100 ms. -/
def execRailSequence (missed : Option (Fin 16)) (s : State) : Res :=
  let s := s.bootRom
  if !s.maySequence then .next s
  else match missed with
    | none => .next (((s.rampUp 6).modPower fun p => { p with seqFails := 0, state := 1, exitStep := 3 }).due 19)
    | some ch => match railStepOf ch.val with
      | some k => .next (s.sequenceFails k ch.val)
      | none => .next s
/-- BROWNOUT (R418): watched once the sequence is complete; sources 8 to 11 of Table 14.7. -/
def execBrownout (source : Fin 16) (detail : Byte) (s : State) : Res :=
  let c := source.val
  if s.power.railStep = 6 ∧ 8 ≤ c ∧ c ≤ 11 then
    .next ((s.modPower fun p => { p with in48 := decide (c = 11) }).coldKind 2 c (if c = 11 then detail.toNat else 0))
  else .next s

/-! ## VCORE phases and the power limit (R420 to R423) -/

/-- Set the power level, not below the floor of R422 nor above 7; it reaches the throttle (R400). -/
def State.setPower (s : State) (n : Nat) : State :=
  let n := max s.power.floor (min n 7)
  (s.modPower fun p => { p with level := n, levelTick := if n = p.level then p.levelTick else s.time.tick }).applyPower n
/-- Working phases of a quadrant. -/
def State.workingPhases (s : State) (q : Nat) : Nat := ((List.range 17).filter fun i => Tab.get 0 s.power.phases (q * 17 + i) = 0).length
/-- Spare phase of a quadrant. -/
def State.sparePhase (s : State) (q : Nat) : Option Nat := ((List.range 17).map (· + q * 17)).find? fun n => Tab.get 0 s.power.phases n = 1
/-- State of a phase. -/
def State.setPhase (s : State) (n v : Nat) : State := s.modPower fun p => { p with phases := Tab.set 0 p.phases n v }
/-- A quadrant without a spare (R422): 15 working phases ask for level 2, recorded once; fewer stop the module. -/
def State.phaseCheck (s : State) (q : Nat) : State :=
  let n := s.workingPhases q
  let rec' := fun (s : State) => s.record 0x0A02 0 (leBytes 1 q ++ leBytes 1 n) (unit := 0xF100 + q * 17)
  if n < 15 then (rec' s).faultStop 0x0A02
  else if n = 15 ∧ !s.power.noSpare.contains q then
    let s := (rec' (s.modPower fun p => { p with noSpare := p.noSpare ++ [q], floor := 2 })).degrade
    s.setPower s.power.level
  else s
/-- PHASE_FAILED (R421): the phase is turned off, the quadrant's spare brought in. -/
def State.phaseFails (s : State) (n cause : Nat) : State :=
  let q := n / 17
  let was := Tab.get 0 s.power.phases n
  let s := s.setPhase n 2
  let sp := if was = 0 then s.sparePhase q else none
  let s := match sp with
    | some k => s.setPhase k 0
    | none => s
  ((s.count 0x511004).record 0x0A01 2 (leBytes 1 n ++ leBytes 1 cause ++ leBytes 1 (b2n sp.isSome)) (unit := 0xF100 + n)).phaseCheck q
/-- PHASE_FAILED. -/
def execPhaseFailed (n : Fin 68) (cause : Fin 4) (s : State) : Res :=
  if s.power.railStep = 6 ∧ Tab.get 0 s.power.phases n ≠ 2 then .next (s.phaseFails n cause) else .next s
/-- Power limit in mW [0x1200:03]. -/
def State.powerLimit (s : State) : Nat := 1000 * s.setting 0x120003 1500
/-- The power level rises by 1 under a rule of R423: counted and recorded. -/
def State.powerRise (s : State) (rule mw : Nat) : State :=
  if s.power.level = 7 then s
  else
    let n := s.power.level + 1
    ((s.setPower n).count 0x511001).record 0x0A03 3 (leBytes 1 n ++ leBytes 1 rule ++ leBytes 2 (mw / 1000))
/-- 500 us above the limit (R423). -/
def State.powerAbove (s : State) (mw : Nat) : State :=
  if mw ≤ s.powerLimit then s.modPower fun p => { p with aboveSince := none }
  else
    let t := s.power.aboveSince.getD s.time.tick
    if t + us 500 ≤ s.time.tick then (s.modPower fun p => { p with aboveSince := some s.time.tick }).powerRise 1 mw
    else s.modPower fun p => { p with aboveSince := some t }
/-- The mean of the last 1 s, 100,000 samples of 10 us, above the limit (R423, log 108). -/
def State.powerMean (s : State) (mw : Nat) : State :=
  if s.power.samples.sum ≤ 100000 * s.powerLimit then s.modPower fun p => { p with lastSRise := none }
  else match s.power.lastSRise with
    | some t => if s.time.tick < t + ms 10 then s
      else (s.modPower fun p => { p with lastSRise := some s.time.tick }).powerRise 2 mw
    | none => (s.modPower fun p => { p with lastSRise := some s.time.tick }).powerRise 2 mw
/-- The level falls after 10 ms below 0.95 of the limit (R423). -/
def State.powerFall (s : State) (mw : Nat) : State :=
  if 20 * mw < 19 * s.powerLimit then
    let t := s.power.lowSince.getD s.time.tick
    let s := s.modPower fun p => { p with lowSince := some t }
    if t + ms 10 ≤ s.time.tick ∧ s.power.levelTick + ms 10 ≤ s.time.tick ∧ 0 < s.power.level then s.setPower (s.power.level - 1) else s
  else s.modPower fun p => { p with lowSince := none }
/-- Energy of a sample of 10 us; whole joules are counted (Table 14.16). -/
def State.addEnergy (s : State) (mw : Nat) : State :=
  let e := s.power.energy + mw
  (s.modPower fun p => { p with energy := e % 100000000, samples := mw :: p.samples.take 99999 }).count 0x511003 (e / 100000000)
/-- POWER_SAMPLE (R423). -/
def execPowerSample (milliwatts : Nat) (s : State) : Res :=
  if s.power.railStep = 6 then
    let s := s.addEnergy milliwatts
    let s := if 10 * milliwatts > 11 * s.powerLimit then s.powerRise 0 milliwatts else s
    .next (((s.powerAbove milliwatts).powerMean milliwatts).powerFall milliwatts)
  else .next s

/-! ## Module resets (R424 to R429) -/

/-- COLD, from a source of Table 14.7. -/
def State.coldReset (s : State) (source : Nat) : State := s.coldKind 3 source 0
/-- COLD_RESET (R424): RESET_N, the reset command, PERST_N, a lifecycle transition (a command). -/
def execColdReset (source : Fin 16) (s : State) : Res :=
  if s.power.vaux ∧ 1 ≤ source.val ∧ source.val ≤ 3 then
    .next (if source.val = 2 then (s.coldReset 2).cmdResult (some 2) 0 else s.coldReset source)
  else .next s
/-- WARM is accepted (R426). -/
def State.warmOk (s : State) : Bool := s.power.state == 3 && s.rel.health != 2 && s.rel.health != 3
/-- Arrays under WARM: banks that were being written are EMPTY (R59). -/
def State.warmArrays (s : State) : State :=
  (s.mapCores fun _ c => { c with bankA := c.bankA.restored, bankB := c.bankB.restored, lastMismatch := 0 }).modWeights fun w =>
    { w with shards := Tab.mapVals {} (fun _ h => if h.st = .writing then { h with st := .arrived, done := 0 } else h) w.shards }
/-- Results and commit beats that entries with default 0 report, neither persistent nor kept on WARM, return to 0 (R15). -/
def State.warmResults (s : State) : State :=
  let s := s.modWeights fun w => { w with wres := 0, ares := 0 }
  { s with binary := { s.binary with res := 0 }, power := { s.power with upRes := 0 }, sense := { s.sense with adcCommit := 0 } }
/-- A node takes part in a WARM reset (Table 14.4). -/
def warmNode (n : Nat) : Bool := decide (n < 5000 ∨ (5088 ≤ n ∧ n < 5102) ∨ n = servingNode)
/-- An arbiter under WARM: 88 to 92 are reset; the others run on, but a sequence whose owner is reset ends, and its owner holds no grant
any more (Tables 10.9, 14.4). -/
def warmArbiter (a : Nat) (x : Arbiter) : Arbiter :=
  if 88 ≤ a then { stats := x.stats }
  else if x.lock.any fun l => warmNode l.2.1 then { x with lock := none, holder := none } else x
/-- The NV write engines and repair sequencers behind arbiters 88 and 89 move to their next incarnations (R326). -/
def State.warmEngines (s : State) : State :=
  [88, 89].foldl (fun s a => (List.range (requesters a)).foldl (fun s r => s.engineReset a r) s) s
/-- Units that a WARM reset resets (Table 14.4): stands, serving engine, port transport, arbiters 88 to 92, routers; snapshots of
Recount are discarded (R463). -/
def State.warmParts (s : State) : State :=
  let s := allStands.foldl (fun s st => (s.resetStand st 4 false).coppiceRestart st) s
  let s := (List.range 14).foldl (fun s p => s.resetPort p 4 false) s.warmArrays.dropVolatile
  let s := s.modNode servingNode fun u => { u with cause := 4 }
  let s := s.warmResults.warmEngines
  let s := { s with mem := { s.mem with arbs := Tab.mapVals {} warmArbiter s.mem.arbs }, routers := [],
                    host := { s.host with snapshots := [] } }
  s.modServing fun v => { v with suspendDue := true }
/-- WARM (R426): the running beat is cut, launches are withheld until the first boundary. -/
def State.warmReset (s : State) (source : Nat) : State :=
  let wait := decide (1 ≤ s.sense.stop)
  let s := (s.writeCause 4 source 0).warmParts
  { s with
    time := { s.time with launchDue := false, hazardStop := false, frozen := false, originDue := true, resumeWait := wait || s.time.resumeWait },
    sense := { s.sense with stop := 0, stopBoundary := none },
    power := { s.power with state := 4 } }.due 19
/-- WARM on request: refused with result 0x01, merged into a running one (R426, R429). -/
def State.warmRequest (s : State) (source : Nat) : State :=
  let res := fun (s : State) (c : Nat) => if source = 2 then s.cmdResult (some 1) c else s
  if s.power.state = 4 then res s 0 else if s.warmOk then res (s.warmReset source) 0 else res s 1
/-- WARM_RESET: by the reset command or PERST_N (Table 14.3). -/
def execWarmReset (source : Fin 16) (s : State) : Res :=
  if source.val = 2 ∨ source.val = 3 then .next (s.warmRequest source) else .next s

/-! ## UNIT resets and PERST_N (R427, R428) -/

/-- The CXL controller takes a UNIT reset: the link goes down, the window and the mailbox with it (R427, R449, log 54). -/
def State.cxlReset (s : State) : State :=
  let s := if s.host.linkSt = 2 then s.count 0x52900A else s
  let s := { s with host := { s.host with linkSt := 3, memen := false, msixen := false, mbirq := false,
                                          msixMask := 0xFFFFFFFF, msixPend := 0 } }
  (s.leave 5104 5 true).count 0x512002
/-- UNIT reset of a node. -/
def State.unitReset (s : State) (node : Nat) : State :=
  if node = 5104 then s.cxlReset else ((s.parkedAway node).resetUnit node 5).count 0x512002
/-- Result code of the unit reset command (R428): the forester bus agent, and the serving engine while not STOPPED, are refused. -/
def State.unitResetCode (s : State) (node : Nat) : Nat :=
  if 5106 < node then 5 else if !s.powered ∨ node = 5105 then 1 else if node = 5106 ∧ s.serving.state ≠ 0 then 2 else 0
/-- The unit reset command; a stand that a WARM resets is absorbed into it (R429). -/
def State.unitResetCmd (s : State) (node : Nat) : State :=
  let c := s.unitResetCode node
  if c ≠ 0 then s.cmdResult none c
  else if node < 5000 ∧ s.power.state = 4 then s.cmdResult none 0
  else (s.unitReset node).cmdResult none 0
/-- UNIT_RESET_COMMAND (R428). -/
def execUnitResetCommand (node : BitVec 16) (s : State) : Res := .next (s.unitResetCmd node.toNat)
/-- PERST_N or a link-down (R427, R429), under the policy [0x1100:09]. -/
def execPerstN (s : State) : Res :=
  if s.powered then
    let s := s.count 0x512003
    let pol := s.setting 0x110009 0
    .next (if pol = 2 then s.coldReset 3
      else if pol = 1 ∧ (s.warmOk ∨ s.power.state = 4) then s.warmRequest 3
      else s.cxlReset)
  else .next s

/-! ## FATAL, escalated WATCHDOG, THERMAL_TRIP (R424, R405) -/

/-- FATAL_RESET: a PLL lost lock (source 5), or both copies of a record failed (source 6). -/
def execFatalReset (source : Fin 16) (detail : Byte) (s : State) : Res :=
  if source.val = 5 ∧ s.powered then .next (s.coldKind 8 5 detail.toNat)
  else if source.val = 6 ∧ s.power.vaux then .next (s.coldKind 8 6 0)
  else .next s
/-- FATAL_DELAY_EXPIRY: a fault stop has lasted the fatal delay [0x1100:08] under fatal policy 1 [0x1100:07]. -/
def execFatalDelayExpiry (s : State) : Res :=
  if s.rel.health = 2 ∧ s.setting 0x110007 0 = 1 ∧ s.rel.fsTick + sec (s.setting 0x110008 60) ≤ s.time.tick then
    .next (s.coldKind 8 7 0)
  else .next s
/-- ESCALATED_WATCHDOG: three forester restarts within 60 s. -/
def execEscalatedWatchdog (s : State) : Res :=
  if 3 ≤ (s.rel.restartTicks.filter fun t => decide (s.time.tick < t + sec 60)).length then .next (s.coldKind 6 4 0) else .next s
/-- THERMAL_TRIP (R405): THERMTRIP_N is asserted, rails off, HELD; the record follows after the reset. -/
def execThermalTrip (comparator : Fin 16) (s : State) : Res :=
  let s := s.coldKind 7 12 comparator.val
  .next (s.modPower fun p => { p with due := p.due ++ [{ cls := 0x0904, sev := 1, detail := leBytes 1 comparator.val }] })

/-! ## Exit from a cold start (R425, R380) -/

/-- A spare of Table 12.6 covers a failure of the boot self-test, UNIT, SUB and slice kind (R380): a core while core 16 is free and no
other core of the stand fails, core 16 while it is not in use, a bank with a spare row, a link that its wire test leaves usable. -/
def State.bootCovers (s : State) (fs : List (BitVec 16 × Byte × Byte)) (f : BitVec 16 × Byte × Byte) : Bool :=
  let st := f.1.toNat
  let x := s.stand st
  decide (st < 5000) && match sliceOf f.2.2.toNat f.2.1.toNat with
    | some (.core c) =>
      if c = 16 then !x.svc.valid && x.pairA.isNone && x.pairB.isNone
      else decide (s.spareState st = 0) && !fs.any fun g => g.1 = f.1 ∧ g.2.2 = 0 ∧ g.2.1 ≠ f.2.1
    | some (.spad b) => !(x.bank b).noSpare
    | some (.link d) =>
      if d.val < 4 then decide ((s.link st d).width < 2)
      else d.val = 6 && decide ((s.seam (grow st) (decide (2500 ≤ st))).width < 2)
    | _ => false
/-- What the boot self-test leaves uncovered: of the failures it lists, those without a spare, and the links that failed (R380). -/
def State.bootUncovered (s : State) (fs : List (BitVec 16 × Byte × Byte)) : List (BitVec 16 × Byte × Byte) :=
  fs.filter (fun f => !s.bootCovers fs f) ++
    ((s.links.filter fun e => e.2.width = 2).map fun e => (BitVec.ofNat 16 (e.1 / 8), BitVec.ofNat 8 (e.1 % 8), 3)) ++
    (s.seams.filter fun e => e.2.width = 2).map fun e => (BitVec.ofNat 16 (seamRouter (e.1 / 2) (e.1 % 2 == 1)), 6, 3)
/-- A covered failure is repaired as after a failed slice (Table 12.4); its step and the row it shows are free (log 46). -/
def State.bootRepair (s : State) (f : BitVec 16 × Byte × Byte) : State :=
  let n := Config.freeNat s.freeCtr
  let s := ({ s with freeCtr := s.freeCtr + 1 } : State).count 0x521003
  let s := s.record 0x0106 0 (f.2.2 :: leBytes 1 (n / 32 % 32) ++ [0]) (unit := f.1.toNat) (sub := f.2.1.toNat)
  match sliceOf f.2.2.toNat f.2.1.toNat with
  | some (.link _) | none => s
  | some k => s.sliceFails f.1.toNat k n
/-- Boot self-test with uncovered failures (R380): the die stays in reset. -/
def State.bootFails (s : State) (fs : List (BitVec 16 × Byte × Byte)) : State :=
  let s := { s with rel := { s.rel with health := 3, uncovered := fs.take 64 } }
  ((s.modPower fun p => { p with state := 2, exitStep := 4 }).record 0x0803 1 (leBytes 1 (min 255 fs.length))).due 20
/-- Step 5: calibration due for the converters and every quadrant (R406, R409). -/
def State.bootCalibration (s : State) : State :=
  (List.range 4).foldl State.quadRun { s with sense := { s.sense with adcRunDue := true } }
/-- Step 6: master areas, shards and coppicings (R295, Table 12.7). -/
def State.bootWeights (s : State) : State :=
  allStands.foldl State.coppiceRestart s.rebuildAreas
/-- Step 8: RUNNING; the records that waited are logged, then the RESET record. -/
def State.bootDone (s : State) : State :=
  let due := s.power.due
  let s := s.modPower fun p => { p with state := 3, exitStep := 8, due := [] }
  let s := (due.foldl State.log s).resetRecord
  (if s.power.noSpare = [] then s else s.degrade).due 19
/-- Step 7: the current binary is verified again (R434, R435) and made current, unless its LAYOUT_ID differs from the computing bank's
(R190); one that fails leaves the module at this step. -/
def State.bootBinary (s : State) : State :=
  match s.binary.current with
  | none => s.bootDone
  | some b =>
    if s.conSigned b && conChecked b (s.power.debug == 1) then (if s.layoutFits b then s.makeCurrent b else s).bootDone
    else (s.modPower fun p => { p with state := 2, exitStep := 7 }).count 0x512004
/-- COLD_EXIT (R425): rails up and the forester running; `failures`: the failures of the boot self-test (R380), those of the links
come with their wire tests. -/
def execColdExit (failures : List (BitVec 16 × Byte × Byte)) (s : State) : Res :=
  let s := s.bootRom
  if !s.power.vaux ∨ s.power.recovery ∨ s.power.railStep ≠ 6 ∨ 1 < s.power.state ∨ s.power.lifecycle = 4 then .next s
  else if s.bootUncovered failures ≠ [] then .next (s.bootFails (s.bootUncovered failures))
  else .next (((failures.foldl State.bootRepair s).modPower fun p => { p with state := 2 }).bootCalibration.bootWeights.bootBinary)

/-! ## Floor, owner keys, DEBUG (R434, R436, R441) -/

/-- The running image; none in ROM recovery. -/
def State.runningImage (s : State) : Option (List Byte) :=
  if s.power.recovery ∨ s.power.fwCheck then none else some (s.power.fw s.power.running)
/-- FLOOR_COMMAND (R434): the floor never falls. -/
def State.raiseFloor (s : State) (svn : Nat) : State :=
  match s.runningImage with
  | none => s.cmdResult none 1
  | some b =>
    if 64 < svn ∨ fwSvn b < svn then s.cmdResult none 5
    else if s.power.running ≠ s.activeSlot then s.cmdResult none 1
    else (s.modPower fun p => { p with fwFloor := max p.fwFloor svn }).cmdResult none 0
/-- FLOOR_COMMAND. -/
def execFloorCommand (svn : Byte) (s : State) : Res := .next (s.bootRom.raiseFloor svn.toNat)
/-- Owner key slot k, 0 to 3 (R436). -/
def State.ownerSlot (s : State) (k : Nat) : List Byte := s.octet (entryKey 0x1510 (k + 1)) 422
/-- Content of an owner key slot: zeros, or an RSA-3072 key with exponent 65,537 (R436). -/
def keyForm (k : List Byte) : Bool := k.length == 422 && (k.all (· = 0) || decide ((rsaKey k).2 = 65537))
/-- Keys enrolled in slots other than k. -/
def State.otherKeys (s : State) (k : Nat) : List (List Byte) :=
  (((List.range 4).filter fun j => j ≠ k).map s.ownerSlot).filter fun x => !x.all (· = 0)
/-- Reserved bytes of an image header or of its SIG1 block are not 0 (R16, Table 14.9, R188). -/
def imageReserved (b : List Byte) : Bool := !(zeros b 72 56 && zeros b (field b 32 8 + 6) 2)
/-- Reserved bytes of an owner key command, those of its SIG1 block among them, are not 0 (R16, R188). -/
def ownerReserved (b : List Byte) : Bool := !(zeros b 1 7 && zeros b 430 2 && zeros b 438 2)
/-- Result of the owner key command (R436): signed by a key of another slot over the command and the serial number. -/
def State.ownerKeyCode (s : State) (b : List Byte) : Nat :=
  let k := field b 0 1
  let key := slice b 8 422
  if s.power.lifecycle ≠ 2 then 1
  else if 3 < k ∨ !keyForm key ∨ b.length ≠ 832 ∨ ownerReserved b then 5
  else if !sig1By (s.otherKeys k) (slice b 432 400) (slice b 0 432 ++ leBytes 8 Config.serialNumber.toNat) then 6
  else if s.otherKeys k = [] ∧ key.all (· = 0) then 1
  else 0
/-- OWNER_KEY_COMMAND (R436). -/
def State.ownerKey (s : State) (b : List Byte) : State :=
  let c := s.ownerKeyCode b
  if c ≠ 0 then s.cmdResult none c
  else (s.putOctet (entryKey 0x1510 (field b 0 1 + 1)) (slice b 8 422)).cmdResult none 0
/-- OWNER_KEY_COMMAND. -/
def execOwnerKeyCommand (block : List Byte) (s : State) : Res := .next (s.ownerKey block)
/-- DEBUG may be written (R441). -/
def State.debugGate (s : State) : Bool := s.power.lifecycle == 0 || s.power.lifecycle == 1 || s.power.lifecycle == 3
/-- DEBUG_FLAG_WRITE (R441): effective at the next COLD reset. -/
def execDebugFlagWrite (value : Byte) (s : State) : Res :=
  if s.debugGate ∧ value.toNat < 2 then .next (s.modPower fun p => { p with debugNext := value.toNat }) else .next s

/-! ## Lifecycle (R440) -/

/-- A transition of Table 14.13: Llynnik authorisation, erase. -/
def transition (a b : Nat) : Option (Bool × Bool) :=
  if a = 0 ∧ b = 1 then some (true, false)
  else if a = 1 ∧ b = 2 then some (false, false)
  else if (a = 1 ∨ a = 2) ∧ b = 3 then some (false, true)
  else if a = 3 ∧ b = 1 then some (true, false)
  else if a < 4 ∧ b = 4 then some (false, true)
  else none
/-- Command block of a transition. -/
def lifecycleBlock (target : Nat) (serial : DWord) : List Byte := leBytes 1 target ++ List.replicate 7 0 ++ leBytes 8 serial.toNat
/-- Zero write of a bank: it holds no version and its wear rises (R378). -/
def ABank.erased (k : ABank) : ABank := { rewrites := k.rewrites + 1, stuck0 := k.stuck0, stuck1 := k.stuck1 }
/-- The erase (R440): arrays zero, master areas, binary store and owner keys gone, installation record empty. Fences and repairs
stay. -/
def State.eraseAll (s : State) : State :=
  let old := s
  let s := s.allCores fun c => { bankA := c.bankA.erased, bankB := c.bankB.erased, fenced := c.fenced }
  let s := (s.emptyArea false).emptyArea true
  let s := { s with weights := {}, binary := {}, stands := Tab.mapVals {} (fun _ x => { x with pairA := none, pairB := none, coppice := none }) s.stands }
  let s := { s with octets := Tab.clear s.octets fun k => decide (entryKey 0x1510 1 ≤ k ∧ k ≤ entryKey 0x1510 4) }
  (List.range 85000).foldl (fun s n => [false, true].foldl (fun s b =>
    s.wearNote (n / 17) (n % 17) b ((old.core (n / 17) (n % 17)).bank b).rewrites) s) s
/-- Result code of the lifecycle command (R440), the erase apart. -/
def State.lifecycleCode (s : State) (target : Nat) (serial : DWord) : Nat :=
  match transition s.power.lifecycle target with
  | none => 1
  | some (llynnik, erase) =>
    if serial ≠ Config.serialNumber then 5
    else if s.serving.state ≠ 0 then 2
    else if s.power.state ≠ 3 ∧ s.power.state ≠ 0 then 1
    else if llynnik ∧ !sig1By Config.lifecycleKeys (s.octet (entryKey 0x1010 2) 400) (lifecycleBlock target serial) then 6
    else if target = 1 ∧ Config.certChain = [] then 1
    else if target = 2 ∧ s.ownerKeys = [] then 1
    else if erase ∧ s.power.state = 0 ∧ !(s.power.in48 && s.power.vaux) then 1
    else 0
/-- A refused transition: its result and an error record, of the class LIFECYCLE (log 53). -/
def State.lifecycleRefused (s : State) (target code : Nat) : State :=
  (s.foresterRecord 0x0A07 3 (leBytes 1 s.power.lifecycle ++ leBytes 1 target)).cmdResult none code
/-- What a transition leaves (Table 14.13). A record that a COLD reset would lose is logged after the exit. -/
def State.lifecycleGo (s : State) (target : Nat) (erase : Bool) : State :=
  let detail := leBytes 1 s.power.lifecycle ++ leBytes 1 target
  let s := if erase then s.eraseAll else s
  let s := s.modPower fun p => { p with lifecycle := target, debugNext := if target = 1 then 0 else p.debugNext }
  if target = 2 then (s.foresterRecord 0x0A07 3 detail).cmdResult none 0
  else if target = 4 then
    let s := s.foresterRecord 0x0A07 3 detail
    let s := State.flushRecords s.rel.collector.length s
    ((s.modPower fun p => { p with deviceKey := false, scrapFuse := true, state := 0 }).rampDown).cmdResult none 0
  else ((s.modPower fun p => { p with due := p.due ++ [{ cls := 0x0A07, sev := 3, detail := detail }] }).coldReset 2).cmdResult none 0
/-- LIFECYCLE_COMMAND (R440): `erased`: every array bank and both master areas were written and read back as zeros. -/
def State.lifecycleCmd (s : State) (target : Nat) (serial : DWord) (erased : Bool) : State :=
  let c := s.lifecycleCode target serial
  let erase : Bool := match transition s.power.lifecycle target with | some e => e.2 | none => false
  if c ≠ 0 then s.lifecycleRefused target c
  else if erase ∧ !erased then s.lifecycleRefused target 1
  else s.lifecycleGo target erase
/-- LIFECYCLE_COMMAND. -/
def execLifecycleCommand (target : Byte) (serial : DWord) (erased : Bool) (s : State) : Res :=
  .next (s.lifecycleCmd target.toNat serial erased)

end Sys2Proof.Machine
end

