-- ==== Sys2Proof/Machine/Spdm.lean ====
section
/-! DEFINITION. The SPDM 1.2 responder (14 R438, R439). The layouts of its messages are those of DSP0274, which the spec names
(PRESUMED, log 50). -/

namespace Sys2Proof.Machine

/-! ## Paths (R458, Table 15.7) -/

/-- A canopy port is UP. -/
def State.canopyUp (s : State) : Bool := (s.port 12).st == 3 || (s.port 13).st == 3
/-- A path reaches the forester. -/
def State.pathUp (s : State) (p : MPath) : Bool :=
  s.power.vaux && match p with
  | .i3c => true
  | .mailbox => s.host.linkSt == 2 && s.power.state != 0
  | .vlan => s.powered && s.canopyUp
/-- The forester answers SPDM: not in ROM recovery (R433), not in SCRAPPED (R440). -/
def State.spdmUp (s : State) (p : MPath) : Bool := s.pathUp p && !s.power.recovery && s.power.lifecycle != 4

/-! ## Measurements (R439, Table 14.12) -/

/-- 32 zero bytes. -/
def zeros32 : List Byte := List.replicate 32 0
/-- Header digest of the current container [0x2350:02]. -/
def State.binaryDigest (s : State) : List Byte := match s.binary.current with | some b => sha256 (slice b 0 256) | none => zeros32
/-- Digest over the DIGEST fields of the shards of the given banks, stand by stand, bank A's before bank B's (log 55). -/
def State.shardsDigest (s : State) (bs : List Bool) : List Byte :=
  sha256 (allStands.flatMap fun st => bs.flatMap fun b => slice (s.shard b st).hdr 224 32)
/-- Block 4: the current version. -/
def State.currentDigest (s : State) : List Byte :=
  if s.weights.current = 0 then zeros32 else s.shardsDigest (if s.weights.capmode then [false, true] else [s.weights.ptrB])
/-- Block 5: the version in the other bank. -/
def State.otherDigest (s : State) : List Byte :=
  if s.weights.capmode ∨ (s.version (!s.weights.ptrB)).epoch = 0 then zeros32 else s.shardsDigest [!s.weights.ptrB]
/-- Content of block i, 1 to 7, and whether it is raw. -/
def State.measurement (s : State) (i : Nat) : Bool × List Byte :=
  let p := s.power
  match i with
  | 1 => (false, sha256 (slice (s.runningImage.getD []) 0 128))
  | 2 => (true, leBytes 2 (fwSvn (s.runningImage.getD [])) ++ leBytes 1 p.fwFloor ++ leBytes 1 p.lifecycle ++ leBytes 1 p.debugNext ++
      leBytes 1 s.activeSlot ++ List.replicate 10 0)
  | 3 => (false, s.binaryDigest)
  | 4 => (false, s.currentDigest)
  | 5 => (false, s.otherDigest)
  | 6 => (true, leBytes 4 s.weights.current ++ leBytes 8 s.computing.layoutId.toNat)
  | _ => (false, sha256 ((List.range 4).flatMap s.ownerSlot))
/-- A measurement block. -/
def State.measBlock (s : State) (i : Nat) : List Byte :=
  let m := s.measurement i
  let v := leBytes 1 (b2n m.1 * 128 + Config.measKind i % 128) ++ leBytes 2 m.2.length ++ m.2
  leBytes 1 i ++ leBytes 1 1 ++ leBytes 2 v.length ++ v

/-! ## Messages -/

/-- The certificate chain of slot 0: length, root digest, certificates. -/
def spdmChain : List Byte :=
  let cs := (chainList Config.certChain (field Config.certChain 0 4) 4).getD []
  let body := sha256 (cs.headD []) ++ cs.flatten
  leBytes 4 (4 + body.length) ++ body
/-- Send an answer; on the mailbox it completes the command (R459). -/
def State.spdmSay (s : State) (p : MPath) (m : List Byte) : State :=
  match p with
  | .mailbox => s.mailboxDone 0 ([1, 5, 0, 0] ++ m)
  | p => s.emit (.spdm p m)
/-- ERROR with a code and data. -/
def spdmError (code data : Nat) : List Byte := [0x12, 0x7F] ++ leBytes 1 code ++ leBytes 1 data
/-- An ERROR answer. -/
def State.spdmFail (s : State) (p : MPath) (code data : Nat) : State := s.spdmSay p (spdmError code data)
/-- Free bytes (log 9). -/
def State.freshBytes (s : State) (n : Nat) : List Byte × State :=
  ((List.range n).map fun i => Config.freeByte (s.freeCtr + i), { s with freeCtr := s.freeCtr + n })
/-- Signature of the device key over a transcript, with its context string (DSP0274 1.2). -/
def State.spdmSign (s : State) (context : List Byte) (transcript : List Byte) : List Byte × State :=
  let pre : List Byte := [0x64, 0x6D, 0x74, 0x66, 0x2D, 0x73, 0x70, 0x64, 0x6D, 0x2D, 0x76, 0x31, 0x2E, 0x32, 0x2E, 0x2A]
  let m := pre ++ pre ++ pre ++ pre ++ List.replicate (36 - context.length) 0 ++ context ++ sha256 transcript
  (Config.deviceSign s.power.salt m, s.modPower fun p => { p with salt := p.salt + 1 })
/-- Context of CHALLENGE_AUTH: responder-challenge_auth signing. -/
def ctxChallenge : List Byte :=
  [0x72, 0x65, 0x73, 0x70, 0x6F, 0x6E, 0x64, 0x65, 0x72, 0x2D, 0x63, 0x68, 0x61, 0x6C, 0x6C, 0x65] ++
  [0x6E, 0x67, 0x65, 0x5F, 0x61, 0x75, 0x74, 0x68, 0x20, 0x73, 0x69, 0x67, 0x6E, 0x69, 0x6E, 0x67]
/-- Context of MEASUREMENTS: responder-measurements signing. -/
def ctxMeasure : List Byte :=
  [0x72, 0x65, 0x73, 0x70, 0x6F, 0x6E, 0x64, 0x65, 0x72, 0x2D, 0x6D, 0x65, 0x61, 0x73, 0x75, 0x72] ++
  [0x65, 0x6D, 0x65, 0x6E, 0x74, 0x73, 0x20, 0x73, 0x69, 0x67, 0x6E, 0x69, 0x6E, 0x67]
/-- The common checks of a request after negotiation: version and stage. -/
def State.spdmReady (s : State) (req : List Byte) : Option Nat :=
  if field req 0 1 ≠ 0x12 then some 0x41 else if !s.power.spdmAlgs then some 4 else none

/-- GET_VERSION (R438): version 1.2; the negotiation starts again. -/
def State.spdmVersion (s : State) (p : MPath) (req : List Byte) : State :=
  let ans : List Byte := [0x10, 0x04, 0, 0, 0, 1, 0x00, 0x12]
  (s.modPower fun w => { w with spdmVersion := true, spdmCaps := false, spdmAlgs := false, spdmA := req ++ ans, spdmB := [], spdmL := [] }).spdmSay
    p ans
/-- GET_VERSION. -/
def execGetVersion (path : MPath) (req : List Byte) (s : State) : Res :=
  if s.spdmUp path then .next (s.spdmVersion path req) else .next s
/-- GET_CAPABILITIES (Table 14.11): certificates, challenge, measurements with signature; messages of at most 4,096 bytes. -/
def State.spdmCaps (s : State) (p : MPath) (req : List Byte) : State :=
  if field req 0 1 ≠ 0x12 then s.spdmFail p 0x41 0
  else if !s.power.spdmVersion ∨ s.power.spdmCaps then s.spdmFail p 4 0
  else
    let ans : List Byte := [0x12, 0x61, 0, 0, 0, Config.spdmCtExponent, 0, 0] ++ leBytes 4 0x16 ++ leBytes 4 4096 ++ leBytes 4 4096
    (s.modPower fun w => { w with spdmCaps := true, spdmA := w.spdmA ++ req ++ ans }).spdmSay p ans
/-- GET_CAPABILITIES. -/
def execGetCapabilities (path : MPath) (req : List Byte) (s : State) : Res :=
  if s.spdmUp path then .next (s.spdmCaps path req) else .next s
/-- NEGOTIATE_ALGORITHMS (Table 14.11): what both sides know of RSASSA-PSS 3072, SHA-256 and the DMTF specification. -/
def State.spdmAlgs (s : State) (p : MPath) (req : List Byte) : State :=
  if field req 0 1 ≠ 0x12 then s.spdmFail p 0x41 0
  else if !s.power.spdmCaps ∨ s.power.spdmAlgs then s.spdmFail p 4 0
  else if req.length < 32 then s.spdmFail p 1 0
  else
    let spec := field req 6 1 % 2
    let asym := bits (field req 8 4) 3 3 * 8
    let hash := field req 12 4 % 2
    let ans : List Byte := [0x12, 0x63, 0, 0] ++ leBytes 2 36 ++ leBytes 1 spec ++ [0] ++ leBytes 4 (2 * spec) ++ leBytes 4 asym ++
      leBytes 4 hash ++ List.replicate 16 0
    (s.modPower fun w => { w with spdmAlgs := true, spdmA := w.spdmA ++ req ++ ans }).spdmSay p ans
/-- NEGOTIATE_ALGORITHMS. -/
def execNegotiateAlgorithms (path : MPath) (req : List Byte) (s : State) : Res :=
  if s.spdmUp path then .next (s.spdmAlgs path req) else .next s
/-- GET_DIGESTS: slot 0. -/
def State.spdmDigests (s : State) (p : MPath) (req : List Byte) : State :=
  match s.spdmReady req with
  | some c => s.spdmFail p c 0
  | none =>
    let ans : List Byte := [0x12, 0x01, 0, 1] ++ sha256 spdmChain
    (s.modPower fun w => { w with spdmB := w.spdmB ++ req ++ ans, spdmL := [] }).spdmSay p ans
/-- GET_DIGESTS. -/
def execGetDigests (path : MPath) (req : List Byte) (s : State) : Res :=
  if s.spdmUp path then .next (s.spdmDigests path req) else .next s
/-- GET_CERTIFICATE: a portion of the chain of slot 0. -/
def State.spdmCertificate (s : State) (p : MPath) (req : List Byte) : State :=
  match s.spdmReady req with
  | some c => s.spdmFail p c 0
  | none =>
    let off := field req 4 2
    if req.length < 8 ∨ field req 2 1 % 16 ≠ 0 ∨ spdmChain.length ≤ off then s.spdmFail p 1 0
    else
      let n := min (min (field req 6 2) 4088) (spdmChain.length - off)
      let ans : List Byte := [0x12, 0x02, 0, 0] ++ leBytes 2 n ++ leBytes 2 (spdmChain.length - off - n) ++ slice spdmChain off n
      (s.modPower fun w => { w with spdmB := w.spdmB ++ req ++ ans, spdmL := [] }).spdmSay p ans
/-- GET_CERTIFICATE. -/
def execGetCertificate (path : MPath) (req : List Byte) (s : State) : Res :=
  if s.spdmUp path then .next (s.spdmCertificate path req) else .next s
/-- Measurement summary of CHALLENGE_AUTH: none asked for, or the digest of every block. -/
def State.measSummary (s : State) (kind : Nat) : List Byte :=
  if kind = 0 then [] else sha256 ((List.range 7).flatMap fun i => s.measBlock (i + 1))
/-- CHALLENGE: answered with a signature by the device key over the transcript. -/
def State.spdmChallenge (s : State) (p : MPath) (req : List Byte) : State :=
  match s.spdmReady req with
  | some c => s.spdmFail p c 0
  | none =>
    if req.length < 36 ∨ field req 2 1 ≠ 0 then s.spdmFail p 1 0
    else
      let r := s.freshBytes 32
      let s := r.2
      let ans : List Byte := [0x12, 0x03, 0, 1] ++ sha256 spdmChain ++ r.1 ++ s.measSummary (field req 3 1) ++ [0, 0]
      let q := s.spdmSign ctxChallenge (s.power.spdmA ++ s.power.spdmB ++ req ++ ans)
      (q.2.modPower fun w => { w with spdmB := [], spdmL := [] }).spdmSay p (ans ++ q.1)
/-- CHALLENGE. -/
def execChallenge (path : MPath) (req : List Byte) (s : State) : Res :=
  if s.spdmUp path then .next (s.spdmChallenge path req) else .next s
/-- Blocks that a GET_MEASUREMENTS asks for; none: no such block. -/
def measWanted (op : Nat) : Option (List Nat) :=
  if op = 0 then some [] else if op = 255 then some [1, 2, 3, 4, 5, 6, 7] else if op ≤ 7 then some [op] else none
/-- GET_MEASUREMENTS (R439): the blocks, read now, and a signature when it is asked for. -/
def State.spdmMeasure (s : State) (p : MPath) (req : List Byte) : State :=
  match s.spdmReady req with
  | some c => s.spdmFail p c 0
  | none =>
    let signed := bit (field req 2 1) 0
    let op := field req 3 1
    match measWanted op with
    | none => s.spdmFail p 1 0
    | some l =>
      if signed ∧ (req.length < 37 ∨ field req 36 1 % 16 ≠ 0) then s.spdmFail p 1 0
      else
        let rec' := l.flatMap s.measBlock
        let r := s.freshBytes 32
        let s := r.2
        let ans : List Byte := [0x12, 0x60] ++ leBytes 1 (if op = 0 then 7 else 0) ++ [0] ++ leBytes 1 l.length ++
          leBytes 3 rec'.length ++ rec' ++ r.1 ++ [0, 0]
        let tr := s.power.spdmL ++ req ++ ans
        if signed then
          let q := s.spdmSign ctxMeasure (s.power.spdmA ++ tr)
          (q.2.modPower fun w => { w with spdmL := [] }).spdmSay p (ans ++ q.1)
        else (s.modPower fun w => { w with spdmL := tr }).spdmSay p ans
/-- GET_MEASUREMENTS. -/
def execGetMeasurements (path : MPath) (req : List Byte) (s : State) : Res :=
  if s.spdmUp path then .next (s.spdmMeasure path req) else .next s
/-- SPDM_UNSUPPORTED_REQUEST (R438). -/
def execSpdmUnsupportedRequest (path : MPath) (req : List Byte) (s : State) : Res :=
  if s.spdmUp path then .next (s.spdmFail path 7 (field req 1 1)) else .next s
/-- An SPDM request by its code (Table 14.11). -/
def State.spdmRequest (s : State) (p : MPath) (req : List Byte) : State :=
  if !s.spdmUp p then s
  else match field req 1 1 with
    | 0x84 => s.spdmVersion p req
    | 0xE1 => s.spdmCaps p req
    | 0xE3 => s.spdmAlgs p req
    | 0x81 => s.spdmDigests p req
    | 0x82 => s.spdmCertificate p req
    | 0x83 => s.spdmChallenge p req
    | 0xE0 => s.spdmMeasure p req
    | c => s.spdmFail p 7 c

end Sys2Proof.Machine
end

