-- ==== Sys2Proof/Machine/Values.lean ====
section
/-! DEFINITION. What every entry of the object dictionary reads as (02 Table 2.14 to 15 Table 15.12), the CPER record and the
Recount summary (12 R384, 15 R464). -/

namespace Sys2Proof.Machine

/-! ## Selectors -/

/-- Selected instance of an entry: the settings key's third part (0 for an entry of one instance). -/
def State.selOf (s : State) (idx sub : Nat) : Nat :=
  if idx = 0x1310 ∧ 2 ≤ sub then s.setting 0x131001 0
  else if idx = 0x1410 ∧ 2 ≤ sub then s.setting 0x141001 0
  else if idx = 0x2510 ∧ sub = 6 then s.setting 0x251001 0 * 32 + s.setting 0x251002 0
  else if idx = 0x2610 ∧ 2 ≤ sub then s.setting 0x261001 0
  else if idx = 0x2620 ∧ sub = 4 then s.setting 0x262002 0 * 16 + s.setting 0x262003 0
  else if idx = 0x2630 ∧ 2 ≤ sub then s.setting 0x263001 0
  else if idx = 0x3010 ∧ 2 ≤ sub then s.setting 0x301001 0
  else 0
/-- Settings key of an entry. -/
def State.keyOf (s : State) (idx sub : Nat) : Nat := entryKey idx sub (s.selOf idx sub)
/-- Selected array [0x2210:01]. -/
def State.selCore (s : State) : Core := Tab.get {} s.cores (s.setting 0x221001 0)
/-- Selected stand [0x2310:01]. -/
def State.selStand (s : State) : Stand := s.stand (s.setting 0x231001 0)
/-- Selected scratchpad bank [0x2310:02]. -/
def State.selBank (s : State) : SpadBank := s.selStand.bank (s.setting 0x231002 0)
/-- Selected shard [0x3110:01], [0x3110:02]. -/
def State.selShard (s : State) : Shard := s.shard (s.setting 0x311002 0 == 1) (s.setting 0x311001 0)
/-- Selected ADC channel [0x1410:01]. -/
def State.selCh (s : State) : Nat := s.setting 0x141001 0
/-- Selected arbiter [0x2510:01]. -/
def State.selArb (s : State) : Nat := s.setting 0x251001 0
/-- Statistics of the selected requester. -/
def State.selStat (s : State) : ArbStat := Tab.get {} (s.arb s.selArb).stats (s.setting 0x251002 0)

/-! ## Words of the field maps -/

/-- Column map word (Table 2.16). -/
def mapWord (m : List MapEntry) : Nat :=
  ((List.range 4).map fun k => (b2n (m.getD k {}).valid * 512 + (m.getD k {}).lcol) * 2 ^ (10 * k)).sum
/-- Spare columns in use. -/
def sparesUsed (m : List MapEntry) : Nat := (m.filter fun e => e.valid).length
/-- Array state (Table 2.15). -/
def Core.stateWord (c : Core) : Nat :=
  b2n c.fenced * 2 ^ 28 + b2n c.capmode * 2 ^ 27 + b2n c.bptrB * 2 ^ 26 + bankCode c.bankB.st * 2 ^ 23 + bankCode c.bankA.st * 2 ^ 20 +
    layoutCode c.bankB.layout * 2 ^ 16 + layoutCode c.bankA.layout * 2 ^ 12 + sparesUsed c.bankB.map * 2 ^ 9 + sparesUsed c.bankA.map * 2 ^ 6
/-- Row map (Table 4.4). -/
def SpadBank.rowMap (k : SpadBank) : Nat :=
  b2n k.degraded * 2 ^ 15 + b2n k.spare1.isSome * 2 ^ 14 + k.spare1.getD 0 * 2 ^ 9 + b2n k.spare0.isSome * 2 ^ 8 + k.spare0.getD 0 * 2 ^ 3
/-- Code of a scratchpad bank's power state (Table 4.9). -/
def powerCode (p : BankPower) : Nat := match p with | .on => 0 | .closing => 1 | .off => 2 | .waking => 3
/-- Service map (Table 4.13). -/
def SvcMap.word (m : SvcMap) : Nat := m.fenced * 32 + b2n m.valid * 16 + m.spos
/-- Seam link status (Table 7.14). -/
def State.seamWord (s : State) (y : Nat) : Nat :=
  let w := s.seam y false
  let e := s.seam y true
  w.width * 2 ^ 22 + w.wires.length * 2 ^ 15 + e.width * 2 ^ 13 + e.wires.length * 2 ^ 6
/-- Code of a shard status (Table 9.4). -/
def shardCode (x : ShardStatus) : Nat :=
  match x with
  | .absent => 0 | .wanted => 1 | .arrived => 2 | .writing => 3 | .verified => 4 | .bad => 5 | .missing => 6 | .unplaceable => 7
/-- Shard status (Table 9.4). -/
def Shard.word (h : Shard) : Nat :=
  shardCode h.st * 2 ^ 21 + h.attempt * 2 ^ 18 + b2n h.peer * 2 ^ 17 + b2n h.paired * 2 ^ 16 + h.w4s.toNat
/-- Slot state [0x3210:02]. -/
def ASlot.word (h : ASlot) : Nat := h.ident * 2 ^ 32 + h.gen * 2 ^ 16 + h.st * 2 ^ 8
/-- Remap status (Table 10.12). -/
def Remap.word (r : Remap) : Nat := b2n r.valid * 2 ^ 15 + b2n r.copying * 2 ^ 14 + r.pch * 2 ^ 8
/-- Port status (Table 11.4). -/
def Port.word (p : Port) : Nat :=
  p.st * 2 ^ 29 + p.mode * 2 ^ 26 + p.reason * 2 ^ 22 + p.peerPort * 2 ^ 18 + p.peerPos * 2 ^ 14 + b2n p.gwok * 2 ^ 13
/-- Thermal state code (Table 13.10): an immediate stop just decided still shows the throttle. -/
def State.thermalState (s : State) : Nat := if 2 ≤ s.sense.stop then s.sense.stop else b2n (decide (0 < s.level))
/-- Thermal status (Table 13.10). -/
def State.thermalWord (s : State) : Nat :=
  s.thermalState * 2 ^ 29 + s.level * 2 ^ 26 + s.sense.tlevel * 2 ^ 23 + s.sense.plevel * 2 ^ 20 + s.setting 0x130008 0 * 2 ^ 19 +
    (s.diode s.hottest.1).cadence * 2 ^ 17 + s.hottest.1 * 2 ^ 11
/-- Rate code in force on a channel (Table 13.4, R397, [0x1410:08]). -/
def State.rateOf (s : State) (ch : Nat) : Nat :=
  if ch < 64 then (let c := (s.diode ch).cadence; if c = 0 then 4 else if c = 1 then 7 else 9)
  else if ch < 72 then 3 else s.setting (entryKey 0x1410 8 ch) 4
/-- Sensor of a channel, if it has one. -/
def State.sensorOf (s : State) (ch : Nat) : Sensor := if ch < 64 then s.diode ch else if ch < 72 then s.therm (ch - 64) else {}
/-- Channel status (Table 13.11). -/
def State.channelWord (s : State) (ch : Nat) : Nat :=
  let x := s.sensorOf ch
  let subst := decide (ch < 64) && (x.failed || decide (x.misses ≠ 0))
  b2n x.failed * 2 ^ 31 + x.cause * 2 ^ 29 + b2n subst * 2 ^ 28 + s.rateOf ch * 2 ^ 24 + s.trigSource ch * 2 ^ 22 + b2n (s.adc ch).calfail * 2 ^ 21
/-- Value of a channel (R392, R397, R474, log 56): 1/64 degree, microvolts or milliamperes by kind. -/
def State.channelValue (s : State) (ch : Nat) : Int :=
  let uv := (s.adc ch).code * 390625 / 1000000
  if ch < 64 then s.diodeValue ch
  else if ch < 72 then (s.therm (ch - 64)).reading
  else if ch = 88 then uv / 50
  else if ch = 89 ∨ ch = 90 then uv * 2 / 3
  else if ch = 91 then uv / 5
  else (s.adc ch).code * frontEnd ch * 390625 / 1000000
/-- Link status (Table 15.13). -/
def HostIf.word (h : HostIf) : Nat :=
  h.linkSt * 2 ^ 29 + h.proto * 2 ^ 26 + h.width * 2 ^ 22 + h.rate * 2 ^ 20 + b2n h.flit * 2 ^ 19 + b2n h.memen * 2 ^ 18 +
    b2n h.msixen * 2 ^ 17 + b2n h.mbirq * 2 ^ 16

/-! ## Totals -/

/-- Stands whose core 16 fills a position or is paired [0x4030:01]. -/
def State.sparesInUse (s : State) : Nat :=
  (s.stands.filter fun e => e.2.svc.valid || e.2.pairA.isSome || e.2.pairB.isSome).length
/-- Scratchpad spare rows in use [0x4030:02]. -/
def State.rowsInUse (s : State) : Nat :=
  (s.stands.map fun e => (e.2.banks.map fun b => b2n b.2.spare0.isSome + b2n b.2.spare1.isSome).sum).sum
/-- Banks at or above the wear warning [0x4040:03]. -/
def State.pastWarning (s : State) : Nat :=
  let w := s.setting 0x404001 9000000
  (s.cores.map fun e => b2n (decide (w ≤ e.2.bankA.rewrites)) + b2n (decide (w ≤ e.2.bankB.rewrites))).sum
/-- Participants that have arrived in the open phase [0x2420:04]. -/
def State.arrivedNow (s : State) (c : Nat) : Nat :=
  ((s.participants c).filter fun n => decide (s.phase c < (s.stand n).arrivalsOn c)).length
/-- Members arrived at the open barrier [0x3100:07], as this module's flag unit holds them. -/
def State.membersArrived (s : State) : Nat :=
  let c := if 3 ≤ s.weights.sw.st then 65 else 64
  ((s.chan c).arrivals.filter fun a => decide ((s.chan c).done < a.2)).length
/-- Mean input power of the last 1 ms in W [0x1200:01]. -/
def State.inputPower (s : State) : Nat :=
  let l := s.power.samples.take 100
  if l = [] then 0 else l.sum / l.length / 1000
/-- A field of the current binary. -/
def State.ofBinary (s : State) (f : List Byte → Nat) : Nat := match s.binary.current with | some b => f b | none => 0

/-! ## Scalars, chapter by chapter -/

/-- Entries of 0x1000 to 0x15FF and 0x1F20 (Table 14.15, Table 13.9); `r` is the free value of this reading; none: a stored
setting. -/
def State.value14 (s : State) (idx sub r : Nat) : Option Nat :=
  match idx, sub with
  | 0x1000, 1 => some Config.serialNumber.toNat
  | 0x1000, 4 => some s.power.lifecycle
  | 0x1000, 5 => some s.power.state
  | 0x1010, 3 => some s.power.debugNext
  | 0x1100, 3 => some s.power.cause.toNat
  | 0x1100, 4 => some s.power.causeBeat
  | 0x1100, 5 => some s.power.causeWall
  | 0x1100, 6 => some (s.node (s.setting 0x253001 0)).cause
  | 0x1100, 10 => some s.power.cmdRes
  | 0x1110, k => some (Tab.get 0 s.power.rings k)
  | 0x1200, 1 => some s.inputPower
  | 0x1200, 2 => some r
  | 0x1200, 4 => some s.power.level
  | 0x1210, 2 => some (Tab.get 0 s.power.phases (s.setting 0x121001 0) * 2 ^ 14 + r % 2 ^ 14)
  | 0x1500, 1 => some s.power.fwFloor
  | 0x1F20, 2 => some s.power.upRes
  | _, _ => none
/-- Entries of chapter 13 (Table 13.9). -/
def State.value13 (s : State) (idx sub : Nat) : Option Nat :=
  let ch := s.selCh
  let q := s.setting 0x142001 0
  match idx, sub with
  | 0x1300, 1 => some s.thermalWord
  | 0x1300, 2 => some (lowBits 16 s.hottest.2)
  | 0x1300, 12 => some ((List.range 64).filter fun d => (s.diode d).failed).length
  | 0x1310, 5 => some (lowBits 16 (s.therm (s.setting 0x131001 0)).reading)
  | 0x1400, 4 => some s.sense.adcCommit
  | 0x1400, 5 => some (b2n s.sense.vrefBad)
  | 0x1410, 2 => some (s.channelWord ch)
  | 0x1410, 3 => some (lowBits 32 (s.adc ch).code)
  | 0x1410, 4 => some (lowBits 32 (s.channelValue ch))
  | 0x1410, 5 => some (lowBits 32 (s.adc ch).offset)
  | 0x1410, 6 => some (s.adc ch).gain
  | 0x1410, 8 => some (s.rateOf ch)
  | 0x1420, 2 => some (lowBits 16 (Tab.get 0 s.sense.quadMean q))
  | 0x1420, 3 => some (Tab.get 0 s.sense.quadCommit q)
  | 0x1420, 4 => some (Tab.get 0 s.sense.quadPending q)
  | _, _ => none
/-- Entries of chapters 02 to 07 (Tables 2.14, 3.12, 4.12, 6.17, 7.4, 7.13). -/
def State.valueDie (s : State) (idx sub : Nat) : Option Nat :=
  match idx, sub with
  | 0x2000, 1 => some s.time.len
  | 0x2000, 2 => some s.time.beat
  | 0x2000, 3 => some s.time.slip
  | 0x2000, 7 => some (s.time.tick % 2 ^ 48)
  | 0x2100, 8 => some s.rel.lastSweep
  | 0x2210, 2 => some s.selCore.stateWord
  | 0x2210, 3 => some (mapWord s.selCore.bankA.map)
  | 0x2210, 4 => some (mapWord s.selCore.bankB.map)
  | 0x2210, 5 => some s.selCore.bankA.rewrites
  | 0x2210, 6 => some s.selCore.bankB.rewrites
  | 0x2210, 7 => some s.selCore.lastMismatch
  | 0x2220, 4 => some (s.setting 0x222004 63000000000)
  | 0x2220, 5 => some s.rel.sentLog
  | 0x2220, 6 => some (s.ofBinary fun b => b2n (bit (conFlags b) 0))
  | 0x2310, 3 => some s.selBank.rowMap
  | 0x2310, 4 => some (powerCode s.selBank.power)
  | 0x2310, 5 => some s.selStand.svc.word
  | 0x2310, 6 => some s.selBank.fieldRepairs
  | 0x2350, 1 => some (s.ofBinary conBuild)
  | 0x2350, 3 => some (s.ofBinary conPeriod)
  | 0x2350, 4 => some s.binary.b0
  | 0x2350, 5 => some (s.ofBinary conLayout)
  | 0x2360, 1 => some s.power.debug
  | 0x2360, 3 => some (b2n s.time.hazardStop)
  | 0x2370, 2 => some s.binary.res
  | 0x2370, 3 => some (match s.binary.staged with | some b => conBuild b | none => 0)
  | 0x2410, 2 => some (s.seamWord (s.setting 0x241001 0))
  | 0x2420, 2 => some (s.participants (s.setting 0x242001 0)).length
  | 0x2420, 3 => some (s.phase (s.setting 0x242001 0))
  | 0x2420, 4 => some (s.arrivedNow (s.setting 0x242001 0))
  | 0x2420, 5 => some (b2n (s.extended (s.setting 0x242001 0)))
  | _, _ => none
/-- Entries of chapters 10, 11 and 15 (Tables 10.11, 11.12, 15.12). -/
def State.valueEdge (s : State) (idx sub : Nat) : Option Nat :=
  match idx, sub with
  | 0x2510, 3 => some s.selStat.grants.toNat
  | 0x2510, 4 => some s.selStat.wait.toNat
  | 0x2510, 5 => some s.selStat.longest
  | 0x2510, 6 => some (s.rank s.selArb (s.setting 0x251002 0))
  | 0x2510, 8 => some (s.arb s.selArb).queue.length
  | 0x2510, 9 => some (match (s.arb s.selArb).lock with | some l => l.2.1 | none => 0xFFFF)
  | 0x2520, 2 => some (s.remap (s.setting 0x252001 0)).word
  | 0x2530, 2 => some (s.node (s.setting 0x253001 0)).inc
  | 0x2530, 3 => some (b2n (s.node (s.setting 0x253001 0)).away)
  | 0x2610, 2 => some (s.port (s.setting 0x261001 0)).word
  | 0x2630, 3 => some (s.root (s.setting 0x263001 0))
  | 0x2630, 4 => some (s.chan (s.setting 0x263001 0)).done
  | 0x2700, 1 => some s.host.word
  | 0x2700, 2 => some Config.pciVendor.toNat
  | 0x2700, 3 => some Config.pciDevice.toNat
  | _, _ => none
/-- Entries of chapters 08, 09 and 12 (Tables 8.15, 9.10, 12.10). -/
def State.valueServe (s : State) (idx sub : Nat) : Option Nat :=
  match idx, sub with
  | 0x3000, 1 => some s.serving.state
  | 0x3010, 4 => some (s.quotaDescs (s.setting 0x301001 0)).length
  | 0x3010, 5 => some ((s.quotaDescs (s.setting 0x301001 0)).map groupsWanted).sum
  | 0x3100, 2 => some s.weights.wres
  | 0x3100, 3 => some s.weights.current
  | 0x3100, 4 => some (match s.weights.staging with | some g => g.epoch | none => 0)
  | 0x3100, 5 => some s.weights.sw.st
  | 0x3100, 6 => some s.weights.sw.beat
  | 0x3100, 7 => some s.membersArrived
  | 0x3100, 15 => some s.weights.inboxFree.toNat
  | 0x3110, 3 => some s.selShard.word
  | 0x3110, 4 => some (mapWord (s.selCore.bank (s.setting 0x311002 0 == 1)).w4sMap)
  | 0x3200, 2 => some s.weights.ares
  | 0x3200, 4 => some 0
  | 0x3210, 2 => some (s.slotHdr (s.setting 0x321001 0)).word
  | 0x3210, 3 => some (s.slotHdr (s.setting 0x321001 0)).refs
  | 0x4000, 2 => some s.rel.logCount
  | 0x4000, 3 => some s.rel.wall
  | 0x4010, 1 => some s.rel.cper.length
  | 0x4020, 1 => some s.rel.healthNow
  | 0x4020, 2 => some s.rel.fsCause
  | 0x4020, 3 => some s.rel.uncovered.length
  | 0x4030, 1 => some s.sparesInUse
  | 0x4030, 2 => some s.rowsInUse
  | 0x4030, 3 => some (s.seams.map fun e => e.2.wires.length).sum
  | 0x4030, 4 => some (s.links.filter fun e => e.2.width = 1).length
  | 0x4030, 5 => some (s.mem.remaps.filter fun e => e.2.valid).length
  | 0x4040, 3 => some s.pastWarning
  | _, _ => none
/-- Value of a scalar entry. -/
def State.scalar (s : State) (e : Entry) : Nat :=
  let r := Config.freeNat s.freeCtr % 2 ^ 16
  if e.access = 3 then 0
  else if e.sub = 0 then e.dflt.getD 0
  else if 0x5000 ≤ e.idx then s.counter (entryKey e.idx e.sub)
  else match s.value14 e.idx e.sub r with
    | some v => v
    | none =>
      match s.value13 e.idx e.sub, s.valueDie e.idx e.sub, s.valueEdge e.idx e.sub, s.valueServe e.idx e.sub with
      | some v, _, _, _ => v
      | none, some v, _, _ => v
      | none, none, some v, _ => v
      | none, none, none, some v => v
      | none, none, none, none => s.setting (s.keyOf e.idx e.sub) (e.dflt.getD 0)

/-! ## CPER (R384); the layout is that of the UEFI specification, Appendix N, which the spec names (PRESUMED, log 57) -/

/-- Two decimal digits in BCD. -/
def bcd (n : Nat) : Nat := n / 10 % 10 * 16 + n % 10
/-- Year, month, day of a day number counted from 1970-01-01 (proleptic Gregorian calendar). -/
def civil (days : Nat) : Nat × Nat × Nat :=
  let z := days + 719468
  let era := z / 146097
  let doe := z % 146097
  let yoe := (doe - doe / 1460 + doe / 36524 - doe / 146096) / 365
  let doy := doe - (365 * yoe + yoe / 4 - yoe / 100)
  let mp := (5 * doy + 2) / 153
  let d := doy - (153 * mp + 2) / 5 + 1
  let m := if mp < 10 then mp + 3 else mp - 9
  (yoe + era * 400 + (if m ≤ 2 then 1 else 0), m, d)
/-- Timestamp of a wall clock in ns; precise when the clock is set. -/
def cperTime (wall : Nat) : List Byte :=
  let t := wall / 1000000000
  let c := civil (t / 86400)
  leBytes 1 (bcd (t % 60)) ++ leBytes 1 (bcd (t / 60 % 60)) ++ leBytes 1 (bcd (t / 3600 % 24)) ++ leBytes 1 (b2n (decide (wall ≠ 0))) ++
    leBytes 1 (bcd c.2.2) ++ leBytes 1 (bcd c.2.1) ++ leBytes 1 (bcd (c.1 % 100)) ++ leBytes 1 (bcd (c.1 / 100))
/-- The Llynnik GUID, in the byte order of a GUID. -/
def llynnikGuid : List Byte := [0x2A, 0x0E, 0x1C, 0x6B, 0x47, 0x9D, 0x35, 0x4F] ++ [0xA8, 0xC2, 0x51, 0xE0, 0x7D, 0x3B, 0x94, 0xF6]
/-- A CPER record: header, section descriptor, the error record unchanged. -/
def cperBytes (n : Nat) (r : ErrRec) : List Byte :=
  [0x43, 0x50, 0x45, 0x52] ++ leBytes 2 0x0101 ++ leBytes 4 0xFFFFFFFF ++ leBytes 2 1 ++ leBytes 4 r.sev ++ leBytes 4 3 ++ leBytes 4 264 ++
    cperTime r.wall ++ leBytes 16 Config.serialNumber.toNat ++ leBytes 16 0 ++ llynnikGuid ++ llynnikGuid ++ leBytes 8 n ++ leBytes 4 0 ++
    leBytes 8 0 ++ leBytes 12 0 ++
  (leBytes 4 200 ++ leBytes 4 64 ++ leBytes 2 0x0100 ++ leBytes 2 0 ++ leBytes 4 1 ++ llynnikGuid ++ leBytes 16 0 ++ leBytes 4 r.sev ++
    leBytes 20 0) ++ r.bytes n
/-- The oldest queued record; with none queued the entry's content is not stated and free. -/
def State.cperRead (s : State) : List Byte :=
  match s.rel.cper with
  | e :: _ => cperBytes e.1 e.2
  | [] => (List.range 264).map fun i => Config.freeByte (s.freeCtr + i)

/-! ## Recount (R463, R464) -/

/-- STATE of a live request (Table 15.10). -/
def reqCode (x : ReqState) : Nat := match x with | .prefill => 1 | .generating => 2 | .suspended _ => 3
/-- A live entry (Table 15.10). -/
def liveEntry (slot : Nat) (r : Req) : List Byte :=
  leBytes 8 r.d.tag ++ leBytes 2 slot ++ leBytes 2 r.rgen ++ leBytes 1 (reqCode r.st) ++ leBytes 1 (r.d.cls % 4 + 4 * b2n r.d.pin) ++
    leBytes 2 r.d.quota ++ leBytes 4 r.gk ++ leBytes 4 (if r.st = .prefill then r.committed else r.l) ++ leBytes 4 r.epoch ++
    leBytes 4 r.d.adapter
/-- A deferred entry (Table 15.10). -/
def State.deferredEntry (s : State) (r : Deferred) : List Byte :=
  leBytes 8 r.d.tag ++ leBytes 4 (s.time.beat - r.sampled) ++ leBytes 1 (r.d.cls % 4) ++ [0] ++ leBytes 2 r.d.quota
/-- The Recount summary (Table 15.9). -/
def State.recount (s : State) (asyncSet : Bool) : List Byte :=
  let v := s.serving
  let live := s.reqs.flatMap fun e => liveEntry e.1 e.2
  let dfr := v.deferred.flatMap s.deferredEntry
  leBytes 4 0x544E4352 ++ leBytes 2 1 ++ leBytes 2 (b2n asyncSet) ++ leBytes 4 (320 + live.length + dfr.length) ++ leBytes 4 s.reqs.length ++
    leBytes 4 v.deferred.length ++ leBytes 4 0 ++ leBytes 8 s.time.beat ++ leBytes 8 s.rel.wall ++ leBytes 8 s.host.nsnap ++
    leBytes 16 0 ++
  (leBytes 8 Config.serialNumber.toNat ++ leBytes 1 s.power.lifecycle ++ leBytes 1 s.power.state ++ leBytes 1 s.rel.healthNow ++
    leBytes 1 v.state ++ leBytes 4 s.thermalWord ++ leBytes 4 s.power.cause.toNat ++
    (List.range 5).flatMap (fun k => leBytes 4 (Tab.get 0 s.power.rings (k + 1))) ++ leBytes 8 (s.ofBinary conBuild) ++ s.binaryDigest) ++
  (leBytes 4 s.weights.current ++ leBytes 4 (match s.weights.staging with | some g => g.epoch | none => 0) ++
    leBytes 1 s.weights.sw.st ++ leBytes 1 s.power.debug ++ leBytes 1 (b2n s.weights.capmode) ++ [0] ++ leBytes 8 s.weights.sw.beat) ++
  (leBytes 8 v.scons ++ leBytes 8 v.cprod ++ leBytes 2 (s.node servingNode).inc ++ [0, 0] ++ leBytes 8 s.rel.logCount ++
    leBytes 8 s.rel.sentLog ++ leBytes 2 s.rel.cper.length ++ [0, 0] ++
    (List.range 14).flatMap (fun p => leBytes 4 (s.port p).word) ++ leBytes 2 s.rel.fsCause ++ leBytes 1 s.power.level ++ [0] ++
    leBytes 8 v.chead ++ leBytes 48 0) ++ live ++ dfr

/-! ## OCTET entries -/

/-- Incomplete shards of a bank (R284). -/
def State.incomplete (s : State) (b : Bool) : List Byte :=
  (List.range 625).map fun i => BitVec.ofNat 8 (((List.range 8).map fun k => b2n (decide ((s.shard b (8 * i + k)).st ≠ .verified)) * 2 ^ k).sum)
/-- Running firmware [0x1500:04]. -/
def State.runningFw (s : State) : List Byte :=
  match s.runningImage with
  | some b => slice b 6 2 ++ leBytes 1 s.power.running ++ leBytes 5 0 ++ slice b 8 8
  | none => leBytes 16 0
/-- Bitmap of member places (Table 11.10). -/
def memberBits (ms : List Nat) : List Byte := leBytes 10 (ms.map fun n => 2 ^ n).sum
/-- Value of an OCTET entry. -/
def State.octets' (s : State) (e : Entry) : List Byte :=
  if e.access = 3 then List.replicate e.size 0
  else match e.idx, e.sub with
    | 0x1000, 2 => beBytes 6 Config.baseMac.toNat
    | 0x1000, 3 => slice Config.partNumber 0 16
    | 0x1500, 4 => s.runningFw
    | 0x1500, 5 => slice Config.certChain 0 4096
    | 0x1520, 1 => s.currentDigest
    | 0x1520, 2 => slice s.selShard.hdr 224 32
    | 0x2110, 1 => slice s.rel.cmdSlice 0 8
    | 0x2350, 2 => s.binaryDigest
    | 0x2600, 4 => s.mapDigest
    | 0x2630, 2 => if 64 ≤ s.setting 0x263001 0 then memberBits (s.members (s.setting 0x263001 0)) else s.octet (s.keyOf e.idx e.sub) e.size
    | 0x3110, 5 => s.incomplete false
    | 0x3110, 6 => s.incomplete true
    | 0x4010, 2 => s.cperRead
    | 0x4020, 4 => slice (s.rel.uncovered.flatMap fun u => leBytes 2 u.1.toNat ++ [u.2.1, u.2.2]) 0 256
    | _, _ => s.octet (s.keyOf e.idx e.sub) e.size
/-- Bytes of an entry's value. -/
def State.valueBytes (s : State) (e : Entry) : List Byte := if e.ty = 7 then s.octets' e else leBytes e.size (s.scalar e)

end Sys2Proof.Machine
end

