-- ==== Sys2Proof/Machine/Dictionary.lean ====
section
/-! DEFINITION. Dictionary messages: their checks in the order of Table 15.6, their execution, the queues of the paths, staging
and the Recount snapshot (15 R451 to R464, R482). -/

namespace Sys2Proof.Machine

/-! ## Message fields (Table 15.5) -/

/-- OP. -/
def mOp (m : List Byte) : Nat := field m 0 1
/-- INDEX. -/
def mIndex (m : List Byte) : Nat := field m 4 2
/-- SUB. -/
def mSub (m : List Byte) : Nat := field m 6 1
/-- LAST. -/
def mLast (m : List Byte) : Bool := bit (field m 7 1) 0
/-- OFFSET. -/
def mOffset (m : List Byte) : Nat := field m 8 4
/-- LENGTH. -/
def mLength (m : List Byte) : Nat := field m 12 2
/-- Data bytes. -/
def mData (m : List Byte) : List Byte := m.drop 16
/-- A request message. -/
def request (op seq index sub flags offset length : Nat) (data : List Byte) : List Byte :=
  leBytes 1 op ++ [0] ++ leBytes 2 seq ++ leBytes 2 index ++ leBytes 1 sub ++ leBytes 1 flags ++ leBytes 4 offset ++ leBytes 2 length ++
    [0, 0] ++ data
/-- Data bytes of a message of a path (Table 15.7). -/
def pathLimit (p : MPath) : Nat := match p with | .mailbox => 4076 | _ => 1024
/-- Queue of a path (Table 15.7). -/
def pathDepth (p : MPath) : Nat := match p with | .mailbox => 1 | _ => 16
/-- Counter of a path's requests (Table 15.14). -/
def pathCounter (p : MPath) : Nat := match p with | .i3c => 0x529001 | .mailbox => 0x529002 | .vlan => 0x529003

/-! ## Staging (R455) -/

/-- Key of an entry's staging buffer. -/
def stageKey (m : List Byte) : Nat := entryKey (mIndex m) (mSub m)
/-- The staging buffer of the entry a message names. -/
def State.stagedFor (s : State) (p : MPath) (m : List Byte) : Option Staged :=
  s.host.staged.find? fun x => x.path = p ∧ x.key = stageKey m
/-- Bytes staged for the entry; an expired staging is discarded. -/
def State.stagedData (s : State) (p : MPath) (m : List Byte) : List Byte :=
  match s.stagedFor p m with
  | some x => if x.expired then [] else x.data
  | none => []
/-- Discard the staging of the entry a message names. -/
def State.dropStaged (s : State) (p : MPath) (m : List Byte) : State :=
  { s with host := { s.host with staged := s.host.staged.filter fun x => !decide (x.path = p ∧ x.key = stageKey m) } }
/-- Live stagings of a path. -/
def State.stagings (s : State) (p : MPath) : Nat := (s.host.staged.filter fun x => decide (x.path = p) && !x.expired).length
/-- Add a segment to the staging. -/
def State.putStaged (s : State) (p : MPath) (m : List Byte) : State :=
  let d := s.stagedData p m ++ mData m
  let s := s.dropStaged p m
  { s with host := { s.host with staged := s.host.staged ++ [{ path := p, key := stageKey m, data := d, tick := s.time.tick }] } }

/-! ## Reserved bits, ranges and states of values -/

/-- Reserved fields of an OCTET value (R16, Tables 9.2, 11.7; R191, R298, R376, R436, R440). -/
def octetReserved (idx sub : Nat) (v : List Byte) : Bool :=
  match idx, sub with
  | 0x1010, 1 => !zeros v 1 7
  | 0x1010, 2 => !zeros v 6 2
  | 0x1510, 5 => ownerReserved v
  | 0x1F20, 1 => imageReserved v
  | 0x2110, 1 => !zeros v 5 3
  | 0x2370, 1 => !zeros v 1 7 || decide (field v 30 2 ≠ 0)
  | 0x2600, 11 => (List.range 80).any fun i => !zeros v (40 * i + 5) 3
  | 0x2620, 4 => decide (64 ≤ field v 3 1 ∨ 8192 ≤ field v 4 2 ∨ 16 ≤ field v 6 1 ∨ 32 ≤ field v 7 1)
  | 0x3100, 1 => decide (4 ≤ field v 1 1) || !zeros v 18 14
  | 0x3200, 1 => !(zeros v 1 3 && zeros v 20 12)
  | _, _ => false
/-- The value sets a reserved bit. -/
def reservedSet (e : Entry) (v : List Byte) : Bool :=
  if e.ty = 7 then octetReserved e.idx e.sub v
  else decide (e.idx = 0x1100 ∧ e.sub = 3 ∧ field v 0 4 % 32768 ≠ 0)
/-- A destination node of a relay entry lies outside the nodes or its window outside its credit unit. -/
def State.relayDest (s : State) (r : Relay) : Bool :=
  if r.kind = 1 then decide (5000 ≤ r.dnode ∨ r.dest ≠ 0)
  else if r.kind = 2 then
    routeMalformed (decRoute [BitVec.ofNat 32 r.dest]) || (decRoute [BitVec.ofNat 32 r.dest]).bitmapMode || decide (2 ^ 32 ≤ r.dest)
  else if r.kind = 3 then decide (r.dest % 256 ≠ 0 ∨ 504000000000 < r.dest + 256 * r.rows)
  else if r.kind = 4 then decide (r.dest % 256 ≠ 0 ∨ 1536000000000 < r.dest + 256 * r.rows)
  else decide (5107 ≤ r.dnode ∨ r.dnode = 5103 ∨ bits r.dest 44 32 = 0 ∨ 5000 < bits r.dest 44 32 ∨ bits r.dest 47 45 ≠ 0 ∨
    r.dest % 2 ^ 32 ≠ 0) || !s.inGrove r.dplace
/-- A relay entry is refused (R346). -/
def State.relayRefused (s : State) (v : List Byte) : Bool :=
  let r := decRelay false v
  r.kind ≠ 0 && (decide (5 < r.kind ∨ 13 < r.port ∨ 79 < r.dplace ∨ r.rows = 0 ∨ 32 < r.rows) || s.relayDest r ||
    (if s.inGrove r.dplace then decide (12 ≤ r.port) else decide (r.port < 12)))
/-- Regions that the integrator places in the window: entry key, default, size (Table 10.7). -/
def windowRegions : List (Nat × Nat × Nat) :=
  [(0x300002, 0, 64), (0x300003, 64, 8388608), (0x300005, 8388672, 67108864), (0x31000C, 83886080, 8392704)]
/-- Alignment of an offset entry (Tables 8.15, 9.10, 10.11). -/
def entryAlign (key : Nat) : Nat :=
  if key = 0x300003 then 128 else if key = 0x300002 ∨ key = 0x300005 ∨ key = 0x31000C then 64
  else if key = 0x250005 ∨ key = 0x250006 then 256 else 1
/-- A region at v would pass into the module area or overlap another (R317). -/
def State.placeBad (s : State) (key v : Nat) : Bool :=
  match windowRegions.find? fun r => r.1 = key with
  | none => false
  | some r => decide (63000000000 < v + r.2.2) ||
      windowRegions.any fun q => q.1 != key && overlap (v, v + r.2.2) (s.setting q.1 q.2.1, s.setting q.1 q.2.1 + q.2.2)
/-- Further conditions of the defining tables on a scalar. -/
def State.scalarForm (s : State) (idx sub v : Nat) : Bool :=
  match idx, sub with
  | 0x1F10, 4 => v != s.setting 0x260009 51200
  | 0x3100, 13 => v = 0 || 3600 ≤ v
  | 0x2700, 7 => v = 1 || v = 2 || v = 4 || v = 8
  | 0x2700, 8 => v / 8 % 8 ≠ 0
  | 0x1410, 7 => bits v 31 30 < 3 && bits v 29 23 < 68
  | 0x3020, k => k < 0x20 || v % 65536 ≤ 1024
  | _, _ => true
/-- Form of an OCTET value (R346, R376, R436, Table 11.12). -/
def State.octetForm (s : State) (idx sub : Nat) (v : List Byte) : Bool :=
  match idx, sub with
  | 0x1510, 5 => true
  | 0x1510, _ => keyForm v
  | 0x2110, 1 => decide (field v 0 2 < 5000 ∧ field v 4 1 < 3) && (sliceOf (field v 3 1) (field v 2 1)).isSome
  | 0x2600, 11 => (List.range 80).all fun i => decide (field v (40 * i + 4) 1 < 16)
  | 0x2620, 4 => !s.relayRefused v
  | _, _ => true
/-- Integer value of a scalar's bytes. -/
def Entry.num (e : Entry) (v : List Byte) : Int := if e.ty = 5 ∨ e.ty = 6 then signedOf (8 * e.size) (leNat v) else leNat v
/-- The complete value lies outside the entry's range (R451, R455); W1C words have no range. -/
def State.outOfRange (s : State) (e : Entry) (v : List Byte) : Bool :=
  if e.ty = 7 then
    (if e.idx = 0x1F20 then decide (v = []) else decide (v.length ≠ e.size)) || !s.octetForm e.idx e.sub v
  else if e.idx = 0x1100 ∧ e.sub = 3 then false
  else decide (e.num v < e.lo ∨ e.hi < e.num v) || decide (leNat v % entryAlign (entryKey e.idx e.sub) ≠ 0) ||
    s.placeBad (entryKey e.idx e.sub) (leNat v) || !s.scalarForm e.idx e.sub (leNat v)
/-- The defining rule refuses the write in the present state (R272, R273, R280, R310, R346, R374, Table 11.12). -/
def State.stateRefused (s : State) (e : Entry) (v : List Byte) : Bool :=
  let n := leNat v
  let serving := s.serving.state != 0
  match e.idx, e.sub with
  | 0x3000, 1 => if n = 1 then s.startRefused else n = 0 && s.stopRefused
  | 0x3020, _ => serving
  | 0x2500, 5 => serving
  | 0x2500, 6 => serving
  | 0x2600, 11 => serving
  | 0x2620, 4 => serving
  | 0x2630, 2 => serving
  | 0x2610, 4 => s.setting 0x261001 0 < 12
  | 0x2610, 6 => s.setting 0x261001 0 < 12
  | 0x2100, 7 => serving || !s.slicesRun
  | 0x3100, 14 => !s.inboxOk n
  | _, _ => false
/-- Node of the unit that holds an entry, where one unit with a node number holds it (Table 10.3). -/
def State.unitOf (s : State) (idx : Nat) : Option Nat :=
  if idx = 0x2210 then some (s.setting 0x221001 0 / 17)
  else if idx = 0x2310 then some (s.setting 0x231001 0)
  else if idx = 0x2700 then some 5104
  else if 0x3000 ≤ idx ∧ idx ≤ 0x3020 then some servingNode
  else if idx = 0x2610 then some (portNode (s.setting 0x261001 0))
  else if idx = 0x2620 then some (portNode (s.setting 0x262002 0))
  else none
/-- The entry's unit is in a UNIT reset. -/
def State.unitBusy (s : State) (idx sub : Nat) : Bool :=
  match s.unitOf idx with
  | some n => s.isAway n && decide (sub ≠ 0)
  | none => false

/-! ## Checks (Table 15.6) -/

/-- Header checks: reserved bits, OP, LENGTH against the message and the path's limit. -/
def headerBad (p : MPath) (m : List Byte) : Bool :=
  decide (m.length < 16 ∨ 4 ≤ field m 7 1 ∨ field m 14 2 ≠ 0 ∨ mOp m = 0 ∨ 3 < mOp m) ||
    (if mOp m = 2 then decide ((mData m).length ≠ mLength m ∨ pathLimit p < mLength m)
      else decide (mData m ≠ [] ∨ (mOp m = 3 ∧ mLength m ≠ 0)))
/-- A scalar WRITE of a wrong form, or a segment out of order (R455). -/
def State.segmentBad (s : State) (p : MPath) (e : Entry) (m : List Byte) : Bool :=
  mOp m == 2 && (if e.ty = 7 then decide (mOffset m ≠ (s.stagedData p m).length)
    else decide (mOffset m ≠ 0 ∨ mLength m ≠ e.size) || !mLast m)
/-- The segment continues a staging that timed out (R455). -/
def State.segmentLate (s : State) (p : MPath) (e : Entry) (m : List Byte) : Bool :=
  mOp m == 2 && e.ty == 7 && decide (mOffset m ≠ 0) && (match s.stagedFor p m with | some x => x.expired | none => false)
/-- Entries that a write from the VLAN never reaches (Table 15.8). -/
def vlanNever (idx sub : Nat) : Bool :=
  idx = 0x1010 || idx = 0x1510 || (idx = 0x1500 && (sub = 2 || sub = 3)) || (idx = 0x1F20 && sub = 1)
/-- The path may not perform the operation (Table 15.8). -/
def State.pathDenied (s : State) (p : MPath) (op idx sub : Nat) : Bool :=
  if s.power.recovery then p != .i3c || !(idx = 0x1000 || idx = 0x1F20 || (idx = 0x1500 && sub = 5))
  else op = 2 && match p with
    | .i3c => false
    | .mailbox => decide (idx = 0x1F10)
    | .vlan => decide (idx = 0x1F10) || vlanNever idx sub || s.setting 0x1F1003 0 != 1
/-- A unit of the die holds the entry (R457). -/
def dieEntry (idx : Nat) : Bool := !(decide (0x1000 ≤ idx ∧ idx ≤ 0x15FF) || idx = 0x1F10 || idx = 0x1F20)
/-- The entry's unit is not powered (R18, Table 15.6). -/
def State.unpowered (s : State) (op idx sub : Nat) : Bool :=
  op != 3 && sub != 0 && dieEntry idx && (s.power.state = 0 || s.power.state = 1 || s.power.state = 5)
/-- Lifecycle refusals: what SCRAPPED still answers, and the gate of an RWL entry. -/
def State.gateRefused (s : State) (e : Entry) (op : Nat) : Bool :=
  (s.power.lifecycle = 4 && !(e.idx = 0x1000 || e.idx = 0x1010 || e.idx = 0x1110)) ||
    (op = 2 && e.access = 4 && !bit e.gate s.power.lifecycle)
/-- The entry is read-only now: the cause word takes a write of 1 to BKLOST (Table 14.7); some entries are read-only for some
instances or in some lifecycle states. -/
def State.readOnly (s : State) (e : Entry) : Bool :=
  match e.idx, e.sub with
  | 0x1100, 3 => false
  | 0x2100, 1 => !s.slicesRun
  | 0x1410, 7 => s.selCh < 72
  | 0x1410, 8 => s.selCh < 72
  | 0x2630, 2 => 64 ≤ s.setting 0x263001 0
  | _, _ => e.access = 0
/-- Value of a WRITE that completes it. -/
def State.wholeValue (s : State) (p : MPath) (e : Entry) (m : List Byte) : List Byte :=
  if e.ty = 7 then s.stagedData p m ++ mData m else mData m
/-- Checks of a WRITE from RESERVED_BIT on. A segment that does not complete its value is only measured. -/
def State.writeStatus (s : State) (p : MPath) (e : Entry) (m : List Byte) : Nat :=
  let v := s.wholeValue p e m
  let whole := mLast m
  let fits := decide (mOffset m + mLength m ≤ e.size)
  if whole ∧ fits ∧ (e.ty ≠ 7 ∨ v.length = e.size) ∧ reservedSet e v then 6
  else if !fits then 4
  else if whole ∧ s.outOfRange e v then 4
  else if whole ∧ s.stateRefused e v then 0x0C
  else if s.unitBusy e.idx e.sub then 7
  else if whole ∧ e.idx = 0x3100 ∧ e.sub = 1 ∧ s.weights.cmds ≠ [] then 7
  else if !whole ∧ (s.stagedFor p m).isNone ∧ 4 ≤ s.stagings p then 7
  else 0
/-- The snapshot of a path. -/
def State.snapshotOf (s : State) (p : MPath) : Option Snapshot := s.host.snapshots.find? fun x => x.path = p
/-- The snapshots with that of a path marked as read now. -/
def State.touchSnapshot (s : State) (p : MPath) : List Snapshot :=
  s.host.snapshots.map fun (x : Snapshot) => if x.path = p then { x with tick := s.time.tick } else x
/-- The entry is the Recount summary. -/
def Entry.isRecount (e : Entry) : Bool := e.idx == 0x1F00 && e.sub == 1
/-- Checks of a READ from OFFSET on; the Recount summary above offset 0 is served from its snapshot (R463). -/
def State.readStatus (s : State) (p : MPath) (e : Entry) (m : List Byte) : Nat :=
  if e.isRecount && mOffset m != 0 then
    match s.snapshotOf p with
    | none => 0x0B
    | some x => if x.bytes.length ≤ mOffset m then 0x0D else 0
  else if e.size ≤ mOffset m then 0x0D
  else if s.unitBusy e.idx e.sub then 7
  else 0
/-- The first status of Table 15.6 that applies to a request on an entry; 0: it is executed. -/
def State.entryStatus (s : State) (p : MPath) (e : Entry) (m : List Byte) : Nat :=
  let op := mOp m
  if s.segmentLate p e m then 0x0B
  else if s.segmentBad p e m then 0x0A
  else if s.pathDenied p op e.idx e.sub then 9
  else if s.unpowered op e.idx e.sub then 8
  else if s.gateRefused e op then 5
  else if op = 2 ∧ s.readOnly e then 2
  else if op = 3 then 0
  else if op = 1 then s.readStatus p e m
  else if e.size ≤ mOffset m then 0x0D
  else s.writeStatus p e m
/-- Status of a request (Table 15.6). -/
def State.status (s : State) (p : MPath) (m : List Byte) : Nat :=
  if headerBad p m then 0x0A
  else match findEntry (mIndex m) (mSub m) with
    | none => 1
    | some e => s.entryStatus p e m

/-! ## Execution of a WRITE -/

/-- Firmware upload (R462): verified under R433; an image whose SVN lies below the floor is out of range (0x05), any other failure
is 0x06; OP of the result is free (log 51). -/
def State.upload (s : State) (img : List Byte) : State :=
  let c := match fwFails img s.power.fwFloor with
    | none => 0
    | some k => if k = 5 then 5 else 6
  let hi := Config.freeNat s.freeCtr % 256
  let s := { s with freeCtr := s.freeCtr + 1, power := { s.power with upRes := hi * 256 + c } }
  if c ≠ 0 then s.imageRefused img
  else
    let k := if s.power.recovery then s.activeSlot else 1 - s.activeSlot
    let rec' := s.power.recovery
    (s.modPower fun p => { p with fwA := if k = 0 then img else p.fwA, fwB := if k = 0 then p.fwB else img,
                                  fwCheck := p.fwCheck || rec' }).bootRom
/-- Slice command block (R376); whether the slice passes is free (log 46). -/
def State.sliceCmd (s : State) (v : List Byte) : State :=
  match sliceOf (field v 3 1) (field v 2 1) with
  | none => s
  | some k =>
    let pass := decide (Config.freeNat s.freeCtr % 2 = 0)
    ({ s with freeCtr := s.freeCtr + 1 } : State).wholeSlice (field v 0 2) (field v 3 1) (field v 4 1) k (slice v 0 8) pass
/-- An OCTET value is executed. -/
def State.writeOctet (s : State) (idx sub : Nat) (v : List Byte) : State :=
  match idx, sub with
  | 0x1010, 1 =>
    let erased := decide (Config.freeNat s.freeCtr % 2 = 0)
    ({ s with freeCtr := s.freeCtr + 1 } : State).lifecycleCmd (field v 0 1) (BitVec.ofNat 64 (field v 8 8)) erased
  | 0x1510, 5 => s.ownerKey v
  | 0x1F20, 1 => s.upload v
  | 0x2110, 1 => s.sliceCmd v
  | 0x2370, 1 => s.binaryCmd v
  | 0x3100, 1 => s.modWeights fun w => { w with cmds := w.cmds ++ [v] }
  | 0x3200, 1 => s.adapterCmd v
  | 0x2620, 4 => (s.putOctet (s.keyOf idx sub) v).applyRelays
  | 0x2610, 6 => (s.putOctet (s.keyOf idx sub) v).gatewayWritten (s.setting 0x261001 0)
  | _, _ => s.putOctet (s.keyOf idx sub) v
/-- Change one requester's statistics at the selected arbiter. -/
def State.modStat (s : State) (f : ArbStat → ArbStat) : State :=
  s.modArb s.selArb fun a => { a with stats := Tab.set {} a.stats (s.setting 0x251002 0) (f s.selStat) }
/-- A scalar value is executed (`n` its bits). -/
def State.writeScalar (s : State) (idx sub n : Nat) : State :=
  if 0x5000 ≤ idx then { s with counters := Tab.set 0 s.counters (entryKey idx sub) 0 }
  else match idx, sub with
    | 0x1010, 3 => s.modPower fun p => { p with debugNext := n }
    | 0x1100, 1 => if n = 1 then s.warmRequest 2 else (s.coldReset 2).cmdResult (some 2) 0
    | 0x1100, 2 => s.unitResetCmd n
    | 0x1100, 3 => if bit n 15 then s.modPower fun p => { p with cause := p.cause &&& 0xFFFF7FFF } else s
    | 0x1110, k => s.modPower fun p => { p with rings := Tab.set 0 p.rings k 0 }
    | 0x1400, 3 => s.calCommand n
    | 0x1410, 5 => s.modAdc s.selCh fun a => { a with offset := signedOf 32 n }
    | 0x1410, 6 => s.modAdc s.selCh fun a => { a with gain := n }
    | 0x1410, 7 => (s.putSetting (s.keyOf idx sub) n).modAdc s.selCh fun a => { a with settle := 3, trigBusy := false }
    | 0x1410, 8 => (s.putSetting (s.keyOf idx sub) n).modAdc s.selCh fun a => { a with settle := 3 }
    | 0x1500, 3 => s.raiseFloor n
    | 0x2100, 7 => s.marginStart n
    | 0x2510, 3 => s.modStat fun x => { x with grants := 0 }
    | 0x2510, 4 => s.modStat fun x => { x with wait := 0 }
    | 0x2510, 5 => s.modStat fun x => { x with longest := 0 }
    | 0x2510, 7 => s.modArb s.selArb fun a => { a with stats := [] }
    | 0x2620, 1 => (s.putSetting (s.keyOf idx sub) n).applyRelays
    | 0x3000, 1 => if n = 0 then s.serveStop else if n = 1 then s.serveStart else s.serveDrain
    | 0x3100, 14 => s.post n
    | 0x4000, 3 => s.setWall n
    | 0x4010, 3 => { s with rel := { s.rel with cper := s.rel.cper.filter fun e => e.1 ≠ n } }
    | _, _ => s.putSetting (s.keyOf idx sub) n
/-- A WRITE that passed every check: a segment is staged, a complete value executed. -/
def State.doWrite (s : State) (p : MPath) (e : Entry) (m : List Byte) : State :=
  if e.ty ≠ 7 then s.writeScalar e.idx e.sub (leNat (mData m))
  else if mLast m then (s.dropStaged p m).writeOctet e.idx e.sub (s.wholeValue p e m)
  else s.putStaged p m

/-! ## Answers -/

/-- Data of a DESCRIBE answer (R455). The spec gives an entry that takes no write no range: those bytes are free. -/
def State.describe (s : State) (e : Entry) : List Byte :=
  let range := if e.ty = 7 then List.replicate 16 0
    else if e.access = 0 then (List.range 16).map fun i => Config.freeByte (s.freeCtr + i)
    else leBytes 8 (lowBits 64 e.lo) ++ leBytes 8 (lowBits 64 e.hi)
  leBytes 1 e.ty ++ leBytes 1 e.access ++ leBytes 1 (b2n e.per) ++ leBytes 1 e.gate ++ leBytes 4 e.size ++ range ++
    leBytes 8 (e.dflt.getD 0)
/-- Data of a READ of v and whether it reaches the end (R455). -/
def readPart (p : MPath) (v : List Byte) (m : List Byte) : List Byte × Bool :=
  let n := min (min (mLength m) (pathLimit p)) (v.length - mOffset m)
  (slice v (mOffset m) n, decide (v.length ≤ mOffset m + n))
/-- An answer with data (R454). -/
def answerWith (m : List Byte) (status : Nat) (d : List Byte × Bool) : List Byte := answerHeader m status d.2 d.1.length ++ d.1
/-- A request on an entry is executed (status 0): the state after it and the answer's data. -/
def State.execute (s : State) (p : MPath) (e : Entry) (m : List Byte) : State × List Byte × Bool :=
  if mOp m = 3 then (s, s.describe e, false)
  else if mOp m = 2 then (s.doWrite p e m, [], false)
  else if e.isRecount then
    let v := match s.snapshotOf p with | some x => x.bytes | none => []
    ({ s with host := { s.host with snapshots := s.touchSnapshot p } }, readPart p v m)
  else (s, readPart p (s.valueBytes e) m)
/-- Send the answer to a request: counted by path, refusals too; a datagram's answer goes back to its source and is kept when the
request was executed (R456, R459, R460, R467). -/
def State.answer (s : State) (q : QueuedReq) (ans : List Byte) : State :=
  let s := s.count (pathCounter q.path)
  let refused := decide (field ans 1 1 ≠ 0)
  let s := if refused then s.count 0x529004 else s
  match q.path, q.via with
  | .mailbox, _ => s.mailboxDone 0 ([1, 0x7E, 0, 0] ++ ans)
  | .vlan, some (port, dst, dstPort) =>
    let s := s.emit (.vlan port dst dstPort ([1, 0x7E, 0, 0] ++ ans))
    if refused then s
    else { s with host := { s.host with vlanLast := (dst, field q.msg 2 2, ans) :: s.host.vlanLast.filter fun x => x.1 != dst } }
  | path, _ => s.emit (.answer path ans)
/-- A restart of the forester by the request itself leaves it without an answer (R482). -/
def State.handle (s : State) (q : QueuedReq) : State :=
  let p := q.path
  let m := q.msg
  let c := s.status p m
  if c = 0 then
    match findEntry (mIndex m) (mSub m) with
    | none => s
    | some e =>
      let r := s.execute p e m
      let t := { r.1 with freeCtr := r.1.freeCtr + 264 }
      if t.power.fwCheck then t else t.answer q (answerWith m 0 r.2)
  else
    let drop := mOp m = 2 && (c = 0x0A || c = 4 || c = 0x0B)
    let s := if c = 0x0B ∧ mOp m = 2 then s.count 0x529006 else s
    let s := if drop then s.dropStaged p m else s
    s.answer q (answerHeader m c false 0)

/-! ## Queues of the paths and the Recount snapshot (R458, R463) -/

/-- A snapshot is taken at once: not RUNNING, HALTED, or no boundary within four beat lengths. -/
def State.snapNow (s : State) : Bool :=
  s.power.state != 3 || s.sense.stop == 4 || decide (s.time.start + 4 * s.time.len ≤ s.time.tick)
/-- The request is a READ of the Recount summary at offset 0 that passes every check. -/
def State.isSnap (s : State) (q : QueuedReq) : Bool :=
  mOp q.msg == 1 && mIndex q.msg == 0x1F00 && mSub q.msg == 1 && mOffset q.msg == 0 && s.status q.path q.msg == 0
/-- Take the snapshot of a path; the READ at offset 0 is answered from it. -/
def State.snap (s : State) (q : QueuedReq) (async : Bool) : State :=
  let v := s.recount async
  let one : Snapshot := { path := q.path, bytes := v, tick := s.time.tick }
  let others := s.host.snapshots.filter fun (x : Snapshot) => x.path ≠ q.path
  let s := { s with host := { s.host with nsnap := s.host.nsnap + 1, snapshots := others ++ [one] } }
  (s.count 0x529008).handle q
/-- Requests waiting on a path. -/
def State.waiting (s : State) (p : MPath) : List QueuedReq := s.host.queued.filter fun q => q.path = p
/-- A request at the head of its path: a READ that takes a snapshot waits for the boundary, any other is executed. -/
def State.headRequest (s : State) (q : QueuedReq) : State :=
  if s.isSnap q then
    (if s.snapNow then s.snap q true
     else { s with host := { s.host with queued := { q with beat := s.time.beat, tick := s.time.tick } :: s.host.queued } })
  else s.handle q
/-- Run requests of a path until one waits; a restart of the forester discards the rest (R482). -/
def State.runQueue (p : MPath) : List QueuedReq → State → State
  | [], s => s
  | q :: t, s =>
    let s := s.headRequest q
    if s.power.fwCheck then s
    else if s.waiting p = [] then State.runQueue p t s
    else { s with host := { s.host with queued := s.host.queued ++ t } }
/-- The head of a path is done: the rest follows. -/
def State.nextOf (s : State) (p : MPath) (rest : List QueuedReq) : State :=
  State.runQueue p rest { s with host := { s.host with queued := s.host.queued.filter fun q => q.path ≠ p } }
/-- The queue of a path while the forester runs. -/
def State.inExecution (s : State) (p : MPath) : List QueuedReq := if s.power.vaux then s.waiting p else []
/-- A request arrives on a path (R458). -/
def State.arriveOn (s : State) (p : MPath) (m : List Byte) (via : Option (Nat × List Byte × Nat) := none) : State :=
  let q : QueuedReq := { path := p, msg := m, tick := s.time.tick, beat := s.time.beat, via := via }
  let w := s.waiting p
  if w = [] then s.headRequest q
  else if pathDepth p ≤ w.length then s.answer q (answerHeader m 7 false 0)
  else { s with host := { s.host with queued := s.host.queued ++ [q] } }
/-- A dictionary message sent on a path that reaches the forester. -/
def State.dictionary (s : State) (p : MPath) (m : List Byte) : State :=
  let s := s.bootRom
  if s.pathUp p then s.arriveOn p m else s

/-! ## The commands -/

/-- DICTIONARY_READ. -/
def execDictionaryRead (path : MPath) (seq : BitVec 16) (index : BitVec 16) (sub : Byte) (offset : Word) (length : BitVec 16)
    (s : State) : Res :=
  .next (s.dictionary path (request 1 seq.toNat index.toNat sub.toNat 0 offset.toNat length.toNat []))
/-- DICTIONARY_WRITE. -/
def execDictionaryWrite (path : MPath) (seq : BitVec 16) (index : BitVec 16) (sub : Byte) (last : Bool) (offset : Word)
    (data : List Byte) (s : State) : Res :=
  .next (s.dictionary path (request 2 seq.toNat index.toNat sub.toNat (b2n last) offset.toNat data.length data))
/-- DESCRIBE. -/
def execDescribe (path : MPath) (seq : BitVec 16) (index : BitVec 16) (sub : Byte) (s : State) : Res :=
  .next (s.dictionary path (request 3 seq.toNat index.toNat sub.toNat 0 0 0 []))
/-- Segment timeout [0x1F10:02]. -/
def State.segmentTicks (s : State) : Nat := ms (s.setting 0x1F1002 1000)
/-- The stagings with that of an entry expired when its time has run out. -/
def State.expireStaged (s : State) (p : MPath) (key : Nat) : List Staged :=
  s.host.staged.map fun (x : Staged) =>
    if x.path = p ∧ x.key = key ∧ x.tick + s.segmentTicks ≤ s.time.tick then { x with data := [], expired := true } else x
/-- SEGMENT_TIMEOUT (R455): the staging is discarded; its next segment is answered TIMEOUT. -/
def execSegmentTimeout (path : MPath) (index : BitVec 16) (sub : Byte) (s : State) : Res :=
  .next { s with host := { s.host with staged := s.expireStaged path (entryKey index.toNat sub.toNat) } }
/-- REQUEST_LIMIT_TIMEOUT (R456): a request in execution for 100 ms is answered TIMEOUT. -/
def execRequestLimitTimeout (path : MPath) (s : State) : Res :=
  match s.inExecution path with
  | q :: t => if q.tick + ms 100 ≤ s.time.tick then .next ((s.answer q (answerHeader q.msg 0x0B false 0)).nextOf path t) else .next s
  | [] => .next s
/-- RECOUNT_SNAPSHOT (R463): at a beat boundary after the READ, or at once. -/
def execRecountSnapshot (path : MPath) (s : State) : Res :=
  match s.inExecution path with
  | q :: t =>
    if s.snapNow then .next ((s.snap q true).nextOf path t)
    else if q.beat ≠ s.time.beat ∧ s.time.tick = s.time.start then .next ((s.snap q false).nextOf path t)
    else .next s
  | [] => .next s
/-- RECOUNT_SNAPSHOT_TIMEOUT (R463): a snapshot not read for 1 s is discarded. -/
def execRecountSnapshotTimeout (path : MPath) (s : State) : Res :=
  let keep := s.host.snapshots.filter fun (x : Snapshot) => !decide (x.path = path ∧ x.tick + sec 1 ≤ s.time.tick)
  .next { s with host := { s.host with snapshots := keep } }

end Sys2Proof.Machine
end

