-- ==== Sys2Proof/Machine/Hazards.lean ====
section
/-! DEFINITION. The hazard detector of debug mode (06 section 6.7): Table 6.14, for the instruction that the report names. -/

namespace Sys2Proof.Machine

/-- Opcode and instruction at an index of a stand's image in the current binary (R152, R187). -/
def State.imageInstr (s : State) (st : StandId) (k : Nat) : Option (Nat × Instr) :=
  match s.binary.current with
  | none => none
  | some b =>
    let o := (conStand b st).1
    if conImageLen b o ≤ k then none
    else (decodeCotis st (conInstr b o k)).map fun i => (bits (conInstr b o k) 63 56, i)
/-- Credits that a write or a lead RED names (R162, R163): destination, window, row. -/
def State.creditsOf (s : State) (i : Instr) : List (Nat × Nat × Nat) :=
  match i with
  | .rwr _ dest window row _ _ _ _ _ _ => [(dest.toNat, window.val, row.val)]
  | .mwr st gm window row _ _ _ _ _ _ =>
    let d := (s.readWords st 20 0x2A (wa (s.g st gm)) 9).1
    (routeStands (decRoute d)).map fun n => (n, window.val, row.val)
  | .red st dest _ true window row gs =>
    let h := decVec ((s.readWords st 20 0x2B (wa (s.g st gs)) 1).1.headD 0)
    (List.range (ceilDiv (1 + 2 * h.count) 64)).map fun k => (dest.toNat, window.val, row.val + k)
  | _ => []
/-- FINAL and NWRITES of a write. -/
def finalOf (i : Instr) : Option Nat :=
  match i with
  | .rwr _ _ _ _ _ _ true n _ _ | .mwr _ _ _ _ _ _ true n _ _ => some n.val
  | _ => none
/-- The instruction accesses the scratchpad (Table 4.3). -/
def touches (i : Instr) : Bool :=
  match i with
  | .ldw .. | .stw .. | .vld .. | .rqnt .. | .rwr .. | .mwr .. | .red .. | .dma .. | .xld .. | .mwo .. | .ada .. | .adb .. | .qnt ..
  | .vop .. | .vtopk .. | .vsmp .. | .vacc .. => true
  | _ => false
/-- Bank of the one word of LDW or STW, or of a bank instruction. -/
def State.bankOf (s : State) (i : Instr) : Option Nat :=
  match i with
  | .ldw st _ ga off | .stw st _ ga off => some (wa (s.g st ga + off.toNat) / 2048)
  | .wopen _ _ b _ _ | .bpdn _ b | .bwake _ b => some b.val
  | _ => none
/-- Positions of a core instruction. -/
def positionsOf (i : Instr) : List Nat :=
  match i with
  | .vld _ pos _ _ _ => (List.range 16).filter fun p => pos.getLsbD p
  | .pass _ pos _ _ _ _ _ _ _ _ => (List.range 16).filter fun p => pos.getLsbD p
  | .rqnt _ p _ _ _ _ _ _ _ => [p.val]
  | _ => []
/-- Some core that fills a position of the instruction meets a condition. -/
def State.anyCore (s : State) (st : Nat) (i : Instr) (f : Nat → Bool) : Bool :=
  (positionsOf i).any fun p => match s.fill st p with | some c => f c | none => false
/-- The bank of the instruction, or any bank where its accesses are settled at their grants, meets a condition. -/
def State.anyBank (s : State) (i : Instr) (f : Nat → Bool) : Bool :=
  match s.bankOf i with
  | some b => f b
  | none => touches i && (List.range 32).any f
/-- Checks on credits (codes 2 to 4): a credit whose FINAL has been sent has no entry any more (R162). -/
def State.creditHazard (s : State) (st code : Nat) (i : Instr) : Bool :=
  let es := (s.creditsOf i).map fun c => (s.stand st).entry c.1 c.2.1 c.2.2
  if code = 4 then match finalOf i with
    | some n => es.any fun e => match e with | some e => e.writes + 1 != n | none => false
    | none => false
  else es.any Option.isNone
/-- Checks on barriers (codes 7 to 9). -/
def State.barrierHazard (s : State) (code : Nat) (i : Instr) : Bool :=
  match code, i with
  | 7, .barv st c => decide (s.phase c < (s.stand st).arrivalsOn c)
  | 8, .barv st c | 8, .bwt st c => !s.participates c st
  | 9, .bwt st c => !(s.stand st).hasArrived c
  | _, _ => false
/-- Checks on passes (codes 6 and 10). -/
def State.passHazard (s : State) (st code : Nat) (i : Instr) : Bool :=
  match i with
  | .pass _ _ slot bsel _ _ _ sign _ _ => s.anyCore st i fun c =>
    let x := s.core st c
    if code = 6 then !(x.bank (x.select bsel)).usable
    else let v := x.slot slot
      v.width.isSome && v.signed != sign
  | _ => false
/-- The check of Table 6.14 holds for an instruction of a stand. Which group is pending for which unit (check 1), and which words an
engine's grants name (checks 12 and 13), is cycle timing: those checks hold for any instruction that accesses the scratchpad, check 12
with a bank OFF (DESIGN CHOICE, log 104). -/
def State.hazardHolds (s : State) (st code : Nat) (i : Instr) : Bool :=
  let x := s.stand st
  match code with
  | 1 => touches i
  | 2 | 3 | 4 => s.creditHazard st code i
  | 5 => match i with
    | .wrel _ slot rows => (List.range 32).any fun r => rows.getLsbD r && !((x.credit.win slot).row r).isFilled
    | _ => false
  | 6 | 10 => s.passHazard st code i
  | 7 | 8 | 9 => s.barrierHazard code i
  | 11 => s.anyCore st i (s.clearingCore st) || s.anyBank i (s.clearingBank st)
  | 12 => s.anyBank i fun b => (x.bank b).power == .off
  | 13 => touches i && (s.bankOf i).isNone
  | 14 => match i with
    | .topen .. => x.tile.isSome
    | .tclose .. => x.tile.isNone
    | _ => false
  | _ => false
/-- The report names an instruction of the stand's image for which the check holds, in debug mode (R182, R183). -/
def State.hazardFound (s : State) (st : StandId) (code index opcode : Nat) : Bool :=
  s.power.debug == 1 && match s.imageInstr st index with
    | some (o, i) => o == opcode && s.hazardHolds st code i
    | none => false
/-- HAZARD (R184): counted and recorded, for check 1 with the requester that wrote; with the hazard action at 1 launches stop. -/
def execHazard (st : StandId) (code : Fin 256) (index : Fin 16384) (opcode : Byte) (writer : Byte) (s : State) : Res :=
  if s.hazardFound st code index opcode.toNat then
    let s := (s.count 0x525007).record 0x020A 3
      (leBytes 1 code ++ leBytes 2 index ++ (if code.val = 1 then [writer] else [0])) st 0xFF opcode.toNat
    .next (if s.setting 0x236002 0 = 1 then { s with time := { s.time with hazardStop := true } } else s)
  else .next s

end Sys2Proof.Machine
end

