-- ==== Sys2Proof/Machine/Host.lean ====
section
/-! DEFINITION. The host link: the window, snoops, training, resets of the link, MSI-X outside boundaries (10 R318, 14 R427,
15 R445 to R450). -/

namespace Sys2Proof.Machine

/-- Size of the window, and its module area (R448, Table 10.7). -/
def windowSize : Nat := 64000000000
/-- Offset of the module area. -/
def moduleArea : Nat := 63000000000
/-- Span of the HDM decoder or of BAR2 (R448). -/
def decoderSpan : Nat := 68719476736
/-- Host accesses of n bytes at an offset reach the module: the link is up, the window is enabled, the decoder claims them. -/
def State.windowOpen (s : State) (offset n : Nat) : Bool :=
  s.powered && s.host.linkSt == 2 && s.host.memen && decide (0 < n ∧ offset + n ≤ decoderSpan)
/-- Part of a write below a bound, above another: its offset and bytes. -/
def cutWrite (offset : Nat) (d : List Byte) (lo hi : Nat) : Nat × List Byte :=
  (max offset lo, (d.drop (lo - offset)).take (hi - max offset lo))
/-- A host write into the window (R318, R448): the integrator's part is stored in order, the module area's discarded and counted,
what lies beyond the window discarded and counted. -/
def State.hostWrite (s : State) (offset : Nat) (d : List Byte) : State :=
  let w := cutWrite offset d 0 moduleArea
  let m := cutWrite offset d moduleArea windowSize
  let s := if offset < moduleArea then s.tierWrite true w.1 w.2 5104 else s
  let s := if m.2 = [] then s else s.count 0x52700A
  let s := if windowSize < offset + d.length then s.count 0x52900B else s
  s.emit .hostDone
/-- HOST_WINDOW_WRITE. -/
def execHostWindowWrite (offset : Nat) (data : List Byte) (s : State) : Res :=
  if s.windowOpen offset data.length then .next (s.hostWrite offset data) else .next s
/-- A host read (R448): data as read, zeros beyond the window. -/
def State.hostRead (s : State) (offset n : Nat) : State :=
  let k := min n (windowSize - offset)
  let r := s.tierRead true offset k 5104
  let s := if k = 0 then s else r.2
  let s := if windowSize < offset + n then s.count 0x52900B else s
  s.emit (.hostData ((if k = 0 then [] else r.1) ++ List.replicate (n - k) 0))
/-- HOST_WINDOW_READ. -/
def execHostWindowRead (offset length : Nat) (s : State) : Res :=
  if s.windowOpen offset length then .next (s.hostRead offset length) else .next s
/-- CXL_SNOOP (R446): a miss, over a CXL link. -/
def execCxlSnoop (addr : Nat) (s : State) : Res :=
  if s.powered ∧ s.host.linkSt = 2 ∧ s.host.proto < 3 then .next (s.emit (.snoopMiss addr)) else .next s
/-- Rate code of a protocol (Tables 15.1, 15.13). -/
def protoRate (c : Nat) : Nat := if c = 0 ∨ c = 3 then 2 else if c = 5 then 0 else 1
/-- Widest width that works (R445). -/
def trainWidth (lanes limit : Nat) : Option Nat := [8, 4, 2, 1].find? fun w => decide (w ≤ lanes ∧ w ≤ limit)
/-- Highest protocol of Table 15.1 that both sides allow. -/
def State.trainProto (s : State) (protos : BitVec 6) : Option Nat :=
  (List.range 6).find? fun c => protos.getLsbD c && bit (s.setting 0x270008 63) c
/-- HOST_LINK_TRAINING (R445): with no protocol or width in common the link stays in training. -/
def execHostLinkTraining (protos : BitVec 6) (lanes : Nat) (memEnable : Bool) (s : State) : Res :=
  if !s.powered then .next s
  else match s.trainProto protos, trainWidth lanes (s.setting 0x270007 8) with
    | some c, some w =>
      let s := (s.count 0x529009).modNode 5104 fun u => { u with away := false }
      .next { s with host := { s.host with linkSt := 2, proto := c, width := w, rate := protoRate c, flit := decide (c = 0 ∨ c = 3),
                                           memen := memEnable } }
    | _, _ => .next { s with host := { s.host with linkSt := 1, memen := false } }
/-- HOT_RESET (R427): always a UNIT reset of the CXL controller. -/
def execHotReset (s : State) : Res := if s.powered then .next s.cxlReset else .next s
/-- No boundary runs (R450): STOPPED, HALTED, a frozen beat counter, or the module not running. -/
def State.noBoundary (s : State) : Bool := s.time.frozen || decide (3 ≤ s.sense.stop) || !(s.power.state = 3 || s.power.state = 4)
/-- MSIX_EVENT_VECTOR (R450): an event that falls while no boundary runs. -/
def execMsixEventVector (v : Fin 32) (s : State) : Res :=
  if s.noBoundary ∧ s.host.msixDue.getLsbD v then
    .next (({ s with host := { s.host with msixDue := s.host.msixDue &&& ~~~(BitVec.ofNat 32 (2 ^ v.val)) } } : State).sendVector v)
  else .next s
/-- MSIX_VECTOR_UNMASK (R450): the host enables MSI-X and unmasks the vector; a pending message is sent. -/
def execMsixVectorUnmask (v : Fin 32) (s : State) : Res :=
  if s.host.linkSt ≠ 2 then .next s
  else
    let s := { s with host := { s.host with msixen := true, msixMask := s.host.msixMask &&& ~~~(BitVec.ofNat 32 (2 ^ v.val)) } }
    .next (if s.host.msixPend.getLsbD v then s.sendVector v else s)

end Sys2Proof.Machine
end

