-- ==== Sys2Proof/Machine/Management.lean ====
section
/-! DEFINITION. The management paths: mailbox commands, MCTP control on I3C, VLAN datagrams, the firmware upload (15 R459, R460,
R462). Formats of CXL and MCTP messages are those of the standards the spec names (PRESUMED, log 60). -/

namespace Sys2Proof.Machine

/-! ## Mailbox (R459) -/

/-- A management message's wrapper is well-formed. -/
def wrapperOk (b : List Byte) : Bool :=
  decide (4 ≤ b.length ∧ field b 0 1 = 1 ∧ (field b 1 1 = 0x7E ∨ field b 1 1 = 5)) && zeros b 2 2
/-- A command of the mailbox: effect only while the mailbox is reachable (Table 15.7). -/
def State.onMailbox (s : State) (f : State → State) : State :=
  let s := s.bootRom
  if s.pathUp .mailbox then f s else s
/-- MAILBOX_COMMAND: command 0xC000; a malformed wrapper completes with Invalid Input. -/
def execMailboxCommand (payload : List Byte) (s : State) : Res :=
  .next (s.onMailbox fun s =>
    if !wrapperOk payload then s.mailboxDone 2 []
    else if field payload 1 1 = 0x7E then s.arriveOn .mailbox (payload.drop 4)
    else s.spdmRequest .mailbox (payload.drop 4))
/-- IDENTIFY_MEMORY_DEVICE: the spec states none of the 69 bytes of the identity; they are free (log 60). -/
def execIdentifyMemoryDevice (s : State) : Res :=
  .next (s.onMailbox fun s =>
    let r := s.freshBytes 69
    r.2.mailboxDone 0 r.1)
/-- GET_TIMESTAMP: the wall clock, 0 while unset. -/
def execGetTimestamp (s : State) : Res := .next (s.onMailbox fun s => s.mailboxDone 0 (leBytes 8 s.rel.wall))
/-- SET_TIMESTAMP sets the wall clock [0x4000:03]. -/
def execSetTimestamp (value : DWord) (s : State) : Res := .next (s.onMailbox fun s => (s.setWall value.toNat).mailboxDone 0 [])
/-- MAILBOX_UNSUPPORTED: any other standard command. -/
def execMailboxUnsupported (_opcode : BitVec 16) (s : State) : Res := .next (s.onMailbox fun s => s.mailboxDone 3 [])

/-! ## MCTP control on I3C (R459) -/

/-- A message on I3C: answered while VAUX is valid (Table 15.7). -/
def State.onI3c (s : State) (f : State → State) : State := if s.pathUp .i3c then f s.bootRom else s
/-- SET_ENDPOINT_ID: 0 and 0xFF are no endpoint IDs. -/
def execSetEndpointId (eid : Byte) (s : State) : Res :=
  .next (s.onI3c fun s =>
    if eid = 0 ∨ eid = 0xFF then s.emit (.mctp [2])
    else ({ s with host := { s.host with eid := eid } } : State).emit (.mctp [0, 0, eid, 0]))
/-- GET_ENDPOINT_ID. -/
def execGetEndpointId (s : State) : Res := .next (s.onI3c fun s => s.emit (.mctp [0, s.host.eid, 0, 0]))
/-- GET_MCTP_VERSION_SUPPORT: one version of a message type in use; the spec does not state which, it is free (log 60). -/
def execGetMctpVersionSupport (msgType : Byte) (s : State) : Res :=
  .next (s.onI3c fun s =>
    if msgType = 0xFF ∨ msgType = 0 ∨ msgType = 5 ∨ msgType = 0x7E then
      let r := s.freshBytes 4
      r.2.emit (.mctp ([0, 1] ++ r.1))
    else s.emit (.mctp [0x80]))
/-- GET_MESSAGE_TYPE_SUPPORT: SPDM and vendor-defined, beside control. -/
def execGetMessageTypeSupport (s : State) : Res := .next (s.onI3c fun s => s.emit (.mctp [0, 2, 5, 0x7E]))

/-! ## VLAN datagrams (R460) -/

/-- A source address lies within the management prefix; length 128 with a zero prefix admits none (Table 15.12). -/
def State.sourceAdmitted (s : State) (src : List Byte) : Bool :=
  let pre := s.octet 0x1F1005 16
  let n := s.setting 0x1F1006 128
  src.length == 16 && beNat src / 2 ^ (128 - n) == beNat pre / 2 ^ (128 - n) && !(n = 128 && zeros pre 0 16)
/-- A datagram is accepted. -/
def State.datagramOk (s : State) (port : Nat) (src dst message : List Byte) : Bool :=
  s.sourceAdmitted src && dst == s.octet (entryKey 0x2610 4 port) 16 && wrapperOk message
/-- The kept answer of a source's last executed request, when the message repeats its SEQ. -/
def State.keptAnswer (s : State) (src m : List Byte) : Option (List Byte) :=
  (s.host.vlanLast.find? fun x => x.1 == src && x.2.1 == field m 2 2).map fun x => x.2.2
/-- An SPDM answer on the VLAN goes back to the source. -/
def backToSource (port : Nat) (src : List Byte) (srcPort : Nat) (o : Output) : Output :=
  match o with
  | .spdm .vlan b => .vlan port src srcPort ([1, 5, 0, 0] ++ b)
  | o => o
/-- An SPDM request in a datagram. -/
def State.spdmDatagram (s : State) (port : Nat) (src : List Byte) (srcPort : Nat) (req : List Byte) : State :=
  let n := s.outbox.length
  let t := s.spdmRequest .vlan req
  { t with outbox := (t.outbox.take (t.outbox.length - n)).map (backToSource port src srcPort) ++ t.outbox.drop (t.outbox.length - n) }
/-- An accepted datagram: executed, or answered from the kept answer. -/
def State.datagram (s : State) (port : Nat) (src : List Byte) (srcPort : Nat) (message : List Byte) : State :=
  let m := message.drop 4
  if field message 1 1 = 5 then s.spdmDatagram port src srcPort m
  else match s.keptAnswer src m with
    | some ans => (s.count 0x529007).emit (.vlan port src srcPort ([1, 0x7E, 0, 0] ++ ans))
    | none => s.arriveOn .vlan m (some (port, src, srcPort))
/-- VLAN_DATAGRAM: it reaches the forester through a canopy port that is UP; a frame tagged with another VLAN than the management VLAN
[0x2600:0A] is foreign traffic (R338). -/
def execVlanDatagram (via : VlanIn) (src dst : List Byte) (srcPort : BitVec 16) (message : List Byte) (s : State) : Res :=
  let p := 12 + via.port.val
  let s := s.bootRom
  if via.vlan.val ≠ s.setting (entryKey 0x2600 0x0A) 4000 then .next (s.count 0x52800E)
  else if !(s.pathUp .vlan && s.portUp p) then .next s
  else if s.datagramOk p src dst message then .next (s.datagram p src srcPort.toNat message)
  else .next (s.count 0x529005)

/-! ## Firmware (R462) -/

/-- FIRMWARE_UPLOAD: a completed upload of 1 to 8,388,608 bytes; one that sets a reserved byte is refused (R16). -/
def execFirmwareUpload (image : List Byte) (s : State) : Res :=
  if s.power.vaux ∧ image ≠ [] ∧ image.length ≤ 8388608 ∧ !imageReserved image then .next (s.bootRom.upload image) else .next s

end Sys2Proof.Machine
end

