-- ==== Sys2Proof/Machine/Dispatch.lean ====
section
/-! DEFINITION. One arm per command: its meaning. -/

namespace Sys2Proof.Machine

def exec (i : Instr) (s : State) : Host.Outcome State Fault Refusal :=
  match i with
  | .nop st => Sys2Proof.Machine.execNop st s
  | .li st gd imm => Sys2Proof.Machine.execLi st gd imm s
  | .alu st gd ga gb immf func imm => Sys2Proof.Machine.execAlu st gd ga gb immf func imm s
  | .ldw st gd ga off => Sys2Proof.Machine.execLdw st gd ga off s
  | .stw st gs ga off => Sys2Proof.Machine.execStw st gs ga off s
  | .br st cond ga gb target => Sys2Proof.Machine.execBr st cond ga gb target s
  | .bend st => Sys2Proof.Machine.execBend st s
  | .implicitBend st => Sys2Proof.Machine.execImplicitBend st s
  | .wait st cores dmu vec net dma tile => Sys2Proof.Machine.execWait st cores dmu vec net dma tile s
  | .rdctl st gd clr arg sel => Sys2Proof.Machine.execRdctl st gd clr arg sel s
  | .vld st pos slot ga stride => Sys2Proof.Machine.execVld st pos slot ga stride s
  | .pass st pos slot bsel first nrows width sign dense acc => Sys2Proof.Machine.execPass st pos slot bsel first nrows width sign dense acc s
  | .passVerdict st p disturb => Sys2Proof.Machine.execPassVerdict st p disturb s
  | .rqnt st p firsto nout mode fmt sign gt gd => Sys2Proof.Machine.execRqnt st p firsto nout mode fmt sign gt gd s
  | .requantizerOutput st p => Sys2Proof.Machine.execRequantizerOutput st p s
  | .topen st tile => Sys2Proof.Machine.execTopen st tile s
  | .tclose st => Sys2Proof.Machine.execTclose st s
  | .tileVerdict st idx => Sys2Proof.Machine.execTileVerdict st idx s
  | .interlockRelease st u => Sys2Proof.Machine.execInterlockRelease st u s
  | .pendWaitRelease st u => Sys2Proof.Machine.execPendWaitRelease st u s
  | .wopen st slot bank first count => Sys2Proof.Machine.execWopen st slot bank first count s
  | .wclose st slot => Sys2Proof.Machine.execWclose st slot s
  | .wrel st slot rows => Sys2Proof.Machine.execWrel st slot rows s
  | .bpdn st bank => Sys2Proof.Machine.execBpdn st bank s
  | .bwake st bank => Sys2Proof.Machine.execBwake st bank s
  | .bankWakeDone st bank => Sys2Proof.Machine.execBankWakeDone st bank s
  | .gateWaitExpiry st g => Sys2Proof.Machine.execGateWaitExpiry st g s
  | .creq st dest window count mode row tag => Sys2Proof.Machine.execCreq st dest window count mode row tag s
  | .creqReceive node p => Sys2Proof.Machine.execCreqReceive node p s
  | .cgrantReceive node p => Sys2Proof.Machine.execCgrantReceive node p s
  | .creditVoidReceive node p => Sys2Proof.Machine.execCreditVoidReceive node p s
  | .awayReceive node p => Sys2Proof.Machine.execAwayReceive node p s
  | .rwr st dest window row offset length final nwrites gs vec => Sys2Proof.Machine.execRwr st dest window row offset length final nwrites gs vec s
  | .mwr st gm window row offset length final nwrites gs vec => Sys2Proof.Machine.execMwr st gm window row offset length final nwrites gs vec s
  | .remoteWriteReceive node p => Sys2Proof.Machine.execRemoteWriteReceive node p s
  | .rowFilled node slot row => Sys2Proof.Machine.execRowFilled node slot row s
  | .red st dest rid lead window row gs => Sys2Proof.Machine.execRed st dest rid lead window row gs s
  | .dma st dir tierB ga window row words gs => Sys2Proof.Machine.execDma st dir tierB ga window row words gs s
  | .barv st chan => Sys2Proof.Machine.execBarv st chan s
  | .bwt st chan => Sys2Proof.Machine.execBwt st chan s
  | .barrierPhaseComplete chan => Sys2Proof.Machine.execBarrierPhaseComplete chan s
  | .xld st bufY ga gb count didx => Sys2Proof.Machine.execXld st bufY ga gb count didx s
  | .mma st mode mm1 nm1 km1 acc xf yf gb => Sys2Proof.Machine.execMma st mode mm1 nm1 km1 acc xf yf gb s
  | .mwo st wmode set mm1 nm1 gd gs => Sys2Proof.Machine.execMwo st wmode set mm1 nm1 gd gs s
  | .ada st gh gx gd matrix gi => Sys2Proof.Machine.execAda st gh gx gd matrix gi s
  | .adb st gh gg gd matrix go => Sys2Proof.Machine.execAdb st gh gg gd matrix go s
  | .vop st func type gd ga gb gc cm1 => Sys2Proof.Machine.execVop st func type gd ga gb gc cm1 s
  | .qnt st type gd ga gb gc cm1 => Sys2Proof.Machine.execQnt st type gd ga gb gc cm1 s
  | .vtopk st km1 gd ga gb cm1 merge => Sys2Proof.Machine.execVtopk st km1 gd ga gb cm1 merge s
  | .vsmp st gd ga km1 gp => Sys2Proof.Machine.execVsmp st gd ga km1 gp s
  | .vacc st gd ga gb g => Sys2Proof.Machine.execVacc st gd ga gb g s
  | .hazard st code index opcode writer => Sys2Proof.Machine.execHazard st code index opcode writer s
  | .beatBoundary returns anns => Sys2Proof.Machine.execBeatBoundary returns anns s
  | .beatLaunch => Sys2Proof.Machine.execBeatLaunch s
  | .beatWatchdog st => Sys2Proof.Machine.execBeatWatchdog st s
  | .standReset st => Sys2Proof.Machine.execStandReset st s
  | .scratchpadUe st bank row word opcode => Sys2Proof.Machine.execScratchpadUe st bank row word opcode s
  | .rowRepair st bank row => Sys2Proof.Machine.execRowRepair st bank row s
  | .flitCrcFail router dir seq => Sys2Proof.Machine.execFlitCrcFail router dir seq s
  | .packetReceive node hdr words => Sys2Proof.Machine.execPacketReceive node hdr words s
  | .mcastForward p => Sys2Proof.Machine.execMcastForward p s
  | .reducePacketArrive router p => Sys2Proof.Machine.execReducePacketArrive router p s
  | .combiningWindowExpiry router idx => Sys2Proof.Machine.execCombiningWindowExpiry router idx s
  | .reductionPartArrive node p => Sys2Proof.Machine.execReductionPartArrive node p s
  | .reductionTimeout node idx => Sys2Proof.Machine.execReductionTimeout node idx s
  | .seamWireTest link eastToWest failed => Sys2Proof.Machine.execSeamWireTest link eastToWest failed s
  | .meshLinkWireTest router dir lower upper => Sys2Proof.Machine.execMeshLinkWireTest router dir lower upper s
  | .descriptorTimeout => Sys2Proof.Machine.execDescriptorTimeout s
  | .stepTimeout rslot => Sys2Proof.Machine.execStepTimeout rslot s
  | .suspensionTimeout rslot => Sys2Proof.Machine.execSuspensionTimeout rslot s
  | .servingStart => Sys2Proof.Machine.execServingStart s
  | .servingDrain => Sys2Proof.Machine.execServingDrain s
  | .servingStop => Sys2Proof.Machine.execServingStop s
  | .stage cap source place epoch layoutId => Sys2Proof.Machine.execStage cap source place epoch layoutId s
  | .weightCancel => Sys2Proof.Machine.execWeightCancel s
  | .requestAgain => Sys2Proof.Machine.execRequestAgain s
  | .arm nmod epoch grace => Sys2Proof.Machine.execArm nmod epoch grace s
  | .disarm => Sys2Proof.Machine.execDisarm s
  | .weightActivate epoch => Sys2Proof.Machine.execWeightActivate epoch s
  | .scrubNow => Sys2Proof.Machine.execScrubNow s
  | .inboxPost slot => Sys2Proof.Machine.execInboxPost slot s
  | .shardArrive path => Sys2Proof.Machine.execShardArrive path s
  | .attemptTimeout bankB st => Sys2Proof.Machine.execAttemptTimeout bankB st s
  | .arrayWriteVerifyDone bankB st p rewrites => Sys2Proof.Machine.execArrayWriteVerifyDone bankB st p rewrites s
  | .shardFinalCheck bankB st => Sys2Proof.Machine.execShardFinalCheck bankB st s
  | .scrubRead bankB st p => Sys2Proof.Machine.execScrubRead bankB st p s
  | .adapterLoad ident offset length digest => Sys2Proof.Machine.execAdapterLoad ident offset length digest s
  | .adapterRemove ident => Sys2Proof.Machine.execAdapterRemove ident s
  | .binaryLoad offset length => Sys2Proof.Machine.execBinaryLoad offset length s
  | .binaryActivate beat => Sys2Proof.Machine.execBinaryActivate beat s
  | .memreqReceive node p => Sys2Proof.Machine.execMemreqReceive node p s
  | .memrspReceive node p => Sys2Proof.Machine.execMemrspReceive node p s
  | .patrolRead node offset => Sys2Proof.Machine.execPatrolRead node offset s
  | .pseudoChannelRemap stack pch => Sys2Proof.Machine.execPseudoChannelRemap stack pch s
  | .arbiterGrant arb => Sys2Proof.Machine.execArbiterGrant arb s
  | .arbiterPark arb requester node burst lock => Sys2Proof.Machine.execArbiterPark arb requester node burst lock s
  | .arbiterWatchdog arb => Sys2Proof.Machine.execArbiterWatchdog arb s
  | .clearArbiterCounters value => Sys2Proof.Machine.execClearArbiterCounters value s
  | .resendPoint node => Sys2Proof.Machine.execResendPoint node s
  | .hostWindowWrite offset data => Sys2Proof.Machine.execHostWindowWrite offset data s
  | .hostWindowRead offset length => Sys2Proof.Machine.execHostWindowRead offset length s
  | .cxlSnoop addr => Sys2Proof.Machine.execCxlSnoop addr s
  | .hostLinkTraining protos lanes memEnable => Sys2Proof.Machine.execHostLinkTraining protos lanes memEnable s
  | .portModeNegotiation port partner => Sys2Proof.Machine.execPortModeNegotiation port partner s
  | .blockLockLoss port => Sys2Proof.Machine.execBlockLockLoss port s
  | .helloSend port => Sys2Proof.Machine.execHelloSend port s
  | .hello port e => Sys2Proof.Machine.execHello port e s
  | .helloLoss port => Sys2Proof.Machine.execHelloLoss port s
  | .transportFrameReceive port h data => Sys2Proof.Machine.execTransportFrameReceive port h data s
  | .ack port peer ack win => Sys2Proof.Machine.execAck port peer ack win s
  | .retransmitTimeout port peer => Sys2Proof.Machine.execRetransmitTimeout port peer s
  | .relay port f => Sys2Proof.Machine.execRelay port f s
  | .reduce port f => Sys2Proof.Machine.execReduce port f s
  | .reroute port => Sys2Proof.Machine.execReroute port s
  | .arrive chan phase place => Sys2Proof.Machine.execArrive chan phase place s
  | .complete chan phase => Sys2Proof.Machine.execComplete chan phase s
  | .withdraw chan phase place => Sys2Proof.Machine.execWithdraw chan phase place s
  | .withdrawn chan phase => Sys2Proof.Machine.execWithdrawn chan phase s
  | .shardReq peer epoch st second => Sys2Proof.Machine.execShardReq peer epoch st second s
  | .shardData frag epoch st second bytes => Sys2Proof.Machine.execShardData frag epoch st second bytes s
  | .neighbourSolicitation port target answer => Sys2Proof.Machine.execNeighbourSolicitation port target answer s
  | .cableInsert port milliwatts => Sys2Proof.Machine.execCableInsert port milliwatts s
  | .cableRemove port => Sys2Proof.Machine.execCableRemove port s
  | .coppicingStart st p urgent => Sys2Proof.Machine.execCoppicingStart st p urgent s
  | .repairSequencerDone st => Sys2Proof.Machine.execRepairSequencerDone st s
  | .selfTestStep st k pass cycles found => Sys2Proof.Machine.execSelfTestStep st k pass cycles found s
  | .forcedClearing st ticks => Sys2Proof.Machine.execForcedClearing st ticks s
  | .voltageMarginCommand quadrant => Sys2Proof.Machine.execVoltageMarginCommand quadrant s
  | .sliceCommand unit sub kind margin pass => Sys2Proof.Machine.execSliceCommand unit sub kind margin pass s
  | .groveFecFailure port => Sys2Proof.Machine.execGroveFecFailure port s
  | .faultStop cls => Sys2Proof.Machine.execFaultStop cls s
  | .foresterWatchdog => Sys2Proof.Machine.execForesterWatchdog s
  | .foresterRestart => Sys2Proof.Machine.execForesterRestart s
  | .errorRecordWrite => Sys2Proof.Machine.execErrorRecordWrite s
  | .cperRemove seq => Sys2Proof.Machine.execCperRemove seq s
  | .wallClockWrite value => Sys2Proof.Machine.execWallClockWrite value s
  | .adcResult ch raw => Sys2Proof.Machine.execAdcResult ch raw s
  | .adcTrigger ch => Sys2Proof.Machine.execAdcTrigger ch s
  | .diodeReading d c10 c160 => Sys2Proof.Machine.execDiodeReading d c10 c160 s
  | .diodeReadingTimeout d => Sys2Proof.Machine.execDiodeReadingTimeout d s
  | .thermistorReading pin => Sys2Proof.Machine.execThermistorReading pin s
  | .throttleRelease => Sys2Proof.Machine.execThrottleRelease s
  | .powerLevelRequest level => Sys2Proof.Machine.execPowerLevelRequest level s
  | .orderlyStopClockStop => Sys2Proof.Machine.execOrderlyStopClockStop s
  | .immediateStop => Sys2Proof.Machine.execImmediateStop s
  | .thermalTrip comparator => Sys2Proof.Machine.execThermalTrip comparator s
  | .calibrationCommand value => Sys2Proof.Machine.execCalibrationCommand value s
  | .adcCalibrationRun vref bandgap means => Sys2Proof.Machine.execAdcCalibrationRun vref bandgap means s
  | .arrayCalibrationDue quadrant => Sys2Proof.Machine.execArrayCalibrationDue quadrant s
  | .vauxValid backupGood => Sys2Proof.Machine.execVauxValid backupGood s
  | .vauxLoss in48Lost => Sys2Proof.Machine.execVauxLoss in48Lost s
  | .railSequence missed => Sys2Proof.Machine.execRailSequence missed s
  | .brownout source detail => Sys2Proof.Machine.execBrownout source detail s
  | .phaseFailed n cause => Sys2Proof.Machine.execPhaseFailed n cause s
  | .powerSample milliwatts => Sys2Proof.Machine.execPowerSample milliwatts s
  | .coldReset source => Sys2Proof.Machine.execColdReset source s
  | .warmReset source => Sys2Proof.Machine.execWarmReset source s
  | .unitResetCommand node => Sys2Proof.Machine.execUnitResetCommand node s
  | .perstN => Sys2Proof.Machine.execPerstN s
  | .fatalReset source detail => Sys2Proof.Machine.execFatalReset source detail s
  | .fatalDelayExpiry => Sys2Proof.Machine.execFatalDelayExpiry s
  | .escalatedWatchdog => Sys2Proof.Machine.execEscalatedWatchdog s
  | .coldExit failures => Sys2Proof.Machine.execColdExit failures s
  | .floorCommand svn => Sys2Proof.Machine.execFloorCommand svn s
  | .ownerKeyCommand block => Sys2Proof.Machine.execOwnerKeyCommand block s
  | .lifecycleCommand target serial erased => Sys2Proof.Machine.execLifecycleCommand target serial erased s
  | .debugFlagWrite value => Sys2Proof.Machine.execDebugFlagWrite value s
  | .getVersion path req => Sys2Proof.Machine.execGetVersion path req s
  | .getCapabilities path req => Sys2Proof.Machine.execGetCapabilities path req s
  | .negotiateAlgorithms path req => Sys2Proof.Machine.execNegotiateAlgorithms path req s
  | .getDigests path req => Sys2Proof.Machine.execGetDigests path req s
  | .getCertificate path req => Sys2Proof.Machine.execGetCertificate path req s
  | .challenge path req => Sys2Proof.Machine.execChallenge path req s
  | .getMeasurements path req => Sys2Proof.Machine.execGetMeasurements path req s
  | .spdmUnsupportedRequest path req => Sys2Proof.Machine.execSpdmUnsupportedRequest path req s
  | .dictionaryRead path seq index sub offset length => Sys2Proof.Machine.execDictionaryRead path seq index sub offset length s
  | .dictionaryWrite path seq index sub last offset data => Sys2Proof.Machine.execDictionaryWrite path seq index sub last offset data s
  | .describe path seq index sub => Sys2Proof.Machine.execDescribe path seq index sub s
  | .segmentTimeout path index sub => Sys2Proof.Machine.execSegmentTimeout path index sub s
  | .requestLimitTimeout path => Sys2Proof.Machine.execRequestLimitTimeout path s
  | .mailboxCommand payload => Sys2Proof.Machine.execMailboxCommand payload s
  | .identifyMemoryDevice => Sys2Proof.Machine.execIdentifyMemoryDevice s
  | .getTimestamp => Sys2Proof.Machine.execGetTimestamp s
  | .setTimestamp value => Sys2Proof.Machine.execSetTimestamp value s
  | .mailboxUnsupported opcode => Sys2Proof.Machine.execMailboxUnsupported opcode s
  | .setEndpointId eid => Sys2Proof.Machine.execSetEndpointId eid s
  | .getEndpointId => Sys2Proof.Machine.execGetEndpointId s
  | .getMctpVersionSupport msgType => Sys2Proof.Machine.execGetMctpVersionSupport msgType s
  | .getMessageTypeSupport => Sys2Proof.Machine.execGetMessageTypeSupport s
  | .vlanDatagram via src dst srcPort message => Sys2Proof.Machine.execVlanDatagram via src dst srcPort message s
  | .recountSnapshot path => Sys2Proof.Machine.execRecountSnapshot path s
  | .firmwareUpload image => Sys2Proof.Machine.execFirmwareUpload image s
  | .msixEventVector v => Sys2Proof.Machine.execMsixEventVector v s
  | .unitReturnsToService node => Sys2Proof.Machine.execUnitReturnsToService node s
  | .recountSnapshotTimeout path => Sys2Proof.Machine.execRecountSnapshotTimeout path s
  | .msixVectorUnmask v => Sys2Proof.Machine.execMsixVectorUnmask v s
  | .hotReset => Sys2Proof.Machine.execHotReset s

end Sys2Proof.Machine
end

