-- ==== Sys2Proof/Safety.lean ====
section
/-! DEFINITION. What counts as a safe state and the frames in which claims are made. -/

namespace Sys2Proof.Machine

/-- The lasting record of the forester is legal (R434, R440, Table 14.10): a lifecycle state of Table 14.13, a floor of at most
64, and in SCRAPPED no device key and a blown fuse. -/
def State.safe (s : State) : Prop :=
  s.power.lifecycle ≤ 4 ∧ s.power.fwFloor ≤ 64 ∧
    (s.power.lifecycle = 4 → s.power.deviceKey = false ∧ s.power.scrapFuse = true)
/-- The canonical form of both tiers (log 5). -/
def Mem.wf (m : Mem) : Bool := Tab.wf 0 m.tierA && Tab.wf 0 m.tierB

/-- Command c on s answers a next state t with p t. -/
def State.gives (s : State) (c : Instr) (p : State → Prop) : Prop := ∃ t, exec c s = .next t ∧ p t
/-- The controller of stand st issues an instruction at once: it runs and holds nothing back. -/
def State.issues (s : State) (st : Nat) : Prop := s.canIssue st = true ∧ (s.stand st).backlog = []
/-- Nothing but stands and counters differs, and of the stands only st. -/
def State.onlyStand (s t : State) (st : Nat) : Prop :=
  t = { s with stands := t.stands, counters := t.counters } ∧ ∀ m, m ≠ st → t.stand m = s.stand m
/-- Counter k rises by n, every other counter stays. -/
def State.countsOnly (s t : State) (k n : Nat) : Prop :=
  t.counter k = (s.counter k + n) % 2 ^ 64 ∧ ∀ j, j ≠ k → t.counter j = s.counter j
/-- An issue at stand st: the program counter moves on, registers and scratchpad words stay, and so do every other stand, every
array of another stand, and everything but stands, arrays, counters and error records. -/
def State.issuedAt (s t : State) (st : Nat) : Prop :=
  t = { s with stands := t.stands, cores := t.cores, counters := t.counters, rel := t.rel } ∧
    (t.stand st).pc = (s.stand st).pc + 1 ∧ (t.stand st).regs = (s.stand st).regs ∧
    (∀ a, (t.stand st).word a = (s.stand st).word a) ∧ (t.stand st).credit = (s.stand st).credit ∧
    (∀ m, m ≠ st → t.stand m = s.stand m) ∧ ∀ m c, m ≠ st → c < 17 → t.core m c = s.core m c
/-- Only stands, counters and error records differ, and of the stands only st, whose registers stay. -/
def State.standWork (s t : State) (st : Nat) : Prop :=
  t = { s with stands := t.stands, counters := t.counters, rel := t.rel } ∧ (t.stand st).regs = (s.stand st).regs ∧
    ∀ m, m ≠ st → t.stand m = s.stand m
/-- No bank of the stand is OFF and every word reads clean (R100, R118). -/
def Stand.clean (x : Stand) : Prop := (∀ b, (x.bank b).power ≠ .off) ∧ ∀ a, Tab.get 0 x.wrongBits a = 0
/-- n words of a stand from a on. -/
def Stand.run (x : Stand) (a n : Nat) : List Word := (List.range n).map fun i => x.word (a + i)
/-- A CGRANT that node n answers. -/
def State.grantMsg (s : State) (n dst dinc : Nat) (m : CgrantMsg) : Packet :=
  { src := n, dst, dincv := true, sinc := (s.node n).inc, dinc, body := .cgrant m }
/-- The stand after the controller moved to the next instruction (R149). -/
def Stand.stepped (x : Stand) : Stand := { x with pc := x.pc + 1 }
/-- Register r takes v, g0 ignores it; every other register and the rest of the stand stay (R149). -/
def Stand.putsReg (x y : Stand) (r : Nat) (v : Word) : Prop :=
  y.reg r = (if r = 0 then 0 else v) ∧ (∀ q, q ≠ r → y.reg q = x.reg q) ∧ y = { x with regs := y.regs }
/-- The command waits for the next boundary as a block, whose effect there is that of state t (9.3). -/
def State.blockOf (s : State) (i : Instr) (b : List Byte) (t : State) : Prop :=
  exec i s = .next { s with weights := { s.weights with cmds := s.weights.cmds ++ [b] } } ∧ s.weightCmd b = t
/-- Tier A and every byte outside the master areas stay (R309). -/
def State.outsideMaster (s t : State) : Prop :=
  t.mem.tierA = s.mem.tierA ∧ ∀ a, a < 64000000000 ∨ 69265920000 ≤ a → Tab.get 0 t.mem.tierB a = Tab.get 0 s.mem.tierB a
/-- A request took the next place of an arbiter's queue, and nothing else changed but the holder's progress (R321, R325). -/
def State.parked (s t : State) (arb : Nat) (q : ArbReq) : Prop :=
  t = { s with mem := { s.mem with arbs := t.mem.arbs } } ∧ (∀ k, k ≠ arb → t.arb k = s.arb k) ∧
    t.arb arb = { s.arb arb with queue := (s.arb arb).queue ++ [q], holder := (t.arb arb).holder }
/-- The bytes of a transport frame that an Ethernet frame brings to port p: from its partner on a grove port, in an IPv6 packet from a
peer on a canopy port (R338, R342). -/
def State.carries (s : State) (p : Nat) (e : Ether) (peer : Nat) (b : List Byte) : Prop :=
  let n := fun o k => beNat (slice e.data o k)
  let udp := s.setting (entryKey 0x2600 9) 51200
  ((p < 12 ∧ (s.port p).pcs = true ∧ peer = 0 ∧ e.vlan = none ∧ e.etype = 0x88B5 ∧ e.dst = portMac p ∧ b = e.data) ∨
    (12 ≤ p ∧ (s.port p).pcs = true ∧ e.vlan = none ∧ e.etype = 0x86DD ∧ n 0 1 / 16 = 6 ∧ n 6 1 = 17 ∧ peer = n 8 16 ∧
      slice e.data 24 16 = s.ownAddr p ∧ n 40 2 = udp ∧ n 42 2 = udp ∧ b = e.data.drop 48))

end Sys2Proof.Machine
end

