-- ==== Sys2Proof/Certificates/Slice0/Obligations.lean ====
section
/-! DEFINITION. The statements for the provers. -/

open Sys2Proof Sys2Proof.Machine

/-- A step runs the command at the front of the queue on the state with the rest of it; on an empty queue one tick passes, the
model's choice (log 1). -/
def Obligations.StepRunsFront : Prop :=
  (∀ (s : State) (c : Instr) (rest : List Instr), s.pending = c :: rest → step s = exec c { s with pending := rest }) ∧
  ∀ s : State, s.pending = [] → ∃ t, step s = .next t ∧ t.time = { s.time with tick := s.time.tick + 1 } ∧
    t.rel = { s.rel with wall := if s.rel.wallSet then s.rel.wall + 10 else s.rel.wall } ∧
    t = { s with time := t.time, rel := t.rel, counters := t.counters, freeCtr := t.freeCtr } ∧
    ∀ k, k ≠ 0x513002 → k ≠ 0x511002 → k ∉ timedCounters → t.counter k = s.counter k

/-- What reset leaves, for the pieces whose reset value the spec states. -/
def Obligations.ResetValues : Prop :=
  let s := State.reset
  s.time.len = 800 ∧ s.time.beat = 0 ∧ s.time.tick = 0 ∧ s.time.slip = 0 ∧ s.serving.state = 0 ∧ s.weights.staging = none ∧
    s.weights.sw.st = 0 ∧ s.rel.health = 0 ∧ s.rel.logCount = 0 ∧ s.rel.wallSet = false ∧ (∀ p, (s.port p).st = 0) ∧ s.host.word = 0 ∧
    s.power.state = 0 ∧ (∀ k, s.counter k = 0) ∧ (∀ st r, (s.stand st).reg r = 0) ∧ (∀ n, (s.node n).inc = 1) ∧
    (∀ b a, s.tierByte b a = 0) ∧ s.mem.wf = true ∧ s.pending = [] ∧ s.outbox = []

/-- Every step keeps the lasting record legal. -/
def Obligations.SafeKept : Prop := ∀ s t : State, s.safe → step s = .next t → t.safe

/-- The state right after reset satisfies the invariant. -/
def Obligations.ResetSafe : Prop := State.reset.safe

/-- No step leads out of SCRAPPED or lowers the firmware floor. -/
def Obligations.ScrappedFinal : Prop :=
  ∀ s t : State, step s = .next t → (s.power.lifecycle = 4 → t.power.lifecycle = 4) ∧ s.power.fwFloor ≤ t.power.fwFloor

/-- No command touches the queue; a step removes exactly its first command. -/
def Obligations.QueueIsFifo : Prop :=
  (∀ (c : Instr) (s t : State), exec c s = .next t → t.pending = s.pending) ∧
    ∀ s t : State, step s = .next t → t.pending = s.pending.tail

/-- Scalar instructions at a free controller. -/
def Obligations.ScalarIssue : Prop :=
  ∀ (s : State) (st : StandId), s.issues st →
    let ok := fun (c : Instr) (p : Stand → Stand → Prop) =>
      ∃ t, exec c s = .next t ∧ s.onlyStand t st ∧ s.countsOnly t 0x525001 1 ∧ p (s.stand st).stepped (t.stand st)
    ok (.nop st) (fun x y => y = x) ∧
    (∀ gd imm, ok (.li st gd imm) fun x y => x.putsReg y gd imm) ∧
    (∀ gd ga gb immf func imm, func.val ≤ 10 → ok (.alu st gd ga gb immf func imm) fun x y =>
      x.putsReg y gd (aluOp func (x.reg ga) (if immf then imm.signExtend 32 else x.reg gb))) ∧
    (∀ cond ga gb target, cond.val ≤ 6 → ok (.br st cond ga gb target) fun x y =>
      y = if brTaken cond (x.reg ga) (x.reg gb) then { x with pc := target } else x) ∧
    ok (.bend st) (fun x y => y = { x with bended := true })

/-- The operations of ALU. -/
def Obligations.AluTable : Prop :=
  ∀ a b : Word,
    (aluOp 0 a b).toNat = (a.toNat + b.toNat) % 2 ^ 32 ∧ (aluOp 1 a b).toInt = (a.toInt - b.toInt).bmod (2 ^ 32) ∧
    (∀ i, (aluOp 2 a b).getLsbD i = (a.getLsbD i && b.getLsbD i)) ∧ (∀ i, (aluOp 3 a b).getLsbD i = (a.getLsbD i || b.getLsbD i)) ∧
    (∀ i, (aluOp 4 a b).getLsbD i = (a.getLsbD i ^^ b.getLsbD i)) ∧
    (aluOp 5 a b).toNat = a.toNat * 2 ^ (b.toNat % 32) % 2 ^ 32 ∧ (aluOp 6 a b).toNat = a.toNat / 2 ^ (b.toNat % 32) ∧
    (aluOp 7 a b).toInt = a.toInt / 2 ^ (b.toNat % 32) ∧ (aluOp 8 a b).toNat = a.toNat * b.toNat % 2 ^ 32 ∧
    aluOp 9 a b = (if a.toInt < b.toInt then 1 else 0) ∧ aluOp 10 a b = (if a.toNat < b.toNat then 1 else 0)

/-- g0 reads 0 and ignores writes. -/
def Obligations.RegisterZero : Prop := ∀ (x : Stand) (v : Word), x.reg 0 = 0 ∧ x.putReg 0 v = x

/-- LDW and STW at a free controller. -/
def Obligations.WordAccess : Prop :=
  ∀ (s : State) (st : StandId) (r ga : Reg) (off : BitVec 16), s.issues st →
    let a := ((s.g st ga) + off.toNat) % 65536
    let x := s.stand st
    let isOff := (x.bank (a / 2048)).power = .off
    (∃ t, exec (.ldw st r ga off) s = .next t ∧ (t.stand st).reg r = (if r.val = 0 ∨ isOff then 0 else x.word a) ∧
      (∀ q : Nat, q ≠ r.val → (t.stand st).reg q = x.reg q) ∧ (∀ b, (t.stand st).word b = x.word b) ∧
      (∀ m, m ≠ st.val → t.stand m = s.stand m) ∧ t.mem = s.mem ∧ (t.stand st).pc = x.pc + 1) ∧
    (∃ t, exec (.stw st r ga off) s = .next t ∧ (∀ q, (t.stand st).reg q = x.reg q) ∧
      (∀ b, (t.stand st).word b = if b % 65536 = a ∧ ¬ isOff then x.reg r else x.word b) ∧
      (∀ m, m ≠ st.val → t.stand m = s.stand m) ∧ t.mem = s.mem ∧ (t.stand st).pc = x.pc + 1)

/-- The implicit BEND; RDCTL and WAIT at a free controller. -/
def Obligations.ControlReads : Prop :=
  (∀ (s : State) (st : StandId), s.inBeat st = true → s.pastImage st = true → ∃ t, exec (.implicitBend st) s = .next t ∧
    t.stand st = { s.stand st with bended := true } ∧ t = { s with stands := t.stands, rel := t.rel, counters := t.counters } ∧
    (∀ m, m ≠ st.val → t.stand m = s.stand m) ∧ ∀ k, k ≠ 0x540002 → t.counter k = s.counter k) ∧
  ∀ (s : State) (st : StandId), s.issues st →
    let x := (s.stand st).stepped
    (∀ gd clr arg sel, ∃ t, exec (.rdctl st gd clr arg sel) s = .next t ∧
      (t.stand st).reg gd = (if gd.val = 0 then 0 else s.rdctl st arg sel) ∧ (∀ q : Nat, q ≠ gd.val → (t.stand st).reg q = x.reg q) ∧
      (∀ k : Nat, ((t.stand st).credit.win k).flags =
        if k = arg.val ∧ sel.val = 3 ∧ clr then (0 : BitVec 32) else (x.credit.win k).flags) ∧
      (t.stand st).voidFlags = (if sel.val = 4 ∧ clr then 0 else x.voidFlags) ∧
      (∀ m, m ≠ st.val → t.stand m = s.stand m) ∧ t.mem = s.mem ∧ s.countsOnly t 0x525001 1) ∧
    (∀ cores dmu vec net dma tile, (s.stand st).waitMet cores dmu vec net dma tile = true →
      ∃ t, exec (.wait st cores dmu vec net dma tile) s = .next t ∧ s.onlyStand t st ∧ s.countsOnly t 0x525001 1 ∧ t.stand st = x) ∧
    (∀ cores dmu vec net dma tile, (s.stand st).waitMet cores dmu vec net dma tile = false →
      ∃ t, exec (.wait st cores dmu vec net dma tile) s = .next t ∧ s.onlyStand t st ∧
      t.stand st = { s.stand st with backlog := [.wait st cores dmu vec net dma tile], headSince := s.time.tick })

/-- An idle controller issues nothing; a controller that holds an instruction holds the next one behind it. -/
def Obligations.IdleController : Prop :=
  ∀ (s : State) (st : StandId) (gd : Reg) (imm : Word),
    (s.canIssue st = false → exec (.li st gd imm) s = .next s) ∧
    (s.canIssue st = true → (s.stand st).backlog ≠ [] → ∃ t, exec (.li st gd imm) s = .next t ∧ s.onlyStand t st ∧
      t.stand st = { s.stand st with backlog := (s.stand st).backlog ++ [.li st gd imm] })

/-- Rows, row groups and activation weights of a pass (R40, R45, R46). -/
def Obligations.PassGeometry : Prop :=
  ∀ (op : PassOp) (budget : Nat), op.first < 1024 → 1 ≤ op.nrows → 0 < budget →
    passRows op = min (op.first + op.nrows) 1024 - 1 - op.first + 1 ∧
    (∀ r q, r ∈ groupRows op budget q ↔ op.first + q * budget ≤ r ∧ r < op.first + (q + 1) * budget ∧ r < min (op.first + op.nrows) 1024) ∧
    (∀ r, op.first ≤ r → r < min (op.first + op.nrows) 1024 →
      ∃ q, q < groups (passRows op) budget ∧ r ∈ groupRows op budget q ∧ ∀ q', r ∈ groupRows op budget q' → q' = q) ∧
    ∀ b j, j < b → aw b false j = 2 ^ j ∧ aw b true j = if j + 1 = b then -(2 ^ j : Int) else 2 ^ j

/-- The requantizer's arithmetic (R73). -/
def Obligations.RequantFormula : Prop :=
  ∀ (acc m z : Int) (sh : Nat),
    (let q := requantV acc m sh z - z
     2 * (q * 2 ^ sh - acc * m) ≤ 2 ^ sh ∧ -(2 ^ sh : Int) ≤ 2 * (q * 2 ^ sh - acc * m) ∧
       ((2 * (q * 2 ^ sh - acc * m) = 2 ^ sh ∨ -(2 ^ sh : Int) = 2 * (q * 2 ^ sh - acc * m)) → q % 2 = 0)) ∧
    (∀ lo hi v : Int, lo ≤ hi → lo ≤ clip lo hi v ∧ clip lo hi v ≤ hi ∧ (clips lo hi v = true ↔ v < lo ∨ hi < v) ∧
      (clips lo hi v = false → clip lo hi v = v) ∧ (v < lo → clip lo hi v = lo) ∧ (hi < v → clip lo hi v = hi)) ∧
    requantV (-35) 3 2 0 = -26 ∧ requantV 25 6 2 0 = 38 ∧ requantV 18 1 2 0 = 4 ∧ requantV (-18) 1 2 0 = -4 ∧
    requantV 1000 1717986918 33 0 = 200

/-- VLD, PASS and RQNT at a free controller, for every mask of positions. -/
def Obligations.CoreIssue : Prop :=
  ∀ (s : State) (st : StandId) (pos : BitVec 16) (c : Instr), s.issues st →
    ((∃ slot ga stride, c = .vld st pos slot ga stride) ∨
     (∃ slot bsel first nrows width sign dense acc, passFields nrows width = true ∧
        c = .pass st pos slot bsel first nrows width sign dense acc) ∨
     ∃ p firsto nout mode fmt sign gt gd, rqntFields firsto nout mode fmt sign = true ∧ pos = BitVec.ofNat 16 (2 ^ p.val) ∧
        c = .rqnt st p firsto nout mode fmt sign gt gd) →
    (s.coresRoom st pos = true → s.gives c fun t => s.issuedAt t st) ∧
    (s.coresRoom st pos = false → s.gives c fun t => s.onlyStand t st ∧
      t.stand st = { s.stand st with backlog := [c], headSince := s.time.tick })

/-- A load of an idle position. -/
def Obligations.LoadAtIdle : Prop :=
  ∀ (s : State) (st : StandId) (p : Pos) (slot : Fin 2) (ga : Reg) (stride : BitVec 16) (c : Nat),
    let x := s.stand st
    let a := wa (s.g st ga + p * stride.toNat)
    let h := x.vec a
    let i := Instr.vld st (BitVec.ofNat 16 (2 ^ p.val)) slot ga stride
    s.issues st → s.fill st p = some c → x.pos p = {} → x.repeatHolds p = false → x.paired p = false → (∀ b, (x.bank b).power ≠ .off) → (∀ b, Tab.get 0 x.wrongBits b = 0) →
    (h.pend = true → s.gives i fun t => (t.stand st).pos p = { queue := [.vld slot a] } ∧ t.cores = s.cores) ∧
    (h.pend = false → (5 < h.fmt ∨ h.count = 0 ∨ 1024 < h.count) → s.gives i fun t =>
      (t.stand st).pos p = {} ∧ (t.core st c).slot slot = { src := some a }) ∧
    (h.pend = false → h.fmt ≤ 5 → 1 ≤ h.count → h.count ≤ 1024 → s.gives i fun t =>
      (t.stand st).pos p = {} ∧ (∀ q : Nat, q ≠ p.val → (t.stand st).pos q = x.pos q) ∧
      (∀ k, Tab.get 0 ((t.core st c).slot slot).elems k = if k < h.count
        then BitVec.ofInt 16 (elemInt h.fmt h.signed ((List.range 1024).map fun j => x.word (a + 1 + j)) k) else 0) ∧
      ((t.core st c).slot slot).width = some h.fmt ∧ (t.core st c).slot (1 - slot.val) = (s.core st c).slot (1 - slot.val) ∧
      (t.core st c).acc = (s.core st c).acc ∧ (t.core st c).bankA = (s.core st c).bankA ∧ (t.core st c).bankB = (s.core st c).bankB ∧
      (∀ n, n ≠ arrayNo st c → Tab.get {} t.cores n = Tab.get {} s.cores n))

/-- A pass at an idle position. -/
def Obligations.PassAtIdle : Prop :=
  ∀ (s : State) (st : StandId) (p : Pos) (slot : Fin 2) (bsel : Fin 4) (first : Fin 1024) (nrows : Fin 2048) (width : Fin 8)
    (sign dense acc : Bool) (c : Nat),
    let x := s.stand st
    s.issues st → s.fill st p = some c → x.pos p = {} → x.repeatHolds p = false → x.tile = none → passFields nrows width = true →
    s.gives (.pass st (BitVec.ofNat 16 (2 ^ p.val)) slot bsel first nrows width sign dense acc) fun t =>
      let y := s.core st c
      let op : PassOp := { slot, bsel, first, nrows, width, sign, dense, acc, tile := none }
      t.cores = s.cores ∧ (∀ q : Nat, q ≠ p.val → (t.stand st).pos q = x.pos q) ∧ ((t.stand st).pos p).queue = [] ∧
      ∃ j : PassJob, ((t.stand st).pos p).passes = [j] ∧ j.op = op ∧ j.reexec = none ∧
        j.bankB = (if bsel.val = 0 then y.bptrB else if bsel.val = 1 then !y.bptrB else decide (bsel.val = 3)) ∧
        (j.conflict = true ↔ (y.bank j.bankB).st ≠ .compute) ∧
        j.bits = max (fmtBits width) (((y.slot slot).width.map fmtBits).getD 0) ∧
        (dense = false → j.budget = 256) ∧ (j.budget = 256 ∨ j.budget = 512) ∧
        (x.units = [] → dense = true → (j.budget = 512 ↔ 512 ≤ s.setting 0x220003 4096)) ∧
        (j.paired = true ↔ (if j.bankB then x.pairB else x.pairA) = some p.val)

/-- The verdict of a pass. -/
def Obligations.PassVerdicts : Prop :=
  ∀ (s : State) (st : StandId) (p : Pos) (ds : List Disturb) (c : Nat) (j : PassJob) (r : List PassJob),
    let x := s.stand st
    let y := s.core st c
    s.fill st p = some c → (x.pos p).passes = j :: r → (x.pos p).queue = [] →
    (j.conflict = true → s.gives (.passVerdict st p ds) fun t =>
      t.cores = s.cores ∧ ((t.stand st).pos p).passes = r ∧ t.counter 0x522007 = (s.counter 0x522007 + 1) % 2 ^ 64 ∧ s.standWork t st) ∧
    (j.conflict = false → j.paired = false → jobBad y j ds = none → s.gives (.passVerdict st p ds) fun t =>
      (∀ o, o < outputsOf (y.bank j.bankB).layout → Tab.get 0 (t.core st c).acc o =
        (if j.op.acc then Tab.get 0 y.acc o else 0) + BitVec.ofInt 48 (passSum j.op (y.slot j.op.slot) (y.bank j.bankB) j.budget j.bits ds o)) ∧
      (∀ o, outputsOf (y.bank j.bankB).layout ≤ o → Tab.get 0 (t.core st c).acc o = Tab.get 0 y.acc o) ∧
      ((t.stand st).pos p).passes = r ∧ (∀ n, n ≠ arrayNo st c → Tab.get {} t.cores n = Tab.get {} s.cores n) ∧
      (t.stand st).regs = x.regs ∧ (t.stand st).spad = x.spad) ∧
    (j.conflict = false → j.paired = false → ∀ k, jobBad y j ds = some k → j.reexec = none → s.gives (.passVerdict st p ds) fun t =>
      (t.core st c).acc = y.acc ∧ (t.core st c).fenced = y.fenced ∧ (t.core st c).lastMismatch = s.time.beat ∧
      ((t.stand st).pos p).passes = { j with reexec := some k } :: r ∧ t.counter 0x522004 = (s.counter 0x522004 + 1) % 2 ^ 64) ∧
    (j.conflict = false → j.paired = false → ∀ k, jobBad y j ds = some k → j.reexec.isSome → s.gives (.passVerdict st p ds) fun t =>
      (t.core st c).acc = y.acc ∧ (t.core st c).fenced = true ∧ (t.stand st).pos p = {} ∧ t.fill st p = none ∧
      t.counter 0x522004 = (s.counter 0x522004 + 1) % 2 ^ 64 ∧ t.counter 0x522006 = (s.counter 0x522006 + 1) % 2 ^ 64)

/-- A requantizer output. -/
def Obligations.RequantizerOutput : Prop :=
  ∀ (s : State) (st : StandId) (p : Pos) (c : Nat) (j : RqJob), s.fill st p = some c →
    ((((s.stand st).pos p).rq = none ∨ (((s.stand st).pos p).rq = some j ∧ 0 < j.earlier)) → exec (.requantizerOutput st p) s = .next s) ∧
    (((s.stand st).pos p).rq = some j → j.earlier = 0 → (j.next + 4 < j.op.nout ∨ ((s.stand st).pos p).queue = []) → s.gives (.requantizerOutput st p) fun t =>
      let n := min 4 (j.op.nout - j.next)
      ((t.stand st).pos p).rq = (if j.next + n < j.op.nout then some { j with next := j.next + n } else none) ∧
      t.cores = s.cores ∧ s.standWork t st ∧ (t.stand st).credit = (s.stand st).credit ∧
      (t.counter 0x522201 = if j.op.mode = 2 then s.counter 0x522201 else (s.counter 0x522201 + n) % 2 ^ 64) ∧
      (j.op.mode = 2 → (∀ b, ((s.stand st).bank b).power ≠ .off) → ∀ i, i < n →
        let a := j.op.gd + 1 + 2 * (j.next + i)
        (t.stand st).word (a + 1) ++ (t.stand st).word a = (s.accOf st p c (j.op.firsto + j.next + i)).signExtend 64))

/-- A requantize step at an idle position. -/
def Obligations.RequantAtIdle : Prop :=
  ∀ (s : State) (st : StandId) (p : Pos) (firsto : Fin 128) (nout : Fin 256) (mode : Fin 4) (fmt : Fin 8) (sign : Bool) (gt gd : Reg) (c : Nat),
    let x := s.stand st
    s.issues st → s.fill st p = some c → x.pos p = {} → x.repeatHolds p = false → x.tile = none → rqntFields firsto nout mode fmt sign = true →
    s.gives (.rqnt st p firsto nout mode fmt sign gt gd) fun t => t.cores = s.cores ∧
      (mode.val = 2 ∨ x.clean →
        (let op : RqOp := { firsto, nout, mode, fmt, sign, gt := s.g st gt, gd := s.g st gd, tile := none }
         let es := if mode.val = 2 then [] else x.run (s.g st gt + 2 * firsto) (2 * nout)
         (t.stand st).pos p = { rq := some { op := op, entries := es } }) ∧
        ∀ q : Nat, q ≠ p.val → (t.stand st).pos q = x.pos q) ∧ s.issuedAt t st

/-- TOPEN, TCLOSE and TILE_VERDICT. -/
def Obligations.TileCommands : Prop :=
  ∀ (s : State) (st : StandId),
    let x := s.stand st
    (∀ (n : BitVec 16) w, s.issues st → s.tileWord n.toNat = some w →
      (x.tileRoom = true → s.gives (.topen st n) fun t => s.issuedAt t st ∧ t.cores = s.cores ∧
        (t.stand st).tiles = x.tiles ++ x.tile.toList ∧
        ∃ k, (t.stand st).tile = some k ∧ k.num = n.toNat ∧ k.word = BitVec.ofNat 64 w ∧ k.outputs = 0 ∧ k.clips = 0 ∧ k.steps = [] ∧
          k.thresh = (if bits w 47 32 = 65535 then s.setting 0x222001 16 else bits w 47 32) ∧ k.mode = s.setting 0x222002 1 ∧
          k.fmt = bits w 28 26) ∧
      (x.tileRoom = false → s.gives (.topen st n) fun t => s.onlyStand t st ∧
        t.stand st = { x with backlog := [.topen st n], headSince := s.time.tick })) ∧
    (s.issues st → s.gives (.tclose st) fun t => s.issuedAt t st ∧ t.cores = s.cores ∧ (t.stand st).tile = none ∧
      (t.stand st).tiles = x.tiles ++ x.tile.toList) ∧
    (∀ k, x.tiles.head? = some k → k.deferred = false → x.tileBusy k.uid = false → k.fires = false → s.gives (.tileVerdict st 0) fun t =>
      s.standWork t st ∧ (t.stand st).tiles = x.tiles.filter (fun u => u.uid ≠ k.uid) ∧
      (∀ a, a ∉ k.vectors.map wa → a < 65536 → (t.stand st).word a = x.word a) ∧
      ∀ a, a ∈ k.vectors → (t.stand st).vec a = { x.vec a with pend := false })

/-- When a tile fires, to which format, and what its verdict then does. -/
def Obligations.TileFires : Prop :=
  (∀ k : Tile, k.fires = true ↔ k.mode = 1 ∧ bit k.word.toNat 24 = true ∧ k.outputs ≠ 0 ∧ k.outputs * k.thresh < k.clips * 65536) ∧
  (∀ (k : Tile) (f : Nat), k.nextFmt = some f ↔ k.passes ≤ 256 ∧ f ≤ bits k.word.toNat 31 29 ∧ f = k.fmt + 1 ∧
    (k.fmt < 4 ∨ (k.fmt = 4 ∧ bit k.word.toNat 25 = true))) ∧
  ∀ (s : State) (st : StandId) (k : Tile), (s.stand st).tiles.head? = some k → k.deferred = false → (s.stand st).tileBusy k.uid = false →
    k.fires = true → s.gives (.tileVerdict st 0) fun t =>
      t.counter 0x522203 = (s.counter 0x522203 + 1) % 2 ^ 64 ∧ t.rel.sentLog = s.rel.sentLog + 1 ∧
      (∀ f, k.nextFmt = some f →
        let e := if k.cost + k.repeatCost ≤ bits k.word.toNat 63 48 ∨ (s.count 0x522203).bankChangeNext st k = true then 0x522204 else 0x522205
        t.counter e = (s.counter e + 1) % 2 ^ 64) ∧
      (k.nextFmt = none → t.cores = s.cores ∧ t.counter 0x522206 = (s.counter 0x522206 + 1) % 2 ^ 64 ∧
        (t.stand st).tiles = (s.stand st).tiles.filter fun u => u.uid ≠ k.uid)

/-- WOPEN, WCLOSE and WREL at a free controller. -/
def Obligations.WindowCommands : Prop :=
  ∀ (s : State) (st : StandId), s.issues st →
    let x := s.stand st
    let rest := fun (t : State) => (t.stand st).pc = x.pc + 1 ∧ (t.stand st).regs = x.regs ∧ t.mem = s.mem ∧
      ∀ m, m ≠ st.val → t.stand m = s.stand m
    (∀ (k : WSlot) (b : SBank) (first : RowNo) (count : Fin 64), wopenFields first count = true →
      let free := (x.credit.win k).st = .closed ∧ x.credit.overlaps b first count = false
      ((x.bank b).power = .waking → s.gives (.wopen st k b first count) fun t =>
        t.stand st = { x with backlog := [.wopen st k b first count], headSince := s.time.tick }) ∧
      ((x.bank b).power = .on → free → s.gives (.wopen st k b first count) fun t => rest t ∧ s.onlyStand t st ∧
        (t.stand st).credit.win k = { st := .opened, bank := b, first := first, count := count, gen := (x.credit.win k).gen } ∧
        (∀ j : Nat, j ≠ k.val → (t.stand st).credit.win j = x.credit.win j) ∧ (t.stand st).spad = x.spad) ∧
      ((x.bank b).power ≠ .waking → ((x.bank b).power ≠ .on ∨ ¬ free) → s.gives (.wopen st k b first count) fun t =>
        t.stand st = x.stepped ∧ rest t)) ∧
    (∀ k : WSlot, s.gives (.wclose st k) fun t => rest t ∧
      ((x.credit.win k).st ≠ .opened → t.stand st = x.stepped ∧ t.mesh = s.mesh) ∧
      ((x.credit.win k).st = .opened → (x.bank (x.credit.win k).bank).power = .on → (t.stand st).credit.win k =
        if (x.credit.win k).full then { gen := (x.credit.win k).gen, flags := (x.credit.win k).flags }
        else { x.credit.win k with st := .closing, deadline := s.time.tick + 2000 })) ∧
    ∀ (k : WSlot) (rows : BitVec 32), s.gives (.wrel st k rows) fun t => rest t ∧
      ((x.credit.win k).st = .opened → (x.bank (x.credit.win k).bank).power = .on → x.credit.queue = [] → ((t.stand st).credit.win k).st = .opened ∧
        ((t.stand st).credit.win k).gen = (x.credit.win k).gen ∧
        ∀ r, ((t.stand st).credit.win k).row r =
          if r < 32 ∧ rows.getLsbD r ∧ ((x.credit.win k).row r).isFilled then .free else (x.credit.win k).row r)

/-- BPDN, BWAKE, BANK_WAKE_DONE and GATE_WAIT_EXPIRY. -/
def Obligations.BankPower : Prop :=
  ∀ (s : State) (st : StandId) (b : SBank),
    let x := s.stand st
    let inB := fun (a : Nat) => a < 65536 ∧ a / 2048 = b.val
    (s.issues st → (x.bank b).power = .on → s.gives (.bpdn st b) fun t =>
      ((t.stand st).bank b).power = (if (x.credit.inBank b).all fun k => (x.credit.win k).full then .off else .closing) ∧
      (((t.stand st).bank b).power = .closing → ((t.stand st).bank b).deadline = s.time.tick + 2000) ∧
      (((t.stand st).bank b).power = .off → ∀ a, inB a → (t.stand st).word a = 0) ∧
      (t.stand st).regs = x.regs ∧ (t.stand st).pc = x.pc + 1 ∧ (∀ m, m ≠ st.val → t.stand m = s.stand m) ∧ t.mem = s.mem) ∧
    (s.issues st → (x.bank b).power = .off ∨ (x.bank b).power = .closing → s.gives (.bpdn st b) fun t =>
      t.stand st = x.stepped ∧ s.onlyStand t st) ∧
    (s.issues st → (x.bank b).power = .waking → s.gives (.bpdn st b) fun t => s.onlyStand t st ∧
      t.stand st = { x with backlog := [.bpdn st b], headSince := s.time.tick }) ∧
    (s.issues st → (x.bank b).power = .off → s.gives (.bwake st b) fun t => s.onlyStand t st ∧
      ((t.stand st).bank b).power = .waking ∧ (∀ k : Nat, k ≠ b.val → (t.stand st).bank k = x.bank k) ∧
      ∀ a, a < 65536 → (t.stand st).word a = if a / 2048 = b.val then 0 else x.word a) ∧
    (s.issues st → (x.bank b).power ≠ .off → s.gives (.bwake st b) fun t => s.onlyStand t st ∧ t.stand st = x.stepped) ∧
    (s.gives (.bankWakeDone st b) fun t => s.onlyStand t st ∧ t.counters = s.counters ∧
      ((t.stand st).bank b).power = (if (x.bank b).power = .waking then .on else (x.bank b).power) ∧ (t.stand st).spad = x.spad) ∧
    ((x.bank b).power = .closing → (x.bank b).deadline ≤ s.time.tick → s.gives (.gateWaitExpiry st (.bank b)) fun t =>
      ((t.stand st).bank b).power = .off ∧ (∀ a, inB a → (t.stand st).word a = 0) ∧
      (∀ k, k ∈ x.credit.inBank b → ((t.stand st).credit.win k).st = .closed) ∧
      t.counter 0x523006 = (s.counter 0x523006 + 1) % 2 ^ 64 ∧ (t.stand st).regs = x.regs ∧ ∀ m, m ≠ st.val → t.stand m = s.stand m) ∧
    (∀ k : WSlot, (x.credit.win k).st = .closing → (x.credit.win k).deadline ≤ s.time.tick → (x.bank (x.credit.win k).bank).power ≠ .closing →
      s.gives (.gateWaitExpiry st (.window k)) fun t => ((t.stand st).credit.win k).st = .closed ∧
        ((t.stand st).credit.win k).gen = (if (x.credit.win k).full then (x.credit.win k).gen else ((x.credit.win k).gen + 1) % 256) ∧
        ((t.stand st).bank (x.credit.win k).bank).power = (x.bank (x.credit.win k).bank).power ∧
        (∀ a, a < 65536 → a / 2048 = (x.credit.win k).bank → (t.stand st).word a = x.word a) ∧
        t.counter 0x523006 = (s.counter 0x523006 + 1) % 2 ^ 64) ∧
    (∀ k : WSlot, (x.credit.win k).st = .closing → (x.credit.win k).deadline ≤ s.time.tick → (x.credit.win k).bank = b.val →
      (x.bank b).power = .closing → (x.credit.win k).deadline < (x.bank b).deadline →
      (∀ j, j ∈ x.credit.inBank b → j ≠ k.val → (x.credit.win j).full = true) →
      s.gives (.gateWaitExpiry st (.window k)) fun t => ((t.stand st).credit.win k).st = .closed ∧ ((t.stand st).bank b).power = .off ∧
        (∀ a, inB a → (t.stand st).word a = 0) ∧ t.counter 0x523006 = (s.counter 0x523006 + 1) % 2 ^ 64) ∧
    (s.time.tick < (x.bank b).deadline → exec (.gateWaitExpiry st (.bank b)) s = .next s)

/-- The answer to a credit request. -/
def Obligations.CreditRequests : Prop :=
  ∀ (s : State) (node : NodeId) (p : Packet) (m : CreqMsg), p.body = .creq m →
    (s.inOrder p = false → exec (.creqReceive node p) s = .next s) ∧ (s.inOrder p = true →
    let u := s.credit node
    let w := u.win m.window
    let tells := fun (t : State) (status mask : Nat) => t.mesh = dropFirst p s.mesh ++
      [s.grantMsg node p.src p.sinc { window := m.window, status, gen := w.gen, mask := BitVec.ofNat 32 mask, tag := m.tag }]
    let behind := u.queue.any fun q => q.msg.window = m.window
    (s.isAway node = true → s.gives (.creqReceive node p) fun t => t = { s with mesh := t.mesh, counters := t.counters } ∧
      t.mesh = dropFirst p s.mesh ++
        [{ src := p.dst, dst := p.src, dincv := true, sinc := (s.node p.dst).inc, dinc := p.sinc,
           body := .away 0 (BitVec.ofNat 32 (encCreq m)) 0 }]) ∧
    (s.isAway node = false → w.st ≠ .opened → s.gives (.creqReceive node p) fun t => tells t 1 0 ∧ t = { s with mesh := t.mesh }) ∧
    (s.isAway node = false → w.st = .opened → creqMalformed w m = true → s.gives (.creqReceive node p) fun t =>
      tells t 3 0 ∧ t = { s with mesh := t.mesh }) ∧
    (s.isAway node = false → w.st = .opened → creqMalformed w m = false → behind = false → ∀ rows, creqRows w m = some rows →
      s.gives (.creqReceive node p) fun t => tells t 0 (maskOf rows) ∧ (t.credit node).queue = u.queue ∧
        (∀ r, ((t.credit node).win m.window).row r = if r ∈ rows then .granted p.src 0 none else w.row r) ∧
        (∀ k, k ≠ m.window → (t.credit node).win k = u.win k) ∧ t.counter 0x523005 = (s.counter 0x523005 + rows.length) % 2 ^ 64) ∧
    (s.isAway node = false → w.st = .opened → creqMalformed w m = false → (behind = true ∨ creqRows w m = none) →
      (u.queue.length < 16 → s.gives (.creqReceive node p) fun t => t.mesh = dropFirst p s.mesh ∧
        (t.credit node).queue = u.queue ++ [{ src := p.src, sinc := p.sinc, msg := m }] ∧ ∀ k, (t.credit node).win k = u.win k) ∧
      (16 ≤ u.queue.length → s.gives (.creqReceive node p) fun t => tells t 2 0 ∧ t = { s with mesh := t.mesh, counters := t.counters } ∧
        t.counter 0x52300A = (s.counter 0x52300A + 1) % 2 ^ 64)))

/-- What a stand does with CGRANT, CREDIT_VOID and AWAY. -/
def Obligations.CreditAnswers : Prop :=
  ∀ (s : State) (node : NodeId) (p : Packet), node.val < 5000 → s.inOrder p = true →
    let x := s.stand node
    (∀ m, p.body = .cgrant m → s.staleGrant node p = true →
      (s.gives (.cgrantReceive node p) fun t => t.stands = s.stands ∧ t.counter 0x523009 = (s.counter 0x523009 + 1) % 2 ^ 64) ∧
      (s.gives (.creditVoidReceive node p) fun t => t.stands = s.stands ∧ t.counter 0x523009 = (s.counter 0x523009 + 1) % 2 ^ 64)) ∧
    (∀ m c, p.body = .cgrant m → s.staleGrant node p = false → x.creqs = [c] → c.dest = p.src → c.msg.window = m.window → c.msg.tag = m.tag →
      c.refused = none → s.gives (.cgrantReceive node p) fun t => t.mesh = dropFirst p s.mesh ∧ (∀ n, n ≠ node.val → t.stand n = s.stand n) ∧
        (m.status = 0 → (t.stand node).creqs = [] ∧ (t.stand node).sender =
          (x.sender.filter fun e => !(e.dest == p.src && e.window == m.window && m.mask.getLsbD e.row)) ++
          ((List.range 32).filter fun r => m.mask.getLsbD r).map fun r => { dest := p.src, window := m.window, row := r, gen := m.gen, writes := 0 }) ∧
        (m.status = 3 → (t.stand node).creqs = [] ∧ (t.stand node).sender = x.sender) ∧
        (m.status = 1 ∨ m.status = 2 → (t.stand node).creqs = [{ c with refused := some s.time.tick }] ∧ (t.stand node).sender = x.sender)) ∧
    (∀ m, p.body = .cgrant m → s.staleGrant node p = false → m.status = 4 → s.gives (.creditVoidReceive node p) fun t =>
      t.mesh = dropFirst p s.mesh ∧ (∀ n, n ≠ node.val → t.stand n = s.stand n) ∧
      (∀ e, e ∈ (t.stand node).sender ↔ e ∈ x.sender ∧ ¬ (e.dest = p.src ∧ e.window = m.window ∧ m.mask.getLsbD e.row ∧ e.gen = m.gen)) ∧
      (t.stand node).voidFlags = x.voidFlags ||| BitVec.ofNat 16 (2 ^ m.window)) ∧
    (∀ rt w0 w1, p.body = .away rt w0 w1 → (p.dincv && p.dinc != (s.node node).inc) = true → s.gives (.awayReceive node p) fun t =>
      t.stands = s.stands ∧ t.counter 0x527009 = (s.counter 0x527009 + 1) % 2 ^ 64) ∧
    ∀ rt w0 w1, p.body = .away rt w0 w1 → (p.dincv && p.dinc != (s.node node).inc) = false → s.gives (.awayReceive node p) fun t =>
      (∀ n, n ≠ node.val → t.stand n = s.stand n) ∧ t.counters = s.counters ∧
      (rt = 2 ∨ rt = 3 → let h := decHdr (w0.toNat + w1.toNat * 2 ^ 32)
        (∀ e, e ∈ (t.stand node).sender ↔ e ∈ x.sender ∧ ¬ (e.dest = p.src ∧ e.window = h.window ∧ e.row = h.row)) ∧
        (t.stand node).voidFlags = x.voidFlags ||| BitVec.ofNat 16 (2 ^ h.window)) ∧
      (rt = 0 → ∀ c, x.creqs = [c] → c.dest = p.src → c.refused = none → BitVec.ofNat 32 (encCreq c.msg) = w0 →
        (t.stand node).creqs = [{ c with refused := some s.time.tick }])

/-- CREQ, RWR, MWR and RED at a free controller with an empty outbound queue. -/
def Obligations.OutboundSends : Prop :=
  ∀ (s : State) (st : StandId), s.issues st → (s.stand st).outQ = [] → (s.stand st).clean →
    let x := s.stand st
    let rest := fun (t : State) => (t.stand st).pc = x.pc + 1 ∧ (t.stand st).regs = x.regs ∧ (t.stand st).spad = x.spad ∧ t.mem = s.mem ∧
      ∀ m, m ≠ st.val → t.stand m = s.stand m
    (∀ dest (window : WSlot) count mode row (tag : BitVec 16), creqFields dest count mode row = true →
      let m : CreqMsg := { window := window.val, count := count.val, mode, row := row.val, tag := tag.toNat }
      s.gives (.creq st dest window count mode row tag) fun t => rest t ∧
        (x.taken + count ≤ 256 → t.mesh = s.mesh ++ [s.packet st dest.toNat (.creq m)] ∧ (t.stand st).outQ = [] ∧
          (t.stand st).creqs = x.creqs ++ [{ dest := dest.toNat, msg := m }]) ∧
        (256 < x.taken + count → t.mesh = s.mesh ∧ (t.stand st).outQ = [.creq dest.toNat m])) ∧
    (∀ dest (window : WSlot) (row : RowNo) offset length final nwrites (gs : Reg), destField dest = true → writeFields offset length final nwrites = true →
      let i := fun vec => Instr.rwr st dest window row offset length final nwrites gs vec
      (x.pendAt (s.g st gs) = true → s.gives (i true) fun t => rest t ∧ t.mesh = s.mesh ∧ (t.stand st).outQ.length = 1) ∧
      ∀ vec, (vec && x.pendAt (s.g st gs)) = false →
      (∀ e, x.entry dest.toNat window row = some e → s.gives (i vec) fun t => rest t ∧ (t.stand st).outQ = [] ∧
        t.mesh = s.mesh ++ [s.packet st dest.toNat (.write { window, row, gen := e.gen, offset, length, final, nwrites, reserved := 0 }
          (x.run (s.g st gs) length))] ∧
        (t.stand st).sender = (x.useEntry dest.toNat window row final).sender) ∧
      (x.entry dest.toNat window row = none → s.gives (i vec) fun t => rest t ∧ t.mesh = s.mesh ∧ (t.stand st).sender = x.sender ∧
        t.counter 0x525005 = (s.counter 0x525005 + 1) % 2 ^ 64)) ∧
    (∀ (gm : Reg) (window : WSlot) (row : RowNo) offset length final nwrites (gs : Reg), writeFields offset length final nwrites = true →
      let d := x.word (s.g st gm)
      ∀ vec, bit d.toNat 31 = false → (vec && x.pendAt (s.g st gs)) = false →
      s.gives (.mwr st gm window row offset length final nwrites gs vec) fun t => rest t ∧ (t.stand st).outQ = [] ∧
        (routeMalformed (decRoute [d]) = true → t.mesh = s.mesh ∧ (t.stand st).sender = x.sender ∧ t.counter 0x526007 = (s.counter 0x526007 + 1) % 2 ^ 64) ∧
        (routeMalformed (decRoute [d]) = false → (routeStands (decRoute [d])).all (fun n => (x.entry n window row).isNone) = true →
          t.mesh = s.mesh ∧ (t.stand st).sender = x.sender) ∧
        ∀ g : Nat, routeMalformed (decRoute [d]) = false →
          (routeStands (decRoute [d])).all (fun n => (x.entry n window row).map (fun e => e.gen) == some g) = true →
          t.mesh = s.mesh ++ [s.packet st 0 (.mcast (decRoute [d]) { window, row, gen := g, offset, length, final, nwrites, reserved := 0 }
            (x.run (s.g st gs) length))]) ∧
    ∀ dest (rid : BitVec 16) lead (window : WSlot) (row : RowNo) (gs : Reg), destField dest = true →
      let a := s.g st gs % 65536
      let h := x.vec a
      let n := (h.count + 31) / 32
      let rows := (List.range ((1 + 2 * h.count + 63) / 64)).map fun i => i + row.val
      let lacks := lead && rows.any fun r => (x.entry dest.toNat window r).isNone
      h.pend = false → s.gives (.red st dest rid lead window row gs) fun t => rest t ∧ (t.stand st).outQ = [] ∧
        ((h.fmt ≠ 7 ∨ h.count = 0 ∨ 1024 < h.count ∨ lacks = true) → t.mesh = s.mesh ∧ (t.stand st).sender = x.sender) ∧
        (h.fmt = 7 → 1 ≤ h.count → h.count ≤ 1024 → lacks = false → t.mesh.length = s.mesh.length + n ∧ t.mesh.take s.mesh.length = s.mesh ∧
          (lead = true → ∀ r, r ∈ rows → (t.stand st).entry dest.toNat window r = none) ∧ (lead = false → (t.stand st).sender = x.sender) ∧
          ∀ k, k < n → t.mesh[s.mesh.length + k]? = some (s.packet st dest.toNat (.reduce
            { rid := rid.toNat, part := k, nc := bits (s.g st gs) 28 16, carried := 1, lead, window, row,
              gen := if lead then ((x.entry dest.toNat window row).map fun e => e.gen).getD 0 else 0, count := h.count,
              elems := (List.range (min 32 (h.count - 32 * k))).map fun i => rawAcc (x.run (a + 1) (2 * h.count)) (32 * k + i) })))

/-- DMA at a free controller. -/
def Obligations.DmaCommand : Prop :=
  ∀ (s : State) (st : StandId) (dir tierB : Bool) (ga : Reg) (window : WSlot) (row : RowNo) (words : Fin 4096) (gs : Reg),
    s.issues st → dmaFields words ga = true →
    let x := s.stand st
    let addr := s.g st ga + s.g st (ga.val + 1) * 2 ^ 32
    let c := Instr.dma st dir tierB ga window row words gs
    let rest := fun (t : State) => (t.stand st).pc = x.pc + 1 ∧ (t.stand st).regs = x.regs ∧ (t.stand st).spad = x.spad ∧ t.mem = s.mem ∧
      ∀ m, m ≠ st.val → t.stand m = s.stand m
    let first := fun (t : State) (op : Nat) (p : Packet) (m : MemReq) => t.mesh[s.mesh.length]? = some p ∧ p.src = st.val ∧
      p.dst = endpointOf tierB (4 * (addr / 4)) ∧ p.body = .memreq m ∧ m.op = op ∧ m.waddr = addr / 4
    (x.clean → x.dma = none → x.dmaQ = [] → s.dmaStarts st dir tierB addr window row words = true → dir = true → s.gives c fun t => rest t ∧
      (t.stand st).sender = x.sender ∧ (t.stand st).dmaQ = [] ∧ (∃ j, (t.stand st).dma = some j ∧ j.rows = [] ∧ j.tags ≠ []) ∧
      ∃ p m, first t 1 p m ∧ m.data = x.run (s.g st gs) (min words (64 - addr / 4 % 64))) ∧
    (x.clean → x.dma = none → x.dmaQ = [] → s.dmaStarts st dir tierB addr window row words = true → dir = false → s.gives c fun t => rest t ∧
      (t.stand st).dmaQ = [] ∧ (t.stand st).dma = some { window, rows := dmaRows row words, tags := [] } ∧
      (∀ r, r ∈ dmaRows row words → (t.stand st).entry st window r = none) ∧ ∃ p m, first t 2 p m) ∧
    (x.dma = none → x.dmaQ = [] → s.dmaStarts st dir tierB addr window row words = false → s.gives c fun t => rest t ∧
      t.stand st = x.stepped ∧ t.mesh = s.mesh) ∧
    (x.dma.isSome → x.dmaQ.length < 17 → s.gives c fun t => rest t ∧ t.mesh = s.mesh ∧ (t.stand st).dma = x.dma ∧
      (t.stand st).dmaQ.length = x.dmaQ.length + 1) ∧
    (17 ≤ x.dmaQ.length → s.gives c fun t => s.onlyStand t st ∧ t.stand st = { x with backlog := [c], headSince := s.time.tick })

/-- A remote write at a stand, and the end of a row's fill. -/
def Obligations.RemoteWrites : Prop :=
  ∀ (s : State) (node : NodeId) (p : Packet) (h : WriteHdr) (ws : List Word), node.val < 5000 → p.src < 5000 → s.isAway node = false → s.inOrder p = true →
    p.dincv = false ∨ p.dinc = (s.node node).inc → p.body = .write h ws →
    let x := s.stand node
    let w := x.credit.win h.window
    let a := w.bank * 2048 + (w.first + h.row) * 64 + h.offset
    (∀ k m, h.gen = w.gen → w.st ≠ .closed → h.offset + h.length ≤ 64 → h.reserved = 0 → h.length = ws.length → w.row h.row = .granted p.src k m →
      (RowSt.granted p.src k m).complete = false → x.clean → s.gives (.remoteWriteReceive node p) fun t =>
        (∀ i, i < h.length → (t.stand node).word (a + i) = ws.getD i 0) ∧
        (∀ b, b < 65536 → (∀ i, i < h.length → b ≠ wa (a + i)) → (t.stand node).word b = x.word b) ∧
        ((t.stand node).credit.win h.window).row h.row = .granted p.src (k + 1) (if h.final then some h.nwrites else m) ∧
        (∀ r, r ≠ h.row → ((t.stand node).credit.win h.window).row r = w.row r) ∧ (t.stand node).regs = x.regs ∧
        (∀ n, n ≠ node.val → t.stand n = s.stand n) ∧ t.mesh = dropFirst p s.mesh ∧ t.counter 0x523007 = s.counter 0x523007) ∧
    (h.gen = w.gen → (w.st = .closed ∨ 64 < h.offset + h.length ∨ h.reserved ≠ 0 ∨ (∀ k m, w.row h.row ≠ .granted p.src k m)) →
      s.gives (.remoteWriteReceive node p) fun t => t.stands = s.stands ∧ t.mesh = dropFirst p s.mesh ∧
        t.counter 0x523007 = (s.counter 0x523007 + 1) % 2 ^ 64) ∧
    (h.gen ≠ w.gen → s.gives (.remoteWriteReceive node p) fun t => (t.stand node).spad = x.spad ∧ (t.stand node).credit.windows = x.credit.windows ∧
      t.counter 0x523007 = (s.counter 0x523007 + 1) % 2 ^ 64) ∧
    ∀ (k : WSlot) (r : RowNo) n, (x.credit.win k).row r = .granted p.src n (some n) → s.gives (.rowFilled node k r) fun t =>
      ((t.stand node).credit.win k).row r = .filled p.src ∧
      ((t.stand node).credit.win k).flags = (x.credit.win k).flags ||| BitVec.ofNat 32 (2 ^ r.val) ∧ (t.stand node).spad = x.spad ∧
      ∀ j, j ≠ node.val → t.stand j = s.stand j

/-- Barrier channels. -/
def Obligations.Barriers : Prop :=
  ∀ (s : State) (st : StandId) (c : Fin 64),
    let x := s.stand st
    let others := fun (t : State) => t.mem = s.mem ∧ ∀ m, m ≠ st.val → t.stand m = s.stand m
    (s.issues st → s.participates c st = true → x.arrivalsOn c ≤ s.phase c → s.gives (.barv st c) fun t => others t ∧
      t.stand st = { x.stepped with arrivals := Tab.set 0 x.arrivals c (x.arrivalsOn c + 1), arrived := Tab.set false x.arrived c true } ∧
      (t.stand st).arrivalsOn c = x.arrivalsOn c + 1 ∧ (t.stand st).hasArrived c = true ∧
      (∀ d : Nat, d ≠ c.val → (t.stand st).arrivalsOn d = x.arrivalsOn d) ∧ (s.extended c = false → s.onlyStand t st)) ∧
    (s.issues st → s.participates c st = false ∨ s.phase c < x.arrivalsOn c → s.gives (.barv st c) fun t => others t ∧
      t.stand st = x.stepped ∧ t.counter 0x525006 = (s.counter 0x525006 + 1) % 2 ^ 64) ∧
    (s.issues st → s.bwtWaits st c = true → s.gives (.bwt st c) fun t => s.onlyStand t st ∧
      t.stand st = { x with backlog := [.bwt st c], headSince := s.time.tick }) ∧
    (s.issues st → s.participates c st = true → x.hasArrived c = true → x.arrivalsOn c ≤ s.phase c → s.gives (.bwt st c) fun t =>
      s.onlyStand t st ∧ t.stand st = x.stepped ∧ s.countsOnly t 0x525001 1) ∧
    (s.issues st → s.participates c st = false ∨ x.hasArrived c = false → s.gives (.bwt st c) fun t => others t ∧ t.stand st = x.stepped ∧
      t.counter 0x525006 = (s.counter 0x525006 + 1) % 2 ^ 64) ∧
    (s.extended c = false → s.gives (.barrierPhaseComplete c) fun t =>
      t.phase c = (if s.allArrived c then s.phase c + 1 else s.phase c) ∧ (∀ d, d ≠ c.val → t.phase d = s.phase d) ∧
      t = { s with phases := t.phases, counters := t.counters })

/-- XLD, MMA and MWO at a free controller with an idle matrix unit. -/
def Obligations.MatrixUnit : Prop :=
  ∀ (s : State) (st : StandId), s.issues st → (s.stand st).dmuQ = [] → (s.stand st).clean →
    let x := s.stand st
    let d := x.dmu
    let rest := fun (t : State) => (t.stand st).pc = x.pc + 1 ∧ (t.stand st).regs = x.regs ∧ t.mem = s.mem ∧ t.mesh = s.mesh ∧
      ∀ m, m ≠ st.val → t.stand m = s.stand m
    (∀ (y : Bool) (ga gb : Reg) (count : Fin 2048) (didx : BitVec 16), 1 ≤ count.val → count.val ≤ 1024 →
      let a := s.g st ga % 65536
      let h := x.vec a
      let i := Instr.xld st y ga gb count didx
      (h.pend = true → s.gives i fun t => rest t ∧ (t.stand st).dmu = d ∧ (t.stand st).dmuQ.length = 1) ∧
      (h.pend = false → s.gives i fun t => rest t ∧ (t.stand st).dmuQ = [] ∧ (t.stand st).spad = x.spad ∧
        (t.stand st).dmu.set0 = d.set0 ∧ (t.stand st).dmu.set1 = d.set1 ∧ (t.stand st).dmu.buf (!y) = d.buf (!y) ∧
        let w := if h.fmt = 2 then 4 else 8
        (if y then (t.stand st).dmu.wy else (t.stand st).dmu.wx) = w ∧
        ∀ k, k < count.val → bufElem ((t.stand st).dmu.buf y) w (didx.toNat + k) =
          if h.fmt = 2 ∨ h.fmt = 4 then rawElem h.fmt (x.run (a + 1) 20000) (s.g st gb % 65536 + k) else 0)) ∧
    (∀ (mode : Fin 4) (mm1 nm1 : Fin 32) (km1 : Fin 2048) (add xf yf : Bool) (gb : Reg), mmaFields mode km1 = true →
      let q := d.count % 2
      s.gives (.mma st mode mm1 nm1 km1 add xf yf gb) fun t => rest t ∧ (t.stand st).dmuQ = [] ∧ (t.stand st).spad = x.spad ∧
        (t.stand st).dmu.count = d.count + 1 ∧ (t.stand st).dmu.set (1 - q) = d.set (1 - q) ∧
        (t.stand st).dmu.bufX = d.bufX ∧ (t.stand st).dmu.bufY = d.bufY ∧
        (∀ i j, i ≤ mm1.val → j ≤ nm1.val → Tab.get 0 ((t.stand st).dmu.set q) (i * 32 + j) =
          accStore mode ((if add then (Tab.get 0 (d.set q) (i * 32 + j)).toInt else 0) + ((List.range (km1.val + 1)).map fun k =>
            (d.term mode (km1.val + 1) (s.g st gb % 65536) (s.g st gb / 65536 % 65536) xf yf i j k).1).sum)) ∧
        ∀ n, (∀ i j, i ≤ mm1.val → j ≤ nm1.val → n ≠ i * 32 + j) → Tab.get 0 ((t.stand st).dmu.set q) n = Tab.get 0 (d.set q) n) ∧
    ∀ (wmode : Fin 4) (set : Fin 2) (mm1 nm1 : Fin 32) (gd gs : Reg), wmode.val ≠ 3 →
      let a := s.g st gd
      let n := nm1.val + 1
      let mode := if set.val = 0 then d.mode0 else d.mode1
      let zero := mwoBad wmode mode || mode.isNone
      let v := fun i j => if zero then (0 : DWord) else Tab.get 0 (d.set set) (i * 32 + j)
      s.gives (.mwo st wmode set mm1 nm1 gd gs) fun t => rest t ∧ (t.stand st).dmuQ = [] ∧ (t.stand st).dmu = d ∧
        ∀ i j, i ≤ mm1.val → j ≤ nm1.val →
          (wmode.val = 0 → (t.stand st).vec (a + i * (1 + 2 * n)) = { pend := false, fmt := 7, signed := true, tile := 0, count := n } ∧
            rawAcc ((t.stand st).run (a + i * (1 + 2 * n) + 1) (2 * n)) j = (v i j).truncate 48) ∧
          (wmode.val = 1 → (t.stand st).word (a + 2 * (i * n + j)) = (v i j).truncate 32 ∧
            (t.stand st).word (a + 2 * (i * n + j) + 1) = ((v i j) >>> 32).truncate 32) ∧
          (wmode.val = 2 → (t.stand st).word (a + i * n + j) = if zero then 0 else mwoF32 (mode.getD 0) (v i j).toInt (x.reg gs))

/-- The terms and the stored form of a matrix operation. -/
def Obligations.MatrixTerms : Prop :=
  ∀ (d : Dmu) (mode kk xb yb i j k : Nat) (xf yf : Bool),
    let xi := xb + i * kk + k
    let yi := yb + k * 32 + j
    (mode = 0 → d.wx = 8 → d.wy = 8 ∨ d.wy = 4 → (d.term mode kk xb yb xf yf i j k).1 =
      signedOf 8 (Tab.get 0 d.bufX (xi % 32768)).toNat * signedOf d.wy (bufElem d.bufY d.wy yi)) ∧
    (mode = 1 → d.wx = 4 → d.wy = 4 → (d.term mode kk xb yb xf yf i j k).1 =
      signedOf 4 (bufElem d.bufX 4 xi) * signedOf 4 (bufElem d.bufY 4 yi)) ∧
    (mode = 0 → d.wx ≠ 8 → (d.term mode kk xb yb xf yf i j k).1 = 0) ∧
    (mode = 2 → fp8 xf (d.operand 2 false xi) = none → d.term mode kk xb yb xf yf i j k = (0, false)) ∧
    ∀ v : Int, (mode ≠ 2 → (accStore mode v).toInt = v.bmod (2 ^ 48)) ∧ (mode = 2 → (accStore mode v).toInt = v.bmod (2 ^ 64))

/-- ADA and ADB at a free controller with an idle matrix unit. -/
def Obligations.AdapterSums : Prop :=
  ∀ (s : State) (st : StandId) (gh gx gd gi : Reg) (matrix : BitVec 16), s.issues st → (s.stand st).dmuQ = [] → (s.stand st).clean →
    let x := s.stand st
    let n := bits (s.g st gh) 27 16
    let fault := ¬ ((s.slotHdr n).st = 2 ∨ (s.slotHdr n).st = 3) ∨ (s.slotHdr n).gen ≠ s.g st gh % 65536
    let clean := ∀ k, s.wrongBurst false k = 0
    let count := bits (s.g st gi) 26 16
    let raw := fun (t : State) (k : Nat) => (t.stand st).vec (s.g st gd) = { pend := false, fmt := 7, signed := true, tile := 0, count := k }
    (x.vec (s.g st gx % 65536)).pend = false → clean →
    (∀ i, (i = .ada st gh gx gd matrix gi ∨ i = .adb st gh gx gd matrix gi) → s.gives i fun t =>
      (t.stand st).pc = x.pc + 1 ∧ (t.stand st).regs = x.regs ∧ (t.stand st).dmuQ = [] ∧ (t.stand st).dmu = x.dmu ∧
      (∀ m, m ≠ st.val → t.stand m = s.stand m) ∧ t.mem = s.mem ∧ t.mesh = s.mesh ∧ (∃ k, raw t k) ∧
      (fault → t.counter 0x524003 = (s.counter 0x524003 + 1) % 2 ^ 64 ∧ t.serving.faultErr = s.serving.faultErr ++ [(s.g st gh, 1)])) ∧
    (∀ g, (s.handleSegment st (x.reg gh) matrix.toNat).1 = some g →
      let h := x.vec (s.g st gx)
      let from0 := s.g st gi % 65536
      h.fmt ≤ 5 → 1 ≤ h.count → h.count ≤ 1024 → from0 + h.count ≤ g.din → s.gives (.ada st gh gx gd matrix gi) fun t => raw t g.rank ∧
        ∀ k, k < g.rank → rawAcc ((t.stand st).run (s.g st gd + 1) (2 * g.rank)) k = BitVec.ofInt 48
          (((s.tierBytes false (n * 16777216 + g.off + 20 + k * g.din + from0) h.count).zipIdx.map fun e =>
            a8 e.1 * elemInt h.fmt h.signed (x.run (s.g st gx + 1) (elemWords h.fmt h.count)) e.2).sum)) ∧
    (fault → s.gives (.ada st gh gx gd matrix gi) fun t => raw t 64 ∧ ∀ k, k < 128 → (t.stand st).word (s.g st gd + 1 + k) = 0) ∧
    (fault → s.gives (.adb st gh gx gd matrix gi) fun t => raw t count ∧ ∀ k, k < 2 * count → (t.stand st).word (s.g st gd + 1 + k) = 0)

/-- VOP and QNT at a free controller. -/
def Obligations.VectorUnit : Prop :=
  ∀ (s : State) (st : StandId) (type : Fin 4) (gd ga gb gc : Reg) (cm1 : Fin 4096), s.issues st → (s.stand st).vecQ = [] → (s.stand st).clean →
    let x := s.stand st
    let n := cm1.val + 1
    let rest := fun (t : State) => s.standWork t st ∧ (t.stand st).pc = x.pc + 1
    let elems := fun (ty : Nat) (r : Reg) => (List.range n).map (typeElem ty (x.run (s.g st r) n))
    (∀ func : Fin 64, vopFields func type = true → func.val ≠ 10 → s.gives (.vop st func type gd ga gb gc cm1) fun t => rest t ∧
      let f := func.val
      let ws := typePack (typeWritten f type) (vopResults f type (elems (typeRead f type) ga)
        (if f ≤ 7 then elems (typeRead f type) gb else []) (if f = 3 then elems type gc else if f = 7 then elems 2 gc else []))
      (∀ i, i < ws.length → (t.stand st).word (s.g st gd + i) = ws.getD i 0) ∧
      ∀ a, a < 65536 → (∀ i, i < ws.length → a ≠ wa (s.g st gd + i)) → (t.stand st).word a = x.word a) ∧
    (type.val ≤ 1 → ∀ i, (i = .qnt st type gd ga gb gc cm1 ∨ i = .vop st 10 type gd ga gb gc cm1) →
      let f := s.g st gc % 8
      let sg := bit (s.g st gc) 3
      (qntBad (s.g st gc) n = true → s.gives i fun t => rest t ∧ (t.stand st).spad = x.spad) ∧
      (qntBad (s.g st gc) n = false → s.gives i fun t => rest t ∧
        (t.stand st).vec (s.g st gd) = { pend := false, fmt := f, signed := sg, tile := 0, count := n } ∧
        ∀ k, k < n → rawElem f ((t.stand st).run (s.g st gd + 1) n) k =
          lowBits (fmtBits f) (qntY ((elems type ga).getD k 0) (x.word (s.g st gb)).toInt (bits (x.word (s.g st gb + 1)).toNat 5 0)
            (signedOf 16 (bits (x.word (s.g st gb + 1)).toNat 31 16)) (fmtLo f sg) (fmtHi f sg))))

/-- VTOPK, VSMP and VACC at a free controller. -/
def Obligations.SamplingUnit : Prop :=
  ∀ (s : State) (st : StandId), s.issues st → (s.stand st).vecQ = [] → (s.stand st).clean →
    let x := s.stand st
    let rest := fun (t : State) => s.standWork t st ∧ (t.stand st).pc = x.pc + 1
    (∀ (km1 : Fin 64) (gd ga gb : Reg) (cm1 : Fin 4096) (merge : Bool), merge = false ∨ cm1.val + 1 = 2 * (km1.val + 1) →
      let cs : List Cand := (List.range (cm1.val + 1)).map fun i =>
        if merge then (canon (x.word (s.g st ga + 2 * i)), x.word (s.g st ga + 2 * i + 1))
        else (canon (x.word (s.g st ga + i)), BitVec.ofNat 32 (s.g st gb + i))
      s.gives (.vtopk st km1 gd ga gb cm1 merge) fun t => rest t ∧
        ∀ i, i < min (km1.val + 1) (cm1.val + 1) → (t.stand st).word (s.g st gd + 2 * i) = ((ranked cs).getD i (0, 0)).1 ∧
          (t.stand st).word (s.g st gd + 2 * i + 1) = ((ranked cs).getD i (0, 0)).2) ∧
    (∀ cs : List Cand, (ranked cs).Perm cs ∧ (ranked cs).Pairwise fun a b => rankBefore b a = false) ∧
    (∀ (gd ga : Reg) (km1 : Fin 64) (gp : Reg), s.gives (.vsmp st gd ga km1 gp) fun t => rest t ∧
      let w := fun i => x.word (s.g st gp + i)
      (t.stand st).word (s.g st gd) = sample ((List.range (km1.val + 1)).map fun i => (x.word (s.g st ga + 2 * i), x.word (s.g st ga + 2 * i + 1)))
        (w 0) (w 1) (draw ((w 2).setWidth 64 ||| ((w 3).setWidth 64 <<< 32)) (w 4).toNat) ∧
      ∀ a, a < 65536 → a ≠ s.g st gd % 65536 → (t.stand st).word a = x.word a) ∧
    ∀ (gd ga gb : Reg) (g : Fin 8), g.val ≤ 4 → s.gives (.vacc st gd ga gb g) fun t => rest t ∧
      ∃ n, n ≤ g.val ∧ (∀ i, i < n → x.word (s.g st ga + i) = x.word (s.g st gb + i)) ∧
        (n < g.val → x.word (s.g st ga + n) ≠ x.word (s.g st gb + n)) ∧ (t.stand st).word (s.g st gd) = BitVec.ofNat 32 n ∧
        (∀ i, i < n → (t.stand st).word (s.g st gd + 1 + i) = x.word (s.g st ga + i)) ∧
        (t.stand st).word (s.g st gd + 1 + n) = x.word (s.g st gb + n) ∧
        t.counter 0x524005 = (s.counter 0x524005 + g) % 2 ^ 64 ∧ t.counter 0x524006 = (s.counter 0x524006 + n) % 2 ^ 64 ∧
        t.counter 0x524007 = (s.counter 0x524007 + (n + 1)) % 2 ^ 64

/-- The end of an interlock. -/
def Obligations.InterlockRelease : Prop :=
  ∀ (s : State) (st : StandId), s.canIssue st = true →
    let x := s.stand st
    (∀ cores dmu vec net dma tile, x.backlog = [.wait st cores dmu vec net dma tile] →
      (x.waitMet cores dmu vec net dma tile = true → s.gives (.interlockRelease st .ctrl) fun t => s.onlyStand t st ∧
        (t.stand st).backlog = [] ∧ (t.stand st).pc = x.pc + 1 ∧ (t.stand st).regs = x.regs ∧ s.countsOnly t 0x525001 1) ∧
      (x.waitMet cores dmu vec net dma tile = false → exec (.interlockRelease st .ctrl) s = .next s)) ∧
    ∀ (p : Pos) (c k a : Nat) (i : Instr), i = .pendWaitRelease st (.core p) ∨ i = .interlockRelease st (.core p) →
      s.fill st p = some c → x.pos p = { queue := [.vld k a] } → x.repeatHolds p = false → x.clean →
      (x.pendAt a = true → exec i s = .next s) ∧
      (x.pendAt a = false → s.gives i fun t => (t.stand st).pos p = {} ∧ ((t.core st c).slot k).src = some a ∧
        (t.stand st).regs = x.regs ∧ (t.stand st).spad = x.spad ∧ ∀ m, m ≠ st.val → t.stand m = s.stand m)

/-- Beat boundaries and launches. -/
def Obligations.BeatTiming : Prop :=
  ∀ s : State,
    (∀ returns anns, s.canOpen = true → s.gives (.beatBoundary returns anns) fun t =>
      t.time.beat = (s.time.beat + 1) % 2 ^ 48 ∧ t.time.tick = max s.time.tick (s.time.start + s.time.len - min s.time.slip (s.time.len / 4)) ∧
      t.time.start = t.time.tick ∧ t.power.state = 3 ∧ t.host.msixDue = 0 ∧
      (t.time.launchDue = true → t.sense.stop = 0 ∧ t.time.hazardStop = false ∧ t.time.resumeWait = false ∧ t.binary.fresh = false)) ∧
    (∀ returns anns, s.canOpen = false → exec (.beatBoundary returns anns) s = .next s) ∧
    (s.time.launchDue = true → s.power.state = 3 → (∀ st, ((s.stand st).tiles.any fun k => k.deferred) = false) →
      s.gives .beatLaunch fun t => t.time.launchDue = false ∧ t = { s with stands := t.stands, time := t.time } ∧
        ∀ st, st < 5000 → t.stand st =
          if s.isAway st then s.stand st
          else match s.entryOf st s.time.beat with
            | some e => { s.stand st with
                pc := e % 16384, running := true, bended := false,
                clearing := if 0 < s.forcedItems st then some (s.time.tick, s.forcedItems st) else none }
            | none => { s.stand st with running := false, bended := false }) ∧
    ((s.time.launchDue = false ∨ s.power.state ≠ 3) → exec .beatLaunch s = .next s)

/-- Stand reset, the beat watchdog, scratchpad errors, row repair and hazards. -/
def Obligations.StandFaults : Prop :=
  ∀ (s : State) (st : StandId),
    let x := s.stand st
    let cleared := fun (t : State) =>
      (∀ r, (t.stand st).reg r = 0) ∧ (t.stand st).pc = 0 ∧ (t.stand st).running = false ∧ (∀ a, (t.stand st).word a = 0) ∧
      (∀ k, k < 16 → ((t.stand st).credit.win k).st = .closed) ∧ (t.stand st).credit.queue = [] ∧ (∀ c, c < 17 → (t.core st c).acc = []) ∧
      (t.node st).inc = nextInc (s.node st).inc ∧ (t.node st).away = true ∧ (∀ m, m ≠ st.val → t.stand m = s.stand m ∧ t.node m = s.node m)
    (s.gives (.standReset st) fun t => cleared t ∧ (t.node st).cause = 5 ∧ t.mem = s.mem ∧ t.counter 0x512002 = (s.counter 0x512002 + 1) % 2 ^ 64) ∧
    (s.dogExpired st = true → s.gives (.beatWatchdog st) fun t => cleared t ∧ (t.node st).cause = 6 ∧
      t.counter 0x525008 = (s.counter 0x525008 + 1) % 2 ^ 64) ∧
    (s.dogExpired st = false → exec (.beatWatchdog st) s = .next s) ∧
    (∀ bank row word opcode, s.gives (.scratchpadUe st bank row word opcode) fun t => (t.stand st).quarantined = true ∧ (t.stand st).regs = x.regs ∧
      (t.stand st).spad = x.spad ∧ t.counter 0x523002 = (s.counter 0x523002 + 1) % 2 ^ 64 ∧ (∀ p, t.fill st p = none) ∧
      ∀ m, m ≠ st.val → t.stand m = s.stand m) ∧
    (∀ (bank : SBank) (row : RowNo) d i, (x.bank bank).due.find? (fun e => e.1 = row.val) = some d → (x.bank bank).freeSpare = some i →
      ((x.bank bank).copying.any fun c => c.1 = row.val) = false → s.repairStarts st bank d.2.1 = true →
      s.gives (.rowRepair st bank row) fun t => s.onlyStand t st ∧ (t.stand st).bank bank =
        { x.bank bank with copying := (x.bank bank).copying ++ [(row.val, i)] }) ∧
    (∀ code index opcode writer, s.hazardFound st code.val index.val opcode.toNat = true → s.gives (.hazard st code index opcode writer) fun t =>
      t.counter 0x525007 = (s.counter 0x525007 + 1) % 2 ^ 64 ∧ t.stands = s.stands ∧
      t.time.hazardStop = (s.time.hazardStop || decide (s.setting 0x236002 0 = 1))) ∧
    (∀ (index : Nat) o c, s.power.debug = 1 → s.imageInstr st index = some (o, .barv st c) →
      (s.hazardFound st 7 index o = true ↔ s.phase c < x.arrivalsOn c)) ∧
    ∀ code index opcode writer, s.hazardFound st code.val index.val opcode.toNat = false → exec (.hazard st code index opcode writer) s = .next s

/-- Flit replay and wire tests. -/
def Obligations.LinkFaults : Prop :=
  ∀ s : State,
    let boot := s.power.railStep = 6 ∧ s.power.state < 3
    (∀ (r : StandId) (dir : Fin 7) (seq : BitVec 8), hasPort r dir = false → exec (.flitCrcFail r dir seq) s = .next s) ∧
    (∀ (r : StandId) (dir : Fin 7) (seq : BitVec 8), hasPort r dir = true → s.gives (.flitCrcFail r dir seq) fun t =>
      t.counter 0x526001 = (s.counter 0x526001 + 1) % 2 ^ 64 ∧ (t.link r dir).replay = (s.link r dir).replay ∧
      t.outbox = .flits r dir (((s.link r dir).replay.dropWhile fun e => e.1 ≠ seq).map fun e => e.1) :: s.outbox ∧
      (dir.val = 6 → ((t.seam (grow r) (decide (2500 ≤ r.val))).replays = (s.seam (grow r) (decide (2500 ≤ r.val))).replays + 1)) ∧
      (dir.val ≠ 6 → t.seams = s.seams) ∧ t.stands = s.stands ∧ t.mesh = s.mesh) ∧
    (∀ (r : StandId) (dir : Fin 4) lower upper, meshPort r dir = true → ((s.link r dir).testDue = true ∨ boot) → s.gives (.meshLinkWireTest r dir lower upper) fun t =>
      (t.link r dir).width = max (s.link r dir).width (if lower && upper then 2 else if lower || upper then 1 else 0) ∧
      (t.link r dir).testDue = false ∧ (t.link r dir).replays = [] ∧ (¬ boot → lower = true → upper = true → 2 ≤ t.rel.health) ∧ (boot → t.rel.health = s.rel.health) ∧ t.stands = s.stands) ∧
    (∀ (r : StandId) (dir : Fin 4) lower upper, (meshPort r dir = false ∨
      ((s.link r dir).testDue = false ∧ (s.link r dir).replays = [] ∧ ¬ boot)) → exec (.meshLinkWireTest r dir lower upper) s = .next s) ∧
    ∀ (y : Fin 50) (ew : Bool) (bad : List (Fin 1170)),
      (((s.seam y ew).testDue = true ∨ 4 < (s.seam y ew).replays ∨ boot) → s.gives (.seamWireTest y ew bad) fun t =>
        (∀ w, w ∈ (t.seam y ew).failed ↔ w ∈ (s.seam y ew).failed ∨ w ∈ bad.map fun b => b.val) ∧
        (t.seam y ew).width = max (s.seam y ew).width (seamWidth (t.seam y ew).failed.length) ∧ (t.seam y ew).replays = 0 ∧ t.stands = s.stands) ∧
      ((s.seam y ew).testDue = false → (s.seam y ew).replays ≤ 4 → ¬ boot → exec (.seamWireTest y ew bad) s = .next s)

/-- Packets, multicast and the return to service. -/
def Obligations.PacketCommands : Prop :=
  ∀ s : State,
    (∀ node hdr ws, decPacket hdr ws = none → s.gives (.packetReceive node hdr ws) fun t =>
      t = { s with counters := t.counters } ∧ s.countsOnly t 0x526008 1) ∧
    (∀ node hdr ws p, decPacket hdr ws = some p → p.src = hdr.toNat / 2 ^ 107 % 8192 ∧ p.dst = hdr.toNat / 2 ^ 94 % 8192 ∧
      ((∀ f d, p.body ≠ .mgmt f d) → p ∉ s.mesh → s.gives (.packetReceive node hdr ws) fun t => t = { s with mesh := s.mesh ++ [p] }) ∧
      ((∀ f d, p.body ≠ .mgmt f d) → p ∈ s.mesh → exec (.packetReceive node hdr ws) s = .next s) ∧
      ((∃ f d, p.body = .mgmt f d) → s.isAway node = false → exec (.packetReceive node hdr ws) s = .next s)) ∧
    (∀ p r h ws, p.body = .mcast r h ws → s.gives (.mcastForward p) fun t =>
      t = { s with mesh := s.mesh.takeWhile (fun q => decide (q ≠ p)) ++ ((routeStands r).map fun n => { p with dst := n }) ++
        (s.mesh.dropWhile fun q => decide (q ≠ p)).drop 1 }) ∧
    (∀ p, (∀ r h ws, p.body ≠ .mcast r h ws) → s.gives (.mcastForward p) fun t => t = { s with mesh := dropFirst p s.mesh }) ∧
    (∀ x y (r : Route), routeMalformed r = false → x < 100 → y < 50 → (standAt x y ∈ routeStands r ↔ routeNames r x y = true)) ∧
    ∀ node : NodeId, (s.router node).entries = [] → (s.router node).waiting = [] → s.gives (.unitReturnsToService node) fun t =>
      (t.node node).away = false ∧ (t.node node).inc = (s.node node).inc ∧ (∀ n, n ≠ node.val → t.node n = s.node n) ∧
      t = { s with nodes := t.nodes }

/-- Reductions in the network. -/
def Obligations.Reductions : Prop :=
  (∀ (p q : Packet) (a b : PartMsg), p.body = .reduce a → q.body = .reduce b → ∃ m, (combineParts p q).body = .reduce m ∧
    m.carried = a.carried + b.carried ∧ m.lead = (a.lead || b.lead) ∧ (∀ i, m.elems.getD i 0 = a.elems.getD i 0 + b.elems.getD i 0) ∧
    (b.lead = true → a.lead = false → m.window = b.window ∧ m.row = b.row ∧ m.gen = b.gen ∧ (combineParts p q).src = q.src) ∧
    ((b.lead = false ∨ a.lead = true) → m.window = a.window ∧ m.row = a.row ∧ m.gen = a.gen ∧ (combineParts p q).src = p.src)) ∧
  ∀ (s : State) (p : Packet) (m : PartMsg), p.body = .reduce m →
    (∀ r : StandId, attach p.dst ≠ r.val → onPath r p.src p.dst = false → exec (.reducePacketArrive r p) s = .next s) ∧
    (∀ r : StandId, attach p.dst ≠ r.val → onPath r p.src p.dst = true →
      (∀ e, (s.router r).combine.find? (fun e => sameKey e.1 p && s.combOpen e.2) = some e → s.gives (.reducePacketArrive r p) fun t =>
        t.mesh = dropFirst p s.mesh ∧ t.counter 0x526002 = (s.counter 0x526002 + 1) % 2 ^ 64 ∧
        (t.router r).combine = updFirst (fun o => decide (o = e)) (fun e => (combineParts e.1 p, e.2)) (s.router r).combine) ∧
      ((s.router r).combine.find? (fun e => sameKey e.1 p && s.combOpen e.2) = none → (s.router r).combine.length < 8 → s.combWindow ≠ 0 → s.gives (.reducePacketArrive r p) fun t =>
        t.mesh = dropFirst p s.mesh ∧ (t.router r).combine = (s.router r).combine ++ [(p, s.time.tick)]) ∧
      ((s.router r).combine.find? (fun e => sameKey e.1 p && s.combOpen e.2) = none → (8 ≤ (s.router r).combine.length ∨ s.combWindow = 0) → s.gives (.reducePacketArrive r p) fun t =>
        t = { s with mesh := dropFirst p s.mesh ++ [p] }) ∧
      ∀ (i : Fin 8) e, (s.router r).combine[i.val]? = some e → s.windowOver e.2 = true → s.gives (.combiningWindowExpiry r i) fun t =>
        t.mesh = s.mesh ++ [e.1] ∧ (t.router r).combine = (s.router r).combine.eraseIdx i) ∧
    ∀ node : NodeId, (s.router node).waiting = [] →
      ((s.router node).entries = [] → s.gives (.reductionPartArrive node p) fun t =>
        (m.carried < m.nc → t.mesh = dropFirst p s.mesh ∧ (t.router node).entries = [{ pkt := p, since := s.time.tick }] ∧ t.counters = s.counters) ∧
        (m.carried = m.nc → m.lead = true → s.isAway node = false → node.val < 5000 →
          (t.router node).entries = [] ∧ t.counter 0x526003 = (s.counter 0x526003 + 1) % 2 ^ 64) ∧
        ((m.nc < m.carried ∨ (m.carried = m.nc ∧ m.lead = false)) →
          (t.router node).entries = [] ∧ t.counter 0x526004 = (s.counter 0x526004 + 1) % 2 ^ 64 ∧ t.stands = s.stands)) ∧
      ∀ k, (s.router node).entries = [{ pkt := p, since := k }] →
        (¬ (m.carried = m.nc ∧ m.lead = true) → k + s.setting 0x240002 2 * s.time.len ≤ s.time.tick → s.gives (.reductionTimeout node 0) fun t => (t.router node).entries = [] ∧
          t.counter 0x526004 = (s.counter 0x526004 + 1) % 2 ^ 64 ∧ t.mesh = s.mesh ∧ t.stands = s.stands) ∧
        (((m.carried = m.nc ∧ m.lead = true) ∨ s.time.tick < k + s.setting 0x240002 2 * s.time.len) → exec (.reductionTimeout node 0) s = .next s)

/-- The serving state. -/
def Obligations.ServingControl : Prop :=
  ∀ s : State,
    (s.rel.healthNow = 2 ∨ s.serving.state = 1 → exec .servingStart s = .next s) ∧
    (s.serving.state = 0 → s.configMatches = false ∨ s.rel.marginQ.isSome → exec .servingStart s = .next s) ∧
    (s.rel.healthNow ≠ 2 → s.serving.state = 0 → s.configMatches = true → s.rel.marginQ = none → s.gives .servingStart fun t =>
      t.serving.state = 1 ∧ t.serving.scons = 0 ∧ t.serving.cprod = 0 ∧ t.serving.chead = 0 ∧ t.serving.sblock = none ∧
      t.serving.rslots = s.serving.rslots ∧ (t.node 5106).inc = nextInc (s.node 5106).inc ∧ t.host.msixDue.getLsbD 20 = true ∧
      t.stands = s.stands ∧ t.time = s.time) ∧
    (s.rel.healthNow ≠ 2 → s.serving.state = 2 → s.gives .servingStart fun t => t.serving = { s.serving with state := 1 } ∧
      t = { s with serving := t.serving, host := t.host } ∧ t.host.msixDue.getLsbD 20 = true) ∧
    (s.gives .servingDrain fun t => t = { s with serving := t.serving, host := t.host } ∧
      t.serving = { s.serving with state := if s.serving.state = 1 then 2 else s.serving.state }) ∧
    s.gives .servingStop fun t => t = { s with serving := t.serving } ∧
      t.serving = { s.serving with stopDue := s.serving.stopDue || (s.serving.state != 0 && s.reqs.isEmpty && s.serving.deferred.isEmpty) }

/-- Descriptor, step and suspension timeouts. -/
def Obligations.ServingTimeouts : Prop :=
  ∀ s : State,
    (s.time.launchDue = true → s.serving.state ≠ 0 → (∀ k, s.wrongBurst true k = 0) → s.serving.held = [] → s.descLate = true → s.descValid s.serving.scons = true →
      dchkOk (s.descBytes s.serving.scons) = false → 0 < s.recRoom → s.gives .descriptorTimeout fun t =>
        t.serving.scons = s.serving.scons + 1 ∧ t.serving.sblock = none ∧ t.serving.cprod = s.serving.cprod + 1 ∧ t.stands = s.stands ∧
        t.counter 0x530001 = (s.counter 0x530001 + 1) % 2 ^ 64) ∧
    (s.time.launchDue = false ∨ s.descLate = false → exec .descriptorTimeout s = .next s) ∧
    ∀ k : Fin 16384,
      (s.req k = none → exec (.stepTimeout k) s = .next s ∧ exec (.suspensionTimeout k) s = .next s) ∧
      (∀ r, s.req k = some r → (∀ g, r.st ≠ .suspended g) → s.lateWork r = none → exec (.stepTimeout k) s = .next s) ∧
      (∀ r f, s.req k = some r → (∀ g, r.st ≠ .suspended g) → s.lateWork r = some f → s.gives (.stepTimeout k) fun t =>
        t.counter 0x53000C = (s.counter 0x53000C + 1) % 2 ^ 64 ∧ t.stands = s.stands ∧
        (r.losses < 2 → ∃ q, t.req k = some q ∧ q.losses = r.losses + 1 ∧ f ∉ q.flight ∧ q.gk = r.gk ∧ q.groups = r.groups) ∧
        (2 ≤ r.losses → t.req k = none ∧ t.serving.slotsFreed = s.serving.slotsFreed + 1)) ∧
      ∀ r g, s.req k = some r → r.st = .suspended g →
        (r.suspendedAt + s.setting 0x30000D 125000 < s.time.beat → s.gives (.suspensionTimeout k) fun t => t.req k = none ∧
          t.serving.groupsFreed = s.serving.groupsFreed + r.ng ∧ t.serving.slotsFreed = s.serving.slotsFreed + 1 ∧
          t.counter 0x53000A = (s.counter 0x53000A + 1) % 2 ^ 64 ∧ (∀ j, j ≠ k.val → t.req j = s.req j) ∧ t.stands = s.stands) ∧
        (s.time.beat ≤ r.suspendedAt + s.setting 0x30000D 125000 → exec (.suspensionTimeout k) s = .next s)

/-- STAGE, CANCEL and REQUEST AGAIN. -/
def Obligations.StagingCommands : Prop :=
  ∀ s : State,
    let quiet := fun (t : State) (res : Nat) => t = { s with weights := { s.weights with wres := res }, host := t.host } ∧
      t.host.msixDue.getLsbD 16 = true
    (∀ cap source (place : Byte) (epoch : Word) layoutId, s.blockOf (.stage cap source place epoch layoutId)
      (weightBlock 1 (b2n cap + 2 * b2n source) place.toNat 0 epoch.toNat layoutId 0) (s.stage cap source place.toNat epoch.toNat layoutId)) ∧
    s.blockOf .weightCancel (weightBlock 2 0 0 0 0 0 0) s.cancelStage ∧ s.blockOf .requestAgain (weightBlock 3 0 0 0 0 0 0) s.requestAgain ∧
    (∀ l b, s.weights.cmds = l ++ [b] →
      s.weightBoundary = ((l.foldl State.weightCmd { s with weights := { s.weights with cmds := [] } }).weightCmd b).pumpWrites) ∧
    (∀ cap source place epoch layoutId,
      let t := s.stage cap source place epoch layoutId
      let stops := cap = true ∨ s.weights.current = 0 ∨ s.weights.capmode = true
      let free := s.weights.staging = none ∧ s.weights.sw.st = 0 ∧ s.weights.sw.graceOpen = false
      (79 < place ∨ epoch = 0 → quiet t 0x105) ∧
      (place ≤ 79 → epoch ≠ 0 → ¬ free → quiet t 0x101) ∧
      (place ≤ 79 → epoch ≠ 0 → free → stops → s.serving.state ≠ 0 → quiet t 0x102) ∧
      (place ≤ 79 → epoch ≠ 0 → free → ¬ stops ∨ s.serving.state = 0 →
        t.weights.staging = some { cap, peer := source, place, epoch, layoutId } ∧
        t.stagingBanks = (if cap then [false, true] else [!t.weights.ptrB]) ∧
        (∀ b, b ∈ t.stagingBanks → t.version b = { epoch, layoutId, place, cap, peer := source } ∧
          (∀ st, st < 5000 → (t.shard b st).st = .wanted ∧ (t.shard b st).attempt = 1) ∧ ∀ st c, ((t.core st c).bank b).st = .empty) ∧
        t.weights.wres = 0x100 ∧ t.host.msixDue.getLsbD 16 = true ∧ t.time = s.time ∧ s.outsideMaster t)) ∧
    (s.weights.staging = none ∨ s.weights.sw.st ≠ 0 → quiet s.cancelStage 0x201) ∧
    (s.weights.staging.isSome → s.weights.sw.st = 0 → let t := s.cancelStage
      t.weights.staging = none ∧ t.weights.wres = 0x200 ∧
      (∀ b, b ∈ s.stagingBanks → t.version b = {} ∧ (∀ st, st < 5000 → t.shard b st = {}) ∧ ∀ st c, ((t.core st c).bank b).st = .empty) ∧
      t.host.msixDue.getLsbD 16 = true ∧ s.outsideMaster t) ∧
    (s.weights.staging = none → quiet s.requestAgain 0x301) ∧
    (s.weights.staging.isSome → let t := s.requestAgain
      t.weights.staging = s.weights.staging ∧ t.weights.wres = 0x300 ∧
      (∀ b st, b ∈ s.stagingBanks → st < 5000 → (t.shard b st).st ≠ .bad ∧ (t.shard b st).st ≠ .missing) ∧ t.cores = s.cores ∧ t.mem = s.mem)

/-- ARM, DISARM, ACTIVATE and SCRUB NOW. -/
def Obligations.SwitchCommands : Prop :=
  ∀ s : State,
    let only := fun (t : State) => t = { s with weights := t.weights, host := t.host } ∧ t.host.msixDue.getLsbD 16 = true
    (∀ (nmod : Byte) (epoch : Word) (grace : BitVec 16), s.blockOf (.arm nmod epoch grace)
      (weightBlock 4 0 0 nmod.toNat epoch.toNat 0 grace.toNat) (s.arm nmod.toNat epoch.toNat grace.toNat)) ∧
    s.blockOf .disarm (weightBlock 5 0 0 0 0 0 0) s.disarm ∧ s.blockOf .scrubNow (weightBlock 7 0 0 0 0 0 0) s.scrubNow ∧
    (∀ epoch : Word, s.blockOf (.weightActivate epoch) (weightBlock 6 0 0 0 epoch.toNat 0 0) (s.activate epoch.toNat)) ∧
    (∀ nmod epoch grace,
      let v := s.version (!s.weights.ptrB)
      let t := s.arm nmod epoch grace
      let ok := 1 ≤ nmod ∧ nmod ≤ 80 ∧ grace ≤ 4096 ∧ epoch ≠ 0 ∧ s.weights.capmode = false ∧ v.cap = false ∧
        s.weights.sw.graceOpen = false ∧ v.epoch = epoch ∧ v.layoutId.toNat = s.layoutNow
      only t ∧ (ok → t.weights = { s.weights with wres := 0x400, sw := { st := 1, epoch, nmod, grace, members := nmod } }) ∧
      (¬ ok → ∃ code, code ∈ [1, 3, 5] ∧ t.weights = { s.weights with wres := 0x400 + code })) ∧
    (s.weights.sw.st ≠ 1 → s.weights.sw.st ≠ 2 → only s.disarm ∧ s.disarm.weights = { s.weights with wres := 0x501 }) ∧
    (s.weights.sw.st = 1 → only s.disarm ∧ s.disarm.weights = { s.weights with wres := 0x500, sw := { members := s.weights.sw.members } }) ∧
    (s.weights.sw.st = 2 → s.serving.state ≠ 0 → only s.disarm ∧ s.disarm.weights = { s.weights with wres := 0x502 }) ∧
    (s.weights.sw.st = 2 → s.serving.state = 0 → s.disarm.weights.sw = { members := s.weights.sw.members } ∧ s.disarm.weights.wres = 0x500) ∧
    (∀ epoch,
      let t := s.activate epoch
      let ok := epoch ≠ 0 ∧ s.weights.sw.graceOpen = false ∧ s.activeBanks epoch ≠ [] ∧ s.serving.state = 0 ∧
        (s.activeBanks epoch).all s.bankComplete = true
      (ok → t.weights.current = epoch ∧ t.weights.staging = none ∧ t.weights.wres = 0x600 ∧ t.weights.capmode = decide ((s.activeBanks epoch).length = 2) ∧
        (∀ n, n < 85000 → (Tab.get {} t.cores n).bptrB = t.weights.ptrB ∧ (Tab.get {} t.cores n).capmode = t.weights.capmode) ∧
        t.stands = s.stands ∧ t.mem = s.mem) ∧
      (¬ ok → only t ∧ ∃ code, code ∈ [1, 2, 4, 5] ∧ t.weights = { s.weights with wres := 0x600 + code })) ∧
    only s.scrubNow ∧ s.scrubNow.weights = { s.weights with wres := 0x700, scrubLeft := s.scrubAll, scrubStart := s.time.tick, scrubAsap := true }

/-- Shards on their way into the arrays. -/
def Obligations.ShardCommands : Prop :=
  ∀ s : State,
    (∀ slot : Byte, s.gives (.inboxPost slot) fun t => t = { s with weights := { s.weights with inboxFree := t.weights.inboxFree } } ∧
      ∀ k, t.weights.inboxFree.getLsbD k = (s.weights.inboxFree.getLsbD k && !decide (k = slot.toNat))) ∧
    (∀ slot : Fin 16, s.weights.inboxFree.getLsbD slot = true → exec (.shardArrive (.inbox slot)) s = .next s) ∧
    (∀ slot : Fin 16, s.weights.inboxFree.getLsbD slot = false → (∀ k, s.wrongBurst true k = 0) →
      let b := s.tierBytes true (s.inboxAt slot) 524544
      (s.shardTarget b = none → s.gives (.shardArrive (.inbox slot)) fun t => t.weights.inboxFree.getLsbD slot = true ∧
        t.weights.shards = s.weights.shards ∧ t.mem = s.mem ∧ t.counter 0x531002 = (s.counter 0x531002 + 1) % 2 ^ 64) ∧
      ∀ k st, s.shardTarget b = some (k, st) → digestOk b (b.drop 256) = true →
        ((List.range 16).all fun p => acrcOk b p (slice (b.drop 256) (32768 * p) 32768)) = true → (s.shard k st).st = .wanted →
        s.gives (.shardArrive (.inbox slot)) fun t => t.weights.inboxFree.getLsbD slot = true ∧ (t.shard k st).hdr = slice b 0 256 ∧
          (t.shard k st).st ∈ [ShardStatus.arrived, .writing, .unplaceable] ∧ t.counter 0x531001 = (s.counter 0x531001 + 1) % 2 ^ 64) ∧
    (∀ b (st : StandId), (s.shard b st).st = .wanted → (s.shard b st).deadline ≤ s.time.tick → s.gives (.attemptTimeout b st) fun t =>
      t.counter 0x531004 = (s.counter 0x531004 + 1) % 2 ^ 64 ∧
      ((s.shard b st).attempt < 4 → (t.shard b st).st = .wanted ∧ (t.shard b st).attempt = (s.shard b st).attempt + 1 ∧
        (t.shard b st).deadline = s.time.tick + 6000000000) ∧ (4 ≤ (s.shard b st).attempt → (t.shard b st).st = .missing)) ∧
    (∀ b (st : StandId), s.time.tick < (s.shard b st).deadline → exec (.attemptTimeout b st) s = .next s) ∧
    (∀ b (st : StandId) (p : Pos) rewrites,
      let c := (s.stand st).coreAt p
      let run := ((s.core st c).bank b).st = .write ∧ (s.shard b st).st = .writing
      let u := s.writeOne b st p c rewrites
      (run → s.gives (.arrayWriteVerifyDone b st p rewrites) fun t => t = u.pumpWrites ∧ t.mem = s.mem ∧
        (((u.core st c).bank b).st = .verify ∧ (u.shard b st).st = .writing ∧ (u.shard b st).done.getLsbD p = true ∨
          ((u.core st c).bank b).st = .failed ∧ (u.shard b st).st = .unplaceable)) ∧
      (¬ run → exec (.arrayWriteVerifyDone b st p rewrites) s = .next s)) ∧
    (∀ b (st : StandId),
      let run := (s.shard b st).st = .writing ∧ (s.shard b st).done = 0xFFFF
      (run → s.gives (.shardFinalCheck b st) fun t =>
        (s.readBackOk b st = true → (t.shard b st).st = .verified ∧ t.counters = s.counters) ∧
        (s.readBackOk b st = false → (t.shard b st).st = .wanted ∧ (t.shard b st).attempt = 1 ∧ t.counter 0x531007 = (s.counter 0x531007 + 1) % 2 ^ 64)) ∧
      (¬ run → exec (.shardFinalCheck b st) s = .next s)) ∧
    ∀ b (st : StandId) (p : Pos),
      let key := b2n b * 80000 + st.val * 16 + p.val
      let c := (s.stand st).coreAt p
      let clear := s.clearingCore st c = true ∧ (s.shortened = false ∨ s.forcedOpen st = true)
      (s.scrubDue key = true → ((s.core st c).bank b).st ≠ .compute ∨ clear → s.gives (.scrubRead b st p) fun t =>
        t.weights.scrubLeft = s.weights.scrubLeft.erase key ∧ s.outsideMaster t ∧
        t.counter 0x531009 = if s.weights.scrubLeft.erase key = [] then (s.counter 0x531009 + 1) % 2 ^ 64 else s.counter 0x531009) ∧
      (s.scrubDue key = true → ((s.core st c).bank b).st = .compute → s.clearingCore st c = true → s.shortened = true →
        s.forcedOpen st = false → s.gives (.scrubRead b st p) fun t => t = { s with counters := t.counters } ∧ s.countsOnly t 0x520006 1) ∧
      (s.scrubDue key = false → s.weights.scrubLeft ≠ [] → exec (.scrubRead b st p) s = .next s)

/-- Adapter and binary commands. -/
def Obligations.AdaptersAndBinaries : Prop :=
  ∀ s : State, (∀ b k, s.wrongBurst b k = 0) →
    (∀ (ident : Word) (off : DWord) (len : Word) digest,
      let bad := ident = 0 ∨ off.toNat % 8 ≠ 0 ∨ 16777152 < len.toNat ∨ 64000000000 < off.toNat + len.toNat
      let img := s.tierBytes true off.toNat len.toNat
      let i := Instr.adapterLoad ident off len digest
      let slot := (List.range 4096).find? fun n => (s.slotHdr n).st = 0
      (bad → s.gives i fun t => t.weights.ares = 0x105 ∧ t.mem = s.mem) ∧
      (¬ bad → s.identHeld ident.toNat = true → s.gives i fun t => t.weights.ares = 0x101 ∧ t.mem = s.mem) ∧
      (¬ bad → s.identHeld ident.toNat = false → slot = none → s.gives i fun t => t.weights.ares = 0x107 ∧ t.mem = s.mem) ∧
      ∀ n, ¬ bad → s.identHeld ident.toNat = false → slot = some n →
        (sha256 img = slice digest 0 32 ∧ imageOk img = true → s.gives i fun t => t.weights.ares = 0x100 ∧
          t.weights.mapDue = s.weights.mapDue ++ [(ident.toNat, n)] ∧ (t.slotHdr n).ident = ident.toNat ∧ (t.slotHdr n).st = 1 ∧
          (t.slotHdr n).gen = ((s.slotHdr n).gen + 1) % 65536 ∧ t.mem.tierB = s.mem.tierB) ∧
        (sha256 img ≠ slice digest 0 32 ∨ imageOk img = false → s.gives i fun t => t.weights.ares = 0x106 ∧
          t.weights.mapDue = s.weights.mapDue ∧ (t.slotHdr n).st = 0 ∧ t.counter 0x532002 = (s.counter 0x532002 + 1) % 2 ^ 64)) ∧
    (∀ ident : Word,
      let live := (List.range 4096).find? fun n => decide (ident.toNat ≠ 0 ∧ (s.slotHdr n).ident = ident.toNat ∧ (s.slotHdr n).st = 2)
      (live = none → s.gives (.adapterRemove ident) fun t => t.weights.ares = (if ident = 0 then 0x205 else 0x201) ∧ t.mem = s.mem) ∧
      ∀ n, live = some n → s.gives (.adapterRemove ident) fun t => t.weights.ares = 0x200 ∧ (t.slotHdr n).st = 3 ∧
        (t.slotHdr n).ident = ident.toNat ∧ t.weights.unmapDue = s.weights.unmapDue ++ [ident.toNat]) ∧
    (∀ off len : DWord,
      let b := s.tierBytes true off.toNat len.toNat
      let bad := off.toNat % 8 ≠ 0 ∨ len.toNat < 656 ∨ 1073741824 < len.toNat ∨ 64000000000 < off.toNat + len.toNat
      (s.binary.activate.isSome ∨ bad → s.gives (.binaryLoad off len) fun t =>
        t.binary = { s.binary with res := if s.binary.activate.isSome then 0x101 else 0x105 } ∧ t = { s with binary := t.binary, host := t.host }) ∧
      (s.binary.activate = none → ¬ bad → s.gives (.binaryLoad off len) fun t => t = { s with binary := t.binary, host := t.host, counters := t.counters } ∧
        t.binary = if s.conSigned b = false then { s.binary with staged := none, res := 0x106 }
          else if conChecked b (s.power.debug == 1) = false then { s.binary with staged := none, res := 0x108 }
          else { s.binary with staged := some b, res := 0x100 })) ∧
    ∀ beat : DWord, s.gives (.binaryActivate beat) fun t => t = { s with binary := t.binary, host := t.host } ∧ t.host.msixDue.getLsbD 16 = true ∧
      let ok := s.binary.activate = none ∧ beat.toNat < 2 ^ 48 ∧ s.serving.state = 0 ∧ ∃ b, s.binary.staged = some b ∧ s.layoutFits b = true
      (ok → t.binary = { s.binary with activate := some beat.toNat, res := 0x200 }) ∧
      (¬ ok → ∃ code, code ∈ [1, 2, 3, 5, 9] ∧ t.binary = { s.binary with res := 0x200 + code })

/-- Every well-formed command runs, an ill-formed instruction is refused by name. -/
def Obligations.IllFormedRefused : Prop :=
  ∀ (i : Instr) (s : State),
    (i.wellFormed = false → exec i s = .refused .illFormed) ∧
    (∀ st tile, s.tileWord tile.toNat = none → exec (.topen st tile) s = .refused .illFormed) ∧
    (i.wellFormed = true → (∀ st tile, i = .topen st tile → (s.tileWord tile.toNat).isSome) → ∃ t, exec i s = .next t)

/-- Memory requests, their answers, and the resend point. -/
def Obligations.MemoryRequests : Prop :=
  (∀ (s : State) (node : NodeId) (p : Packet), s.inOrder p = false →
    exec (.memreqReceive node p) s = .next s ∧ exec (.memrspReceive node p) s = .next s) ∧
  (∀ s : State, (∀ b k, s.wrongBurst b k = 0) → ∀ (node : NodeId) (p : Packet) (m : MemReq), p.body = .memreq m → s.inOrder p = true →
    let mesh := dropFirst p s.mesh
    let answer := fun (ws : List Word) (status : Nat) =>
      s.reply node p.src p.sinc (.memrsp { status, tierB := m.tierB, tag := m.tag, wm1 := m.wm1, data := ws })
    let a := 4 * m.waddr
    let n := 4 * (m.wm1 + 1)
    let ok := s.isAway node = false ∧ memMalformed m = false
    let arb := node.val - 5000
    let x := s.arb arb
    let q : ArbReq := { requester := requesterOf p.src, node := p.src, burst := m.waddr / 16, lock := m.lock, since := s.time.tick, work := .mem p [] }
    let idle := x.idle q = true ∧ s.late arb q = false
    let counts := fun (t : State) => ∀ j, j ≠ 0x527007 → j ≠ 0x527008 → t.counter j = s.counter j
    (s.isAway node = true → s.gives (.memreqReceive node p) fun t => t = { s with mesh := t.mesh, counters := t.counters } ∧
      ∃ r w0 w1, t.mesh = mesh ++ [r] ∧ r.body = .away 5 w0 w1 ∧ r.dst = p.src) ∧
    (s.isAway node = false → memMalformed m = true → s.gives (.memreqReceive node p) fun t =>
      t = { s with mesh := mesh, counters := t.counters } ∧ s.countsOnly t 0x526008 1) ∧
    (ok → node.val < 5000 ∨ 5088 ≤ node.val ∨ memInRange m node = false →
      s.gives (.memreqReceive node p) fun t => t = { s with mesh := mesh ++ [answer [] 1] }) ∧
    (5000 ≤ node.val → node.val < 5088 → ok → memInRange m node = true →
      (idle → m.op = 1 → s.gives (.memreqReceive node p) fun t =>
        t = { s with mesh := mesh ++ [answer [] 0], mem := t.mem, counters := t.counters } ∧ counts t ∧ (t.arb arb).queue = [] ∧
        (∀ i, i < n → t.tierByte m.tierB (a + i) = (bytesOf m.data).getD i 0) ∧
        ∀ b k, b ≠ m.tierB ∨ k < a ∨ a + n ≤ k → t.tierByte b k = s.tierByte b k) ∧
      (idle → m.op ≠ 1 → s.gives (.memreqReceive node p) fun t =>
        t = { s with mem := { s.mem with arbs := t.mem.arbs }, counters := t.counters, mesh := mesh ++ [match m.whdr with
          | some h => s.reply node p.src p.sinc (.write h (wordsOf (s.tierBytes m.tierB a n)))
          | none => answer (wordsOf (s.tierBytes m.tierB a n)) 0] } ∧ counts t ∧ (t.arb arb).queue = []) ∧
      (s.late arb q = false → x.idle q = false → x.room q = true → s.gives (.memreqReceive node p) fun t =>
        s.parked { t with mesh := s.mesh } arb q ∧ t.mesh = mesh) ∧
      (s.late arb q = false → x.idle q = false → x.room q = false → exec (.memreqReceive node p) s = .next s))) ∧
  (∀ (s : State) (node : NodeId) (p : Packet) (m : MemRsp), p.body = .memrsp m → s.inOrder p = true → s.isAway node = false →
    let mesh := dropFirst p s.mesh
    let old := p.dincv = true ∧ p.dinc ≠ (s.node node).inc
    (old → s.gives (.memrspReceive node p) fun t => t = { s with mesh := mesh, counters := t.counters } ∧ s.countsOnly t 0x527009 1) ∧
    (¬ old → node.val < 5000 → s.gives (.memrspReceive node p) fun t => ∃ u, t = State.nextDma u node ∧ u = { s with mesh := mesh, stands := u.stands } ∧
      (∀ k, k ≠ node.val → u.stand k = s.stand k) ∧ (u.stand node).regs = (s.stand node).regs ∧ (u.stand node).spad = (s.stand node).spad ∧
      Tab.get 0 (u.stand node).known p.src = p.sinc ∧
      match (s.stand node).mems.find? fun e => decide (e.2.node = p.src ∧ e.2.req.tag = m.tag) with
      | some e => (u.stand node).mems = (s.stand node).mems.eraseP fun f => decide (f.1 = e.1)
      | none => (u.stand node).mems = (s.stand node).mems) ∧
    (¬ old → 5000 ≤ node.val → s.gives (.memrspReceive node p) fun t =>
      t = { s with mesh := mesh, grove := t.grove, counters := t.counters })) ∧
  ∀ (s : State) (node : NodeId),
    let at' := max (s.time.tick - s.time.len) (s.time.start - 1)
    let due := s.time.len ≤ s.time.tick ∨ 0 < s.time.start
    let old := fun (r : Option Nat) => ∃ k, r = some k ∧ k ≤ at'
    (¬ due → exec (.resendPoint node) s = .next s) ∧
    (due → node.val < 5000 → s.gives (.resendPoint node) fun t => t = { s with stands := t.stands, mesh := t.mesh } ∧
      (∀ k, k ≠ node.val → t.stand k = s.stand k) ∧
      t.mesh = s.mesh ++ ((s.stand node).creqs.filter fun c => c.refused.any fun k => decide (k ≤ at')).map
          (fun c => s.packet node c.dest (.creq c.msg)) ++
        ((s.stand node).mems.filter fun e => e.2.refused.any fun k => decide (k ≤ at')).map
          (fun e => s.packet node e.2.node (.memreq e.2.req)) ∧
      (∀ c, c ∈ (t.stand node).creqs → ¬ old c.refused) ∧ (∀ e, e ∈ (t.stand node).mems → ¬ old e.2.refused) ∧
      (t.stand node).creqs.length = (s.stand node).creqs.length ∧ (t.stand node).mems.length = (s.stand node).mems.length) ∧
    (due → 5000 ≤ node.val → s.gives (.resendPoint node) fun t => t = { s with grove := t.grove, mesh := t.mesh })

/-- Patrol, remap and arbiters. -/
def Obligations.MemoryUpkeep : Prop :=
  ∀ s : State,
    (∀ (node : NodeId) (off : Nat),
      let e := endpointBurst node off
      let c := if e.1 then 2 else 0
      let x := s.arb (node.val - 5000)
      let due := 5000 ≤ node.val ∧ node.val < 5088 ∧ s.patrolDue node off = true
      let q : ArbReq := { requester := 20, node := node, burst := e.2 / 64, lock := false, since := s.time.tick, work := .patrol off }
      (¬ due → exec (.patrolRead node off) s = .next s) ∧
      (due → x.idle q = false →
        (x.room q = true → s.gives (.patrolRead node off) fun t => s.parked t (node.val - 5000) q) ∧
        (x.room q = false → exec (.patrolRead node off) s = .next s)) ∧
      (due → x.queue = [] → x.lock = none →
        (s.wrongBurst e.1 (e.2 / 64) ≤ 1 → s.gives (.patrolRead node off) fun t => t = { s with mem := t.mem, counters := t.counters } ∧
          t.mem.tierA = s.mem.tierA ∧ t.mem.tierB = s.mem.tierB ∧ t.wrongBurst e.1 (e.2 / 64) = 0 ∧
          (∀ b k, (b ≠ e.1 ∨ k ≠ e.2 / 64) → t.wrongBurst b k = s.wrongBurst b k) ∧
          t.counter (0x527001 + c) = if s.wrongBurst e.1 (e.2 / 64) = 1 then (s.counter (0x527001 + c) + 1) % 2 ^ 64 else s.counter (0x527001 + c)) ∧
        (2 ≤ s.wrongBurst e.1 (e.2 / 64) → s.gives (.patrolRead node off) fun t => (∀ b k, t.wrongBurst b k = s.wrongBurst b k) ∧
          t.counter (0x527002 + c) = (s.counter (0x527002 + c) + 1) % 2 ^ 64 ∧ t.time = s.time) ∧
        s.gives (.patrolRead node off) fun t =>
          Tab.get 0 t.mem.patrol node = if tierSize e.1 ≤ (endpointBurst node (off + 1)).2 then 0 else off + 1)) ∧
    (∀ (stack : Fin 8) (pch : Fin 64),
      let p := stack.val * 64 + pch.val
      let used := (s.remap stack).valid = true ∨ (s.remap stack).copying = true
      (p ∉ s.mem.retire → exec (.pseudoChannelRemap stack pch) s = .next s) ∧
      (p ∈ s.mem.retire → used → s.gives (.pseudoChannelRemap stack pch) fun t => t = { s with mem := t.mem, rel := t.rel, host := t.host } ∧
        t.mem = { s.mem with retire := s.mem.retire.erase p } ∧ t.rel.degraded = true ∧ (s.rel.health = 0 → t.rel.health = 1)) ∧
      (p ∈ s.mem.retire → ¬ used → s.gives (.pseudoChannelRemap stack pch) fun t =>
        t = { s with mem := t.mem, rel := t.rel, counters := t.counters } ∧ t.mem.tierA = s.mem.tierA ∧ t.mem.tierB = s.mem.tierB ∧
        t.mem.retire = s.mem.retire.erase p ∧ t.remap stack = { valid := false, copying := true, pch := pch } ∧
        (∀ k, k ≠ stack.val → t.remap k = s.remap k) ∧ ∀ k, t.wrongBurst false k = if pchOf (64 * k) = p then 0 else s.wrongBurst false k)) ∧
    (∀ (arb : Fin 93) (r : Fin 21) (node : NodeId) burst lock,
      let x := s.arb arb
      let owner := ∃ k, x.lock = some (r.val, node.val, k)
      let room := x.queue.length < 31 ∨ (owner ∧ x.queue.length < 32)
      let q : ArbReq := { requester := r, node := node, burst := burst, lock := lock, since := s.time.tick }
      (requesterOk arb r node = false → exec (.arbiterPark arb r node burst lock) s = .next s) ∧
      (s.late arb q = false → ¬ room → exec (.arbiterPark arb r node burst lock) s = .next s) ∧
      (requesterOk arb r node = true → s.late arb q = false → room → s.gives (.arbiterPark arb r node burst lock) fun t => s.parked t arb q ∧
        (¬ (owner ∧ lock = true) → (t.arb arb).holder = x.holder) ∧
        (owner → lock = true → (t.arb arb).holder = x.holder.map fun h => (h.1, s.time.tick))) ∧
      (requesterOk arb r node = true → s.late arb q = true → s.gives (.arbiterPark arb r node burst lock) fun t =>
        ∃ u, exec (.arbiterWatchdog arb) s = .next u ∧ u.parked t arb { q with lock := false })) ∧
    (∀ arb : Fin 93,
      let x := s.arb arb
      (s.arbPick arb = none → exec (.arbiterGrant arb) s = .next s) ∧
      ∀ q, s.arbPick arb = some q → q ∈ x.queue ∧
        (x.lock = none → ∀ o, o ∈ x.queue → s.rank arb o.requester ≤ s.rank arb q.requester) ∧
        (∀ l, x.lock = some l → q.requester = l.1 ∧ q.node = l.2.1) ∧
        (q.work = .engine ∨ (∀ b k, s.wrongBurst b k = 0) → s.gives (.arbiterGrant arb) fun t =>
          t = { s with mem := t.mem, counters := t.counters, mesh := t.mesh } ∧ (∀ k, k ≠ arb.val → t.arb k = s.arb k) ∧
          (t.arb arb).queue = afterGrant q (s.serveReq (5000 + arb.val) q).2 x.queue ∧
          (t.arb arb).lock = lockAfter x.lock q.requester q.node q.lockNow ∧
          (t.arb arb).holder = (if (t.arb arb).lock.isSome then some (q, s.time.tick) else none) ∧
          (Tab.get {} (t.arb arb).stats q.requester).grants = (Tab.get {} x.stats q.requester).grants + 1 ∧
          t.counter 0x527007 = (if x.lock = none ∧ q.lockNow = true then (s.counter 0x527007 + 1) % 2 ^ 64 else s.counter 0x527007) ∧
          (q.work = .engine → t.mesh = s.mesh ∧ t.mem = { s.mem with arbs := t.mem.arbs } ∧ (t.arb arb).queue = x.queue.erase q))) ∧
    (∀ arb : Fin 93,
      let stuck := fun (t : Nat) => t + us (s.setting 0x250007 10) ≤ s.time.tick
      ((∀ q t, (s.arb arb).holder = some (q, t) → ¬ stuck t) → exec (.arbiterWatchdog arb) s = .next s) ∧
      ∀ q t0, (s.arb arb).holder = some (q, t0) → stuck t0 → s.gives (.arbiterWatchdog arb) fun t =>
        (t.arb arb).holder = none ∧ (t.arb arb).lock = none ∧
        (engineReq arb q.requester = true ∨ arbiterOf q.node = none → (t.arb arb).queue = (s.arb arb).queue ∧ ∀ k, k ≠ arb.val → t.arb k = s.arb k) ∧
        (∀ k, engineReq arb q.requester = false → arbiterOf q.node = some k → (t.arb k).queue = []) ∧
        (engineReq arb q.requester = false → (t.node q.node).inc = nextInc (s.node q.node).inc ∧ (t.node q.node).away = true) ∧
        (engineReq arb q.requester = true → t.nodes = s.nodes ∧ t.stands = s.stands ∧
          let k := 32 * arb.val + q.requester
          Tab.get 1 t.mem.engines k = nextInc (Tab.get 1 s.mem.engines k)) ∧
        t.counter 0x527005 = (s.counter 0x527005 + 1) % 2 ^ 64 ∧ t.counter 0x512002 = (s.counter 0x512002 + 1) % 2 ^ 64 ∧
        t.mem.tierA = s.mem.tierA ∧ t.mem.tierB = s.mem.tierB) ∧
    ∀ v : Byte, (v ≠ 1 → exec (.clearArbiterCounters v) s = .next s) ∧
      (v = 1 → s.gives (.clearArbiterCounters v) fun t => t = { s with mem := { s.mem with arbs := t.mem.arbs } } ∧
        t.arb (s.setting 0x251001 0) = { s.arb (s.setting 0x251001 0) with stats := [] } ∧
        ∀ k, k ≠ s.setting 0x251001 0 → t.arb k = s.arb k)

/-- The host link, its window and its messages. -/
def Obligations.HostLinkCommands : Prop :=
  ∀ s : State,
    (∀ off data, s.windowOpen off data.length = false → exec (.hostWindowWrite off data) s = .next s) ∧
    (∀ off data, s.windowOpen off data.length = true → (∀ b k, s.wrongBurst b k = 0) → s.gives (.hostWindowWrite off data) fun t =>
      t = { s with mem := t.mem, counters := t.counters, outbox := .hostDone :: s.outbox } ∧
      (∀ i, i < data.length → off + i < 63000000000 → t.tierByte true (off + i) = data.getD i 0) ∧
      (∀ b k, b = false ∨ k < off ∨ off + data.length ≤ k ∨ 63000000000 ≤ k → t.tierByte b k = s.tierByte b k) ∧
      t.counter 0x52700A = (if 63000000000 < off + data.length ∧ off < 64000000000 then (s.counter 0x52700A + 1) % 2 ^ 64 else s.counter 0x52700A) ∧
      t.counter 0x52900B = if 64000000000 < off + data.length then (s.counter 0x52900B + 1) % 2 ^ 64 else s.counter 0x52900B) ∧
    (∀ off n, s.windowOpen off n = false → exec (.hostWindowRead off n) s = .next s) ∧
    (∀ off n, s.windowOpen off n = true → (∀ b k, s.wrongBurst b k = 0) → s.gives (.hostWindowRead off n) fun t => ∃ bs,
      t = { s with counters := t.counters, outbox := .hostData bs :: s.outbox } ∧ bs.length = n ∧
      (∀ i, i < n → bs.getD i 0 = if off + i < 64000000000 then s.tierByte true (off + i) else 0) ∧
      t.counter 0x52900B = if 64000000000 < off + n then (s.counter 0x52900B + 1) % 2 ^ 64 else s.counter 0x52900B) ∧
    (∀ a, s.gives (.cxlSnoop a) fun t => t = { s with outbox :=
      if s.powered = true ∧ s.host.linkSt = 2 ∧ s.host.proto < 3 then .snoopMiss a :: s.outbox else s.outbox }) ∧
    (∀ (protos : BitVec 6) (lanes : Nat) (men : Bool),
      let both := fun c => c < 6 ∧ protos.getLsbD c = true ∧ bit (s.setting 0x270008 63) c = true
      let fits := fun w => w ∈ [8, 4, 2, 1] ∧ w ≤ lanes ∧ w ≤ s.setting 0x270007 8
      (s.powered = false → exec (.hostLinkTraining protos lanes men) s = .next s) ∧
      (s.powered = true → (∀ c, ¬ both c) ∨ (∀ w, ¬ fits w) → s.gives (.hostLinkTraining protos lanes men) fun t =>
        t = { s with host := { s.host with linkSt := 1, memen := false } }) ∧
      ∀ c w, s.powered = true → both c → (∀ d, d < c → ¬ both d) → fits w → (∀ v, fits v → v ≤ w) →
        s.gives (.hostLinkTraining protos lanes men) fun t => t = { s with host := t.host, nodes := t.nodes, counters := t.counters } ∧
          t.host = { s.host with linkSt := 2, proto := c, width := w, rate := protoRate c, flit := decide (c = 0 ∨ c = 3), memen := men } ∧
          (t.node 5104).away = false ∧ (t.node 5104).inc = (s.node 5104).inc ∧ s.countsOnly t 0x529009 1) ∧
    (s.powered = false → exec .hotReset s = .next s) ∧
    (s.powered = true → s.gives .hotReset fun t => t = { s with host := t.host, nodes := t.nodes, counters := t.counters } ∧
      t.host = { s.host with linkSt := 3, memen := false, msixen := false, mbirq := false, msixMask := 0xFFFFFFFF, msixPend := 0 } ∧
      t.node 5104 = { inc := nextInc (s.node 5104).inc, cause := 5, away := true } ∧ (∀ n, n ≠ 5104 → t.node n = s.node n) ∧
      t.counter 0x512002 = (s.counter 0x512002 + 1) % 2 ^ 64 ∧
      t.counter 0x52900A = if s.host.linkSt = 2 then (s.counter 0x52900A + 1) % 2 ^ 64 else s.counter 0x52900A) ∧
    (∀ v : Fin 32, s.noBoundary = false ∨ s.host.msixDue.getLsbD v = false → exec (.msixEventVector v) s = .next s) ∧
    (∀ v : Fin 32, s.noBoundary = true → s.host.msixDue.getLsbD v = true → s.gives (.msixEventVector v) fun t =>
      t = { s with host := { s.host with msixDue := t.host.msixDue, msixPend := t.host.msixPend }, outbox := t.outbox, counters := t.counters } ∧
      (∀ k, t.host.msixDue.getLsbD k = (s.host.msixDue.getLsbD k && !decide (k = v.val))) ∧
      (s.host.msixen = true → s.host.msixMask.getLsbD v = false → t.outbox = .msix v :: s.outbox ∧ s.countsOnly t 0x52900C 1) ∧
      (s.host.msixen = false ∨ s.host.msixMask.getLsbD v = true → t.outbox = s.outbox ∧ t.counters = s.counters ∧
        ∀ k, t.host.msixPend.getLsbD k = (s.host.msixPend.getLsbD k || decide (k = v.val)))) ∧
    ∀ v : Fin 32, (s.host.linkSt ≠ 2 → exec (.msixVectorUnmask v) s = .next s) ∧
      (s.host.linkSt = 2 → s.gives (.msixVectorUnmask v) fun t =>
        t = { s with host := { s.host with msixen := true, msixMask := t.host.msixMask, msixPend := t.host.msixPend },
                     outbox := t.outbox, counters := t.counters } ∧
        (∀ k, t.host.msixMask.getLsbD k = (s.host.msixMask.getLsbD k && !decide (k = v.val))) ∧
        (∀ k, t.host.msixPend.getLsbD k = (s.host.msixPend.getLsbD k && !decide (k = v.val))) ∧
        t.outbox = if s.host.msixPend.getLsbD v then .msix v :: s.outbox else s.outbox)

/-- Ports: modes, hellos, cables, neighbours. -/
def Obligations.PortCommands : Prop :=
  ∀ s : State,
    let only := fun (t : State) (p : PortId) (x : Port) => (∀ k, k ≠ p.val → t.port k = s.port k) ∧ t.port p = x
    (∀ (p : PortId) (partner : BitVec 8),
      let x := s.port p
      let both := fun m => m < 8 ∧ bit (s.ownModes p) m = true ∧ partner.getLsbD m = true
      (x.cable = false ∨ x.powered = false → exec (.portModeNegotiation p partner) s = .next s) ∧
      (x.cable = true → x.powered = true → (∀ m, ¬ both m) → s.gives (.portModeNegotiation p partner) fun t =>
        t = { s with grove := { s.grove with ports := t.grove.ports } } ∧ only t p { x with st := 1, pcs := false, reason := 0 }) ∧
      ∀ m, x.cable = true → x.powered = true → both m → (∀ d, d < m → ¬ both d) → s.gives (.portModeNegotiation p partner) fun t =>
        t = { s with grove := { s.grove with ports := t.grove.ports }, counters := t.counters, outbox := t.outbox } ∧
        only t p { x with st := if p.val < 12 ∨ x.gwok = false then 2 else 3, mode := m, reason := 0, pcs := true, rounds := [], lastHello := s.time.tick } ∧
        (t.counter 0x528007 = if ∃ d, d < m ∧ bit (s.ownModes p) d = true then (s.counter 0x528007 + 1) % 2 ^ 64 else s.counter 0x528007) ∧
        t.outbox = if p.val < 12 then s.outbox else .neighbour p true (s.gateway p) :: s.outbox) ∧
    (∀ p : PortId, s.gives (.blockLockLoss p) fun t => t = { s with grove := { s.grove with ports := t.grove.ports } } ∧
      only t p { s.port p with st := if (s.port p).st = 5 then 5 else 0, reason := 0, pcs := false }) ∧
    (∀ p : PortId, (s.helloDue p = false → exec (.helloSend p) s = .next s) ∧
      (s.helloDue p = true → s.gives (.helloSend p) fun t =>
        t = { s with grove := { s.grove with ports := t.grove.ports }, counters := t.counters, outbox := t.outbox } ∧
        only t p { s.port p with lastSent := s.time.tick } ∧ s.countsOnly t 0x528001 1 ∧
        t.outbox = .ether p { dst := broadcast, src := portMac p, vlan := none, etype := 0x88B5,
                                data := encFrame { s.frameHdr p 0 0 0 with payload := s.helloBytes p } } :: s.outbox)) ∧
    (∀ (p : PortId) (e : Ether),
      let x := s.port p
      let f := decFrame e.data
      let bad := s.frameBad p e.data = true
      let grove := p.val < 12 ∧ x.pcs = true
      let mine := e.vlan = none ∧ e.etype = 0x88B5 ∧ (e.dst = portMac p ∨ (e.dst = broadcast ∧ f.kind = 0))
      let i := Instr.hello p e
      (x.pcs = false → exec i s = .next s) ∧
      (grove → ¬ mine → s.gives i fun t => t = { s with counters := t.counters } ∧ s.countsOnly t 0x52800E 1) ∧
      (grove → mine → bad → s.gives i fun t => t = { s with counters := t.counters } ∧ s.countsOnly t 0x528004 1) ∧
      (grove → mine → ¬ bad → s.frameStale p f = true → s.gives i fun t => t = { s with counters := t.counters } ∧ s.countsOnly t 0x528005 1) ∧
      (grove → mine → ¬ bad → s.frameStale p f = false → f.kind = 0 → x.st = 5 → exec i s = .next s) ∧
      (∀ r, grove → mine → ¬ bad → s.frameStale p f = false → f.kind = 0 → x.st ≠ 5 → s.helloCheck p f = some r → s.gives i fun t =>
        t = { s with grove := { s.grove with ports := t.grove.ports }, counters := t.counters } ∧ only t p { x with st := 4, reason := r } ∧
        t.counter 0x528002 = (s.counter 0x528002 + 1) % 2 ^ 64 ∧
        t.counter 0x528006 = if x.st = 4 then s.counter 0x528006 else (s.counter 0x528006 + 1) % 2 ^ 64) ∧
      (grove → mine → ¬ bad → s.frameStale p f = false → f.kind = 0 → x.st ≠ 5 → s.helloCheck p f = none → s.gives i fun t =>
        only t p { x with st := 3, reason := 0, peerPort := beNat (slice f.payload 9 1), peerPos := beNat (slice f.payload 8 1),
                          lastHello := s.time.tick, peerMac := e.src } ∧
        (t.path p 0).partner = f.sinc ∧ t.counter 0x528002 = (s.counter 0x528002 + 1) % 2 ^ 64 ∧ t.mem = s.mem ∧ t.time = s.time)) ∧
    (∀ p : PortId,
      let x := s.port p
      let late := p.val < 12 ∧ (x.st = 2 ∨ x.st = 3 ∨ x.st = 4) ∧ x.lastHello + s.setting (entryKey 0x2600 6) 4 * s.helloTicks ≤ s.time.tick
      (¬ late → exec (.helloLoss p) s = .next s) ∧
      (late → s.gives (.helloLoss p) fun t => t = { s with grove := { s.grove with ports := t.grove.ports } } ∧
        only t p { x with st := 0, reason := 0 })) ∧
    (∀ (p : PortId) mw,
      let lim := if p.val < 12 then 2000 else 18000
      (mw ≤ lim → s.gives (.cableInsert p mw) fun t => t = { s with grove := { s.grove with ports := t.grove.ports } } ∧
        only t p { s.port p with cable := true, powered := true, st := 1, reason := 0, pcs := false }) ∧
      (lim < mw → s.gives (.cableInsert p mw) fun t =>
        t = { s with grove := { s.grove with ports := t.grove.ports }, rel := t.rel, counters := t.counters } ∧
        only t p { s.port p with cable := true, powered := false, st := 0, reason := 0, pcs := false } ∧
        (s.rel.collector.length < 4096 → ∃ r, t.rel.collector = s.rel.collector ++ [r] ∧ r.cls = 0x0601 ∧
          r.detail = leBytes 1 p.val ++ leBytes 1 2))) ∧
    (∀ p : PortId, s.gives (.cableRemove p) fun t => t = { s with grove := { s.grove with ports := t.grove.ports } } ∧
      only t p { s.port p with cable := false, powered := false, st := 0, reason := 0, pcs := false }) ∧
    (∀ p : PortId, (s.portUp p = true → exec (.reroute p) s = .next s) ∧
      (s.portUp p = false → s.gives (.reroute p) fun t => (∀ k, t.port k = s.port k) ∧ t.mem = s.mem ∧ t.time = s.time ∧
        (p.val < 12 → (∀ e, e ∈ (s.path p 0).unacked → e.1.kind ≠ 5 ∧ e.1.kind ≠ 6) → (∀ f, f ∈ (s.path p 0).waiting → f.kind ≠ 5 ∧ f.kind ≠ 6) →
          (t.path p 0).unacked = []))) ∧
    ∀ (p : PortId) target mac,
      let grove := p.val < 12 ∨ (s.port p).pcs = false
      let answer := target = s.gateway p
      let ask := target = s.octet (entryKey 0x2610 4 p) 16
      (grove ∨ ¬ answer → s.gives (.neighbourSolicitation p target (some mac)) fun t =>
        t = { s with counters := t.counters } ∧ s.countsOnly t 0x52800E 1) ∧
      (grove ∨ ¬ ask → s.gives (.neighbourSolicitation p target none) fun t =>
        t = { s with counters := t.counters } ∧ s.countsOnly t 0x52800E 1) ∧
      (¬ grove → answer → s.gives (.neighbourSolicitation p target (some mac)) fun t =>
        t = { s with grove := { s.grove with ports := t.grove.ports } } ∧ only t p { s.port p with gwok := true, st := 3, peerMac := mac }) ∧
      (¬ grove → ask → s.gives (.neighbourSolicitation p target none) fun t => t = { s with outbox := .neighbour p false target :: s.outbox })

/-- Frames, barriers across modules and shards for a peer. -/
def Obligations.TransportCommands : Prop :=
  ∀ s : State,
    let steady := fun (t : State) => t.mem = s.mem ∧ t.time = s.time ∧ ∀ k, t.port k = s.port k
    (∀ (p : PortId) peer (e : Ether) b, s.carries p e peer b →
      let f := decFrame b
      let i := Instr.transportFrameReceive p e.toEtherHdr e.data
      let node := portNode p
      let good := s.portUp p = true ∧ s.frameBad p b = false ∧ s.frameStale p f = false ∧ f.kind ≠ 0
      (s.frameBad p b = true → s.gives i fun t => t = { s with counters := t.counters } ∧ s.countsOnly t 0x528004 1) ∧
      (s.frameBad p b = false → s.frameStale p f = true → s.gives i fun t => t = { s with counters := t.counters } ∧ s.countsOnly t 0x528005 1) ∧
      (s.frameBad p b = false → s.frameStale p f = false → f.kind ≠ 0 → s.portUp p = false → exec i s = .next s) ∧
      (good → (s.path p peer).partner = f.sinc → f.kind ≠ 1 → s.gives i fun t => steady t ∧
        (∃ a, t.outbox.head? = some (.ether p (t.onWire p peer a)) ∧ a.kind = 1 ∧ a.ack = (t.path p peer).expect) ∧
        (f.seq ≠ (s.path p peer).expect → (t.path p peer).expect = (s.path p peer).expect ∧ t.counter 0x528002 = s.counter 0x528002) ∧
        (f.seq = (s.path p peer).expect → (t.path p peer).expect = ((s.path p peer).expect + 1) % 2 ^ 32 ∧
          t.counter 0x528002 = (s.counter 0x528002 + 1) % 2 ^ 64 ∧
          (f.dplace = s.ownPlace → f.kind = 2 ∨ f.kind = 3 → (t.endpoint node).delivering = (s.endpoint node).delivering ++ [f])))) ∧
    (∀ (p : PortId) h data, (s.port p).pcs = false → exec (.transportFrameReceive p h data) s = .next s) ∧
    (∀ (p : PortId) peer a win, (s.portUp p = false → exec (.ack p peer a win) s = .next s) ∧
      (s.portUp p = true → s.gives (.ack p peer a win) fun t => steady t ∧ (t.path p peer).win = win ∧
        (t.path p peer).unacked.length + (t.path p peer).waiting.length =
          (s.path p peer).unacked.length - (s.path p peer).ackedBy a + (s.path p peer).waiting.length ∧
        (t.path p peer).expect = (s.path p peer).expect ∧ t.counter 0x528002 = (s.counter 0x528002 + 1) % 2 ^ 64)) ∧
    (∀ (p : PortId) peer, (s.retxDue p peer = false → exec (.retransmitTimeout p peer) s = .next s) ∧
      (s.retxDue p peer = true → s.gives (.retransmitTimeout p peer) fun t =>
        let x := s.path p peer
        let rs := ((s.port p).rounds.filter fun k => decide (s.time.tick < k + ms 1)) ++ [s.time.tick]
        (t.path p peer).unacked.length = x.unacked.length ∧ (∀ e, e ∈ (t.path p peer).unacked.take x.sent → e.1.retx = true ∧ e.2 = s.time.tick) ∧
        (t.path p peer).unacked.drop x.sent = x.unacked.drop x.sent ∧
        t.counter 0x528003 = (s.counter 0x528003 + min x.sent x.unacked.length) % 2 ^ 64 ∧ (t.port p).rounds = rs ∧
        (t.port p).st = (if p.val < 12 ∧ 16 < rs.length then 5 else (s.port p).st) ∧ t.mem = s.mem ∧ t.time = s.time)) ∧
    (∀ (p : PortId) (f : Frame),
      let node := portNode p
      let held := f ∈ (s.endpoint node).delivering
      let r := decRelay true f.payload
      let once := fun (t : State) => (t.endpoint node).delivering = dropFirst f (s.endpoint node).delivering ∧ t.fillNewer f = false ∧
        t = { s with grove := t.grove, counters := t.counters, mesh := t.mesh }
      (¬ (f.kind = 2 ∧ held) → exec (.relay p f) s = .next s) ∧ (¬ (f.kind = 3 ∧ held) → exec (.reduce p f) s = .next s) ∧
      (f.kind = 2 → held → s.fillNewer f = false → s.gives (.relay p f) fun t => once t ∧ t.mesh = s.mesh ∧ s.countsOnly t 0x528005 1) ∧
      (f.kind = 3 → held → s.fillNewer f = false → s.gives (.reduce p f) fun t => once t ∧ t.mesh = s.mesh ∧ s.countsOnly t 0x528005 1) ∧
      (f.kind = 2 → held → s.fillNewer f = true → s.gives (.relay p f) fun t => once t ∧ t.counters = s.counters ∧
        (r.kind = 1 → ∃ tag, t.mesh = s.mesh ++ [s.packet node r.dnode (.creq
          { window := r.dwindow, count := 1, mode := true, row := (r.drow + f.info / 2 ^ 27) % 32, tag })]) ∧
        (r.kind = 3 ∨ r.kind = 4 → ∃ m : MemReq, t.mesh = s.mesh ++ [s.packet node (endpointOf m.tierB r.dest) (.memreq m)] ∧
          m.op = 1 ∧ m.tierB = decide (r.kind = 4) ∧ m.waddr = r.dest / 4 ∧ m.wm1 = 63 ∧ m.data = frameRow f)) ∧
      (f.kind = 3 → held → s.fillNewer f = true → s.gives (.reduce p f) fun t => once t ∧ s.countsOnly t 0x52800B 1 ∧
        t.mesh = s.mesh ++ [s.packet node r.dnode (.reduce (injectedPart f))])) ∧
    (∀ (c : Fin 66) q place,
      let x := s.chan c
      let i := Instr.arrive c q place
      let arr := if (place, q) ∈ x.arrivals then x.arrivals else x.arrivals ++ [(place, q)]
      let all := s.members c ≠ [] ∧ ∀ n, n ∈ s.members c → (n, q) ∈ arr
      let here := s.root c = s.ownPlace ∧ x.done < q ∧ x.sentPhase < q
      (¬ here → exec i s = .next s) ∧
      (here → ¬ all → s.gives i fun t => t = { s with grove := { s.grove with chans := t.grove.chans } } ∧ t.chan c = { x with arrivals := arr } ∧
        ∀ k, k ≠ c.val → t.chan k = s.chan k) ∧
      (here → all → s.gives i fun t => (t.chan c).sentPhase = q ∧ (c.val ≠ 64 → (t.chan c).done = q) ∧
        (c.val < 64 → Tab.get 0 t.phases c = q) ∧ steady t)) ∧
    (∀ (c : Fin 66) q,
      let x := s.chan c
      let i := Instr.complete c q
      let on := (64 ≤ c.val ∨ s.extended c = true) ∧ x.done < q ∧ (c.val = 64 → s.weights.sw.st = 2 ∨ s.weights.sw.st = 3)
      (¬ on → exec i s = .next s) ∧
      (on → s.gives i fun t => t = { s with grove := t.grove, counters := t.counters, phases := t.phases, weights := t.weights } ∧
        t.chan c = { x with done := q, arrivals := x.arrivals.filter fun a => decide (q < a.2) } ∧ (∀ k, k ≠ c.val → t.chan k = s.chan k) ∧
        t.counter 0x52800C = (s.counter 0x52800C + 1) % 2 ^ 64 ∧ (c.val < 64 → Tab.get 0 t.phases c = q ∧ t.weights = s.weights) ∧
        (c.val = 64 → t.weights.sw = { s.weights.sw with completed := true } ∧ t.phases = s.phases) ∧
        (c.val = 65 → t.weights.sw = { s.weights.sw with retired := true } ∧ t.phases = s.phases))) ∧
    (∀ (c : Fin 66) q place,
      let x := s.chan c
      let i := Instr.withdraw c q place
      let on := s.root c = s.ownPlace ∧ x.sentPhase < q ∧ x.done < q
      (¬ on → exec i s = .next s) ∧
      (on → s.gives i fun t => t = { s with grove := t.grove, counters := t.counters, outbox := t.outbox, rel := t.rel } ∧
        t.chan c = { x with arrivals := x.arrivals.filter fun a => a ≠ (place, q) } ∧ ∀ k, k ≠ c.val → t.chan k = s.chan k)) ∧
    (∀ c q, exec (.withdrawn c q) s = .next s) ∧
    (∀ peer (epoch : Word) (st : StandId) second, (s.peerBank epoch.toNat st second = none → s.gives (.shardReq peer epoch st second) fun t =>
        t = { s with counters := t.counters } ∧ s.countsOnly t 0x52800D 1) ∧
      ((s.peerBank epoch.toNat st second).isSome → s.gives (.shardReq peer epoch st second) fun t => steady t ∧
        (t.path 12 peer).unacked.length + (t.path 12 peer).waiting.length = (s.path 12 peer).unacked.length + (s.path 12 peer).waiting.length + 513 ∧
        ((s.path 12 peer).waiting = [] → (s.path 12 peer).unacked.length ≤ 511 → (t.path 12 peer).waiting = [] ∧
          (t.path 12 peer).nextSeq = ((s.path 12 peer).nextSeq + 513) % 2 ^ 32) ∧ ((∀ k, s.wrongBurst true k = 0) → t.weights = s.weights))) ∧
    ∀ frag (epoch : Word) (st : StandId) second bytes,
      (s.fragWanted frag epoch.toNat st second bytes.length = false → s.gives (.shardData frag epoch st second bytes) fun t =>
        t = { s with counters := t.counters } ∧ s.countsOnly t 0x531002 1) ∧
      (s.fragWanted frag epoch.toNat st second bytes.length = true → s.gives (.shardData frag epoch st second bytes) fun t =>
        t = { s with grove := { s.grove with frags := t.grove.frags } } ∧ (frag, st.val, second, bytes) ∈ t.grove.frags ∧
        ∀ g, (g.1 ≠ frag ∨ g.2.1 ≠ st.val ∨ g.2.2.1 ≠ second) → (g ∈ t.grove.frags ↔ g ∈ s.grove.frags))

/-- Coppicing, self-test, fault stop, records and the wall clock. -/
def Obligations.ReliabilityCommands : Prop :=
  ∀ s : State,
    (∀ (st : StandId) (p : Pos) urgent,
      let x := s.stand st
      let i := Instr.coppicingStart st p urgent
      let fits := urgent = ((s.core st (x.coreAt p)).fenced || (x.paired p && (s.core st 16).fenced))
      let spare := x.coppice = none ∧ s.spareState st = 0
      let fits := fits ∧ (urgent = true ∨ (s.core st (x.coreAt p)).suspect = true)
      (¬ fits → exec i s = .next s) ∧
      (∀ q, fits → x.coppice = some q → q.pos = p.val → s.gives i fun t => t = { s with stands := t.stands } ∧
        t.stand st = { x with coppice := some { q with urgent := urgent || q.urgent } } ∧ ∀ k, k ≠ st.val → t.stand k = s.stand k) ∧
      (fits → spare → s.gives i fun t => t = { s with stands := t.stands, cores := t.cores } ∧ (∀ k, k ≠ st.val → t.stand k = s.stand k) ∧
        t.stand st = { x with coppice := some { pos := p, old := x.coreAt p, urgent := urgent, start := s.time.tick } } ∧
        ∀ b, ((t.core st 16).bank b).st = if b ∈ s.computeBanks then .write else ((s.core st 16).bank b).st) ∧
      (fits → ¬ spare → (∀ q, x.coppice = some q → q.pos ≠ p.val) → s.gives i fun t => t = { s with rel := t.rel, counters := t.counters, host := t.host } ∧
        (urgent = true → s.rel.health < 2 → t.rel.health = 2 ∧ t.rel.fsCause = 0x0105) ∧
        (urgent = false → t.rel.degraded = true ∧ (s.rel.health = 0 → t.rel.health = 1)))) ∧
    (∀ st : StandId,
      let x := s.stand st
      (x.coppice = none ∨ (∃ q, x.coppice = some q ∧ q.verified = true) → exec (.repairSequencerDone st) s = .next s) ∧
      ∀ q, x.coppice = some q → q.verified = false → s.gives (.repairSequencerDone st) fun t => t.mem = s.mem ∧ t.time = s.time ∧
        let done := t.spareLeft st = [] ∧ (t.stand st).coppice = some { q with verified := true, micros := (s.time.tick - q.start) / 100 }
        let fails := fun b => (t.stand st).coppice = none ∧ ((t.core st 16).bank b).st = .failed ∧ (t.core st 16).sliceOk = false
        (done ∨ ∃ b, b ∈ s.spareLeft st ∧ fails b) ∧ (s.spareLeft st = [] → done) ∧
        (∀ b, s.spareLeft st = [b] → (s.spareOne st q b).2 = true → done) ∧
        ∀ b, (s.spareLeft st).head? = some b → (s.spareOne st q b).2 = false → fails b) ∧
    (∀ (st : StandId) (k : MaintKind) pass cycles found,
      let i := Instr.selfTestStep st k pass cycles found
      let may := cycles ≤ 600 ∧ s.arith = true ∧ s.itemDue st k = true ∧ s.stepAllowed st k = true ∧ s.stepRoom k = true
      let free := s.forcedOpen st = true
      let clear := s.stepClear st k = true ∧ s.olderItem st k = false
      let runs := may ∧ (free ∨ (clear ∧ s.shortened = false))
      (¬ may ∨ (¬ free ∧ ¬ clear) → exec i s = .next s) ∧
      (may → ¬ free → clear → s.shortened = true → s.gives i fun t => t = { s with counters := t.counters } ∧ s.countsOnly t 0x520006 1) ∧
      (runs → s.gives i fun t => t.counter 0x521001 = (s.counter 0x521001 + 1) % 2 ^ 64 ∧ t.mem = s.mem ∧ t.time = s.time) ∧
      (∀ c, runs → k = .core c → s.gives i fun t =>
        (pass = true → (s.core st c).sliceStep + 1 < 32 → t = { s with cores := t.cores, counters := t.counters, rel := t.rel } ∧
          (t.core st c).sliceStep = (s.core st c).sliceStep + 1) ∧
        (pass = true → 32 ≤ (s.core st c).sliceStep + 1 → (t.core st c).sliceStep = 0 ∧ (t.core st c).sliceTick = s.time.tick ∧
          (t.core st c).sliceOk = true ∧ t.counter 0x521002 = (s.counter 0x521002 + 1) % 2 ^ 64) ∧
        (pass = false → (t.core st c).sliceStep = 0 ∧ (t.core st c).sliceOk = false ∧ (t.core st c).suspect = true ∧
          t.counter 0x521003 = (s.counter 0x521003 + 1) % 2 ^ 64)) ∧
      (∀ d, runs → k = .link d → pass = false → s.gives i fun t => (t.link st d).testDue = true) ∧
      (runs → k = .unit → pass = false → s.rel.health < 2 → s.gives i fun t => t.rel.health = 2 ∧ t.rel.fsCause = 0x0106) ∧
      ∀ c, runs → k = .trim c → s.gives i fun t => ∀ m, m ∈ (t.stand st).maint → m.kind ≠ .trim c) ∧
    (∀ (st : StandId) ticks,
      let i := Instr.forcedClearing st ticks
      let ok := s.arith = true ∧ 0 < ticks ∧ ticks ≤ 3200
      ((s.stand st).clearing = none ∨ ¬ ok → exec i s = .next s) ∧
      (∀ k n, (s.stand st).clearing = some (k, n) → ok →
        (s.gives i fun t => (t.stand st).clearing = none ∧ t.mem = s.mem ∧ t.time = s.time ∧
          t.counter 0x521005 = (s.counter 0x521005 + 1) % 2 ^ 64 ∧ t.counter 0x521006 = (s.counter 0x521006 + ticks) % 2 ^ 64) ∧
        ((∀ x, x ∈ (s.stand st).tiles → x.deferred = false) → s.gives i fun t => t = { s with stands := t.stands, rel := t.rel, counters := t.counters } ∧
          t.stand st = { s.stand st with clearing := none } ∧ ∀ m, m ≠ st.val → t.stand m = s.stand m))) ∧
    (∀ q : Byte,
      let ok := q.toNat < 4 ∧ s.serving.state = 0 ∧ (s.power.lifecycle = 0 ∨ s.power.lifecycle = 2 ∨ s.power.lifecycle = 3)
      s.gives (.voltageMarginCommand q) fun t =>
        (ok → t = { s with rel := { s.rel with marginQ := some q.toNat, marginRun := s.rel.marginRun + 1 } }) ∧ (¬ ok → t = s)) ∧
    (∀ (unit : BitVec 16) (sub kind margin : Byte) pass,
      let i := Instr.sliceCommand unit sub kind margin pass
      let ok := (s.power.lifecycle = 0 ∨ s.power.lifecycle = 3) ∧ unit.toNat < 5000 ∧ margin.toNat < 3 ∧ (sliceOf kind.toNat sub.toNat).isSome
      (¬ ok → exec i s = .next s) ∧
      (ok → s.gives i fun t => t.rel.cmdSlice = leBytes 2 unit.toNat ++ [sub, kind, margin, 0, 0, 0] ∧
        t.counter 0x521001 = (s.counter 0x521001 + sliceSteps kind.toNat) % 2 ^ 64 ∧
        t.counter (if pass then 0x521002 else 0x521003) = (s.counter (if pass then 0x521002 else 0x521003) + 1) % 2 ^ 64 ∧ t.mem = s.mem)) ∧
    (∀ p : Fin 12, ((s.port p).pcs = false → exec (.groveFecFailure p) s = .next s) ∧
      ((s.port p).pcs = true → s.gives (.groveFecFailure p) fun t =>
        t = { s with grove := { s.grove with ports := t.grove.ports }, rel := t.rel, counters := t.counters } ∧
        t.port p = { s.port p with st := 5, reason := 0 } ∧ (∀ k, k ≠ p.val → t.port k = s.port k) ∧
        t.counter 0x52800F = (s.counter 0x52800F + 1) % 2 ^ 64)) ∧
    (∀ cls : BitVec 16, (2 ≤ s.rel.health → exec (.faultStop cls) s = .next s) ∧
      (s.rel.health < 2 → s.gives (.faultStop cls) fun t => t = { s with rel := t.rel, counters := t.counters, host := t.host } ∧ t.rel.health = 2 ∧
        t.rel.fsCause = cls.toNat ∧ t.rel.fsBeat = some s.time.beat ∧ t.rel.fsTick = s.time.tick ∧
        t.counter 0x540007 = (s.counter 0x540007 + 1) % 2 ^ 64 ∧ t.host.msixDue.getLsbD 20 = true)) ∧
    (let fresh := fun (t : State) => t.host.staged = [] ∧ t.host.queued = [] ∧ t.host.snapshots = [] ∧
        t.power = { s.power with fwCheck := true, spdmVersion := false, spdmCaps := false, spdmAlgs := false } ∧
        t.outbox.length = s.outbox.length + (s.host.queued.filter fun q => q.path = .mailbox).length
     (s.gives .foresterRestart fun t => fresh t ∧ t = { s with host := t.host, power := t.power, outbox := t.outbox }) ∧
      s.gives .foresterWatchdog fun t => fresh t ∧ t.rel.foresterRestarts = s.rel.foresterRestarts + 1 ∧ s.time.tick ∈ t.rel.restartTicks ∧
        t = { s with host := t.host, power := t.power, outbox := t.outbox, rel := t.rel, counters := t.counters }) ∧
    (s.rel.collector = [] → exec .errorRecordWrite s = .next s) ∧
    (∀ r rest, s.rel.collector = r :: rest → (∀ b k, s.wrongBurst b k = 0) → s.errorLogAt + 67108864 ≤ tierSize true →
      s.gives .errorRecordWrite fun t => t = { s with rel := t.rel, mem := t.mem, counters := t.counters, host := t.host } ∧ t.rel.collector = rest ∧
        t.rel.logCount = s.rel.logCount + 1 ∧ (r.sev ≠ 3 → (s.rel.logCount, r) ∈ t.rel.cper) ∧
        let a := s.errorLogAt + 64 * (s.rel.logCount % 1048576)
        t.tierBytes true a 64 = r.bytes s.rel.logCount ∧ (∀ b k, b = false ∨ k < a ∨ a + 64 ≤ k → t.tierByte b k = s.tierByte b k) ∧
        t.counter 0x540001 = (s.counter 0x540001 + 1) % 2 ^ 64) ∧
    (∀ n : DWord, s.gives (.cperRemove n) fun t => t = { s with rel := { s.rel with cper := t.rel.cper } } ∧
      ∀ e, e ∈ t.rel.cper ↔ e ∈ s.rel.cper ∧ e.1 ≠ n.toNat) ∧
    ∀ v : DWord, s.gives (.wallClockWrite v) fun t => t = { s with rel := { s.rel with wall := v.toNat, wallSet := decide (v ≠ 0) } }

/-- Converters, temperatures, throttle, stops and calibration. -/
def Obligations.SensingCommands : Prop :=
  ∀ s : State,
    let adcOnly := fun (t : State) (ch : Nat) (a : Adc) => t = { s with sense := { s.sense with adcs := t.sense.adcs } } ∧ t.adc ch = a ∧
      ∀ k, k ≠ ch → t.adc k = s.adc k
    let recent := ∃ k, s.sense.lastRise = some k ∧ s.time.tick < k + 100000
    (∀ (ch : Fin 96) raw,
      let a := s.adc ch
      let r := if 94 ≤ ch.val then 0 else clamp24 raw
      let on := s.powered = true ∧ (s.trigSource ch = 0 ∨ a.trigBusy = true)
      (¬ on → exec (.adcResult ch raw) s = .next s) ∧
      (on → 1 < a.settle → s.gives (.adcResult ch raw) (adcOnly · ch { a with settle := a.settle - 1 })) ∧
      (on → a.settle ≤ 1 → s.gives (.adcResult ch raw) (adcOnly · ch
        { a with raw := r, code := clamp24 (roundHalfEven ((r + a.offset) * a.gain) 4194304), settle := 0, trigBusy := false }))) ∧
    (∀ ch : Fin 96,
      let on := s.powered = true ∧ s.trigSource ch ≠ 0
      (¬ on → exec (.adcTrigger ch) s = .next s) ∧
      (on → (s.adc ch).trigBusy = true → s.gives (.adcTrigger ch) fun t => t = { s with counters := t.counters } ∧ s.countsOnly t 0x514005 1) ∧
      (on → (s.adc ch).trigBusy = false → s.gives (.adcTrigger ch) (adcOnly · ch { s.adc ch with trigBusy := true, settle := 3 }))) ∧
    (∀ (d : Fin 64) (u v : Int),
      let x := s.diode d
      let r := diodeTemp (s.ideality d) (s.seriesR d) u v
      let ns := s.neighbourReadings d
      let out := tempOut r = true ∨ u < 512000 ∨ 2304000 < u
      let off := ns ≠ [] ∧ (r - median ns > 384 ∨ median ns - r > 384)
      let i := Instr.diodeReading d u v
      let rest := fun (t : State) => ∀ k, k ≠ d.val → t.diode k = s.diode k
      (s.powered = false → exec i s = .next s) ∧
      (s.powered = true → s.gives i fun t => t.mem = s.mem ∧ t.stands = s.stands ∧
        (s.sense.stop = 0 → 6720 ≤ t.hottest.2 → t.sense.stop = 1 ∨ t.sense.stop = 2) ∧
        (s.sense.stop = 0 → t.hottest.2 < 6720 → t.sense.stop = 0 ∧ t.sense.tlevel =
          if s.throttleLimit ≤ t.hottest.2 ∧ s.sense.tlevel ≠ 7 ∧ ¬ recent then s.sense.tlevel + 1 else s.sense.tlevel) ∧
        (s.sense.stop = 2 → t.sense.stop = if 7040 ≤ t.hottest.2 then 1 else 2)) ∧
      (s.powered = true → x.failed = true → s.gives i fun t => t.sense.diodes = s.sense.diodes) ∧
      (s.powered = true → x.failed = false → out → s.gives i fun t => rest t ∧ t.diode d = { x with failed := true, valid := false, cause := 2 } ∧
        t.counter 0x513005 = (s.counter 0x513005 + 1) % 2 ^ 64) ∧
      (s.powered = true → x.failed = false → ¬ out → off → s.gives i fun t => rest t ∧
        t.diode d = { x with misses := x.misses + 1, valid := false, last := s.time.tick, failed := decide (3 ≤ x.misses + 1),
                             cause := if 3 ≤ x.misses + 1 then 1 else x.cause }) ∧
      (s.powered = true → x.failed = false → ¬ out → ¬ off → s.gives i fun t => rest t ∧
        t.diode d = { x with reading := r, valid := true, misses := 0, cadence := s.cadenceOf r, last := s.time.tick,
                             history := (s.time.tick, r) :: x.history.take 15 })) ∧
    (∀ d : Fin 72, d.val < 64 →
      let x := s.diode d
      let late := s.powered = true ∧ x.failed = false ∧ x.last + 3 * cadenceTicks x.cadence ≤ s.time.tick
      (¬ late → exec (.diodeReadingTimeout d) s = .next s) ∧
      (late → s.gives (.diodeReadingTimeout d) fun t => t = { s with sense := t.sense, rel := t.rel, counters := t.counters, host := t.host } ∧
        t.diode d = { x with failed := true, valid := false, cause := 3 } ∧ (∀ k, k ≠ d.val → t.diode k = s.diode k) ∧
        t.counter 0x513005 = (s.counter 0x513005 + 1) % 2 ^ 64)) ∧
    (∀ d : Fin 72, 64 ≤ d.val →
      let x := s.therm (d.val - 64)
      let late := s.powered = true ∧ x.failed = false ∧ x.last + 30000000 ≤ s.time.tick
      (¬ late → exec (.diodeReadingTimeout d) s = .next s) ∧
      (late → s.gives (.diodeReadingTimeout d) fun t => t = { s with sense := t.sense, rel := t.rel, counters := t.counters } ∧
        t.therm (d.val - 64) = { x with failed := true, valid := false, cause := 3 } ∧ (∀ k, k ≠ d.val - 64 → t.therm k = s.therm k) ∧
        t.counter 0x513005 = (s.counter 0x513005 + 1) % 2 ^ 64)) ∧
    (∀ n : Fin 8,
      let x := s.therm n
      let r := s.thermNow n
      let i := Instr.thermistorReading n
      let on := s.powered = true ∧ x.failed = false
      (¬ on → exec i s = .next s) ∧
      (on → tempOut r = true → s.gives i fun t => t.therm n = { x with failed := true, valid := false, cause := 2 } ∧
        t.counter 0x513005 = (s.counter 0x513005 + 1) % 2 ^ 64 ∧ t.sense.tlevel = s.sense.tlevel) ∧
      (on → tempOut r = false → s.gives i fun t => t.therm n = { x with reading := r, valid := true, last := s.time.tick } ∧
        t.sense.tlevel = if s.thermLimit n ≤ r ∧ s.sense.tlevel ≠ 7 ∧ ¬ recent ∧ s.sense.stop = 0 then s.sense.tlevel + 1 else s.sense.tlevel)) ∧
    (let may := s.sense.stop = 0 ∧ 0 < s.sense.tlevel ∧ s.allBelow = true ∧
        max s.sense.lastChange s.sense.belowSince + ms (s.setting 0x130009 100) ≤ s.time.tick
     (¬ may → exec .throttleRelease s = .next s) ∧
      (may → s.gives .throttleRelease fun t => t = { s with sense := t.sense, host := t.host } ∧
        t.sense = { s.sense with tlevel := s.sense.tlevel - 1, lastChange := s.time.tick })) ∧
    (∀ n : Fin 8, (s.sense.stop ≠ 0 → exec (.powerLevelRequest n) s = .next s) ∧
      (s.sense.stop = 0 → s.gives (.powerLevelRequest n) fun t => t = { s with sense := t.sense, host := t.host } ∧
        t.sense = { s.sense with plevel := n })) ∧
    (let may := s.sense.stop = 2 ∧ s.sense.stopBoundary.isSome
     (¬ may → exec .orderlyStopClockStop s = .next s) ∧
      (may → s.gives .orderlyStopClockStop fun t => t.sense = { s.sense with stop := 3 } ∧ t.time = s.time ∧ t.stands = s.stands) ∧
      (may → (∀ b k, s.wrongBurst b k = 0) → s.gives .orderlyStopClockStop fun t =>
        t = { s with sense := t.sense, rel := t.rel, mem := t.mem, counters := t.counters, host := t.host } ∧ t.rel.collector = [] ∧
        t.rel.logCount = s.rel.logCount + s.rel.collector.length)) ∧
    (let may := s.sense.stop = 1 ∨ s.stopOverdue = true
     (¬ may → exec .immediateStop s = .next s) ∧
      (may → s.gives .immediateStop fun t => t = { s with sense := t.sense, cores := t.cores, rel := t.rel, counters := t.counters, host := t.host } ∧
        t.sense = { s.sense with stop := 4 } ∧ ∀ st c b, ((t.core st c).bank b).shadow = none)) ∧
    let queued := fun (t : State) (q : Nat) => t = { s with sense := t.sense, stands := t.stands } ∧
      Tab.get 0 t.sense.quadLast q = s.time.tick ∧ Tab.get 0 t.sense.quadMean q = s.quadMean q ∧
      ∀ st, (quadrant st ≠ q ∨ 5000 ≤ st → t.stand st = s.stand st) ∧
        (quadrant st = q → st < 5000 → ∀ c : Fin 17, (s.core st c).fenced = false → ∃ m, m ∈ (t.stand st).maint ∧ m.kind = .trim c)
    (∀ v : Byte, (v.toNat < 4 → s.gives (.calibrationCommand v) (queued · v.toNat)) ∧
      (v.toNat = 4 → s.gives (.calibrationCommand v) fun t => t = { s with sense := { s.sense with adcRunDue := true } }) ∧
      (4 < v.toNat → exec (.calibrationCommand v) s = .next s)) ∧
    (∀ q : Fin 4,
      let due := s.powered = true ∧ (s.moved (s.quadMean q) (Tab.get 0 s.sense.quadMean q) = true ∨
        Tab.get 0 s.sense.quadLast q + s.calTicks ≤ s.time.tick)
      (¬ due → exec (.arrayCalibrationDue q) s = .next s) ∧ (due → s.gives (.arrayCalibrationDue q) (queued · q))) ∧
    ∀ (vref bandgap : Int) means,
      let i := Instr.adcCalibrationRun vref bandgap means
      let due := s.powered = true ∧ s.adcDue = true
      let bad := 200 * (vref - bandgap) > vref ∨ 200 * (bandgap - vref) > vref
      (¬ due → exec i s = .next s) ∧
      (due → s.gives i fun t => t = { s with sense := t.sense, rel := t.rel, counters := t.counters } ∧ t.sense.adcRunDue = false ∧
        t.sense.adcLast = s.time.tick ∧ t.sense.adcMean = s.meanAll ∧ (bad → t.sense.vrefBad = true ∧ t.sense.adcs = s.sense.adcs) ∧
        (¬ bad → t.sense.vrefBad = false ∧ t.sense.adcRunEnd = true)) ∧
      ∀ ch z v g, due → ¬ bad → ch < 96 → means = [(ch, z, v)] → newGain v (-z) = some g → s.gives i fun t => (∀ k, k ≠ ch → t.adc k = s.adc k) ∧
        if z ≤ 65536 ∧ -65536 ≤ z ∧ 4110418 ≤ g ∧ g ≤ 4278190 then t.adc ch = { s.adc ch with shadow := some (-z, g.toNat), calfail := false, settle := 3 }
        else t.adc ch = { s.adc ch with shadow := none, calfail := true, settle := 3 } ∧ t.counter 0x514002 = (s.counter 0x514002 + 1) % 2 ^ 64

/-- Supplies, power level and resets. -/
def Obligations.PowerAndResets : Prop :=
  ∀ s : State,
    let reach := fun (t : State) (code : Nat) => t.power.state = (if code = 7 then 5 else 0) ∧
      t.time = { resumeWait := decide (2 ≤ s.sense.stop) } ∧ (∀ k, t.counter k = 0) ∧ t.mem.tierA = [] ∧ t.mem.tierB = [] ∧ t.rel.health = 0 ∧
      t.serving = {} ∧ t.mesh = [] ∧ (∀ n, n < 5107 → t.node n = { inc := 1, cause := code, away := false }) ∧
      (∀ st, (t.stand st).regs = [] ∧ (t.stand st).running = false) ∧ t.weights.current = s.weights.current ∧ t.binary.current = s.binary.current ∧
      t.power.lifecycle = s.power.lifecycle ∧ t.power.debug = s.power.debugNext
    let cold := fun (t : State) (code source detail : Nat) => reach t code ∧ t.power.cause = causeWord s.power.cause code source detail
    let next := fun (i : Instr) => exec i s = .next s
    (∀ bk, (s.power.vaux = true → next (.vauxValid bk)) ∧
      (s.power.vaux = false → s.gives (.vauxValid bk) fun t => reach t 1 ∧ t.power.vaux = true ∧
        if bk = true then t.power.cause = causeWord s.power.cause 1 0 0 else t.power.cause = 0x8000 ∧ t.power.rings = [])) ∧
    (∀ lost, s.gives (.vauxLoss lost) fun t => t = { s with power := t.power, outbox := t.outbox } ∧
      t.power = { s.power with vaux := false, in48 := s.power.in48 && !lost, state := 0, railStep := 0 } ∧
      t.outbox = if lost then s.outbox else ((List.range s.power.railStep).map fun k => .sequence (k + 1)) ++ s.outbox) ∧
    (∀ missed, (s.power.fwCheck = true → s.gives (.railSequence missed) fun t => t.power.fwCheck = false) ∧
      (s.power.fwCheck = false → s.maySequence = false → next (.railSequence missed)) ∧
      (s.power.fwCheck = false → s.maySequence = true →
        (missed = none → s.gives (.railSequence missed) fun t => t = { s with power := t.power, outbox := t.outbox, host := t.host } ∧
          t.power = { s.power with in48 := true, railStep := 6, seqFails := 0, state := 1, exitStep := 3 } ∧
          t.outbox = [.sequence 6, .sequence 5, .sequence 4, .sequence 3, .sequence 2, .sequence 1] ++ s.outbox) ∧
        ∀ ch : Fin 16, missed = some ch → (railStepOf ch.val = none → next (.railSequence missed)) ∧
          (∀ k, railStepOf ch.val = some k → s.gives (.railSequence missed) fun t => cold t 2 11 ch.val ∧
            t.power.seqFails = s.power.seqFails + 1 ∧ t.power.railStep = 0))) ∧
    (∀ (source : Fin 16) (detail : Byte),
      let on := s.power.railStep = 6 ∧ 8 ≤ source.val ∧ source.val ≤ 11
      (¬ on → next (.brownout source detail)) ∧
      (on → s.gives (.brownout source detail) (cold · 2 source.val (if source.val = 11 then detail.toNat else 0)))) ∧
    (∀ (n : Fin 68) (cause : Fin 4),
      let q := n.val / 17
      let on := s.power.railStep = 6 ∧ Tab.get 0 s.power.phases n ≠ 2
      (¬ on → next (.phaseFailed n cause)) ∧
      (on → s.gives (.phaseFailed n cause) fun t => t = { s with power := t.power, rel := t.rel, counters := t.counters, host := t.host, sense := t.sense } ∧
        Tab.get 0 t.power.phases n = 2 ∧ t.counter 0x511004 = (s.counter 0x511004 + 1) % 2 ^ 64 ∧
        (∀ k, Tab.get 0 s.power.phases n = 0 → (s.setPhase n 2).sparePhase q = some k → Tab.get 0 t.power.phases k = 0) ∧
        (t.workingPhases q < 15 → s.rel.health < 2 → t.rel.health = 2 ∧ t.rel.fsCause = 0x0A02) ∧
        (t.workingPhases q = 15 → q ∈ t.power.noSpare) ∧
        (15 < t.workingPhases q → t.rel.health = s.rel.health ∧ t.power.level = s.power.level))) ∧
    (∀ mw, (s.power.railStep ≠ 6 → next (.powerSample mw)) ∧
      (s.power.railStep = 6 → s.gives (.powerSample mw) fun t =>
        t = { s with power := t.power, rel := t.rel, counters := t.counters, host := t.host, sense := t.sense } ∧
        t.counter 0x511003 = (s.counter 0x511003 + (s.power.energy + mw) / 100000000) % 2 ^ 64 ∧
        t.power.energy = (s.power.energy + mw) % 100000000 ∧ t.power.samples = mw :: s.power.samples.take 99999 ∧
        (11 * s.powerLimit < 10 * mw → s.power.level < 7 → s.power.level < t.power.level) ∧
        (mw ≤ s.powerLimit → t.power.samples.sum ≤ 100000 * s.powerLimit → 19 * s.powerLimit ≤ 20 * mw → t.power.level = s.power.level ∧ t.sense = s.sense))) ∧
    (∀ source : Fin 16,
      let on := s.power.vaux = true ∧ 1 ≤ source.val ∧ source.val ≤ 3
      (¬ on → next (.coldReset source)) ∧
      (on → s.gives (.coldReset source) fun t => cold t 3 source.val 0 ∧ (source.val = 2 → t.power.cmdRes = 0x200))) ∧
    (let warm := fun (t : State) (source : Nat) => t.power.state = 4 ∧ t.power.cause = causeWord s.power.cause 4 source 0 ∧ t.mem.tierA = s.mem.tierA ∧
        t.mem.tierB = s.mem.tierB ∧ t.time.tick = s.time.tick ∧ t.weights.current = s.weights.current ∧ t.serving.suspendDue = true ∧
        ∀ st, st < 5000 → (t.stand st).regs = [] ∧ (t.stand st).running = false ∧ (t.node st).inc = nextInc (s.node st).inc ∧
          (t.node st).away = (s.node st).away
     (∀ source : Fin 16, (source.val ≠ 2 → source.val ≠ 3 → next (.warmReset source)) ∧
      (s.power.state = 4 ∨ s.warmOk = false → source.val = 3 → next (.warmReset source)) ∧
      (s.power.state = 4 ∨ s.warmOk = false → source.val = 2 → s.gives (.warmReset source) fun t =>
        t = { s with power := { s.power with cmdRes := if s.power.state = 4 then 0x100 else 0x101 } }) ∧
      (s.warmOk = true → source.val = 2 ∨ source.val = 3 → s.gives (.warmReset source) fun t => warm t source.val ∧
        (source.val = 2 → t.power.cmdRes = 0x100))) ∧
     (s.powered = false → next .perstN) ∧
     (s.powered = true → s.setting 0x110009 0 = 2 → s.gives .perstN (cold · 3 3 0)) ∧
     (s.powered = true → s.setting 0x110009 0 = 1 → s.warmOk = true → s.gives .perstN (warm · 3)) ∧
     (s.powered = true → s.setting 0x110009 0 = 1 → s.power.state = 4 → s.gives .perstN fun t =>
       t = { s with counters := t.counters } ∧ s.countsOnly t 0x512003 1) ∧
     (s.powered = true → s.setting 0x110009 0 = 0 ∨ (s.setting 0x110009 0 = 1 ∧ s.warmOk = false ∧ s.power.state ≠ 4) → s.gives .perstN fun t =>
       t.host.linkSt = 3 ∧ t.node 5104 = { inc := nextInc (s.node 5104).inc, cause := 5, away := true } ∧
       t = { s with host := t.host, nodes := t.nodes, counters := t.counters })) ∧
    (∀ node : BitVec 16,
      let n := node.toNat
      let code := if 5106 < n then 5 else if s.powered = false ∨ n = 5105 then 1 else if n = 5106 ∧ s.serving.state ≠ 0 then 2 else 0
      let absorbed := n < 5000 ∧ s.power.state = 4
      (code ≠ 0 ∨ absorbed → s.gives (.unitResetCommand node) fun t => t = { s with power := { s.power with cmdRes := t.power.cmdRes }, freeCtr := t.freeCtr } ∧
        t.power.cmdRes % 256 = code) ∧
      (code = 0 → ¬ absorbed → s.gives (.unitResetCommand node) fun t => t.node n = { inc := nextInc (s.node n).inc, cause := 5, away := true } ∧
        t.counter 0x512002 = (s.counter 0x512002 + 1) % 2 ^ 64 ∧ t.power.cmdRes % 256 = 0 ∧ t.mem.tierA = s.mem.tierA ∧ t.mem.tierB = s.mem.tierB)) ∧
    (∀ (source : Fin 16) (detail : Byte), (source.val = 5 → s.powered = true → s.gives (.fatalReset source detail) (cold · 8 5 detail.toNat)) ∧
      (source.val = 6 → s.power.vaux = true → s.gives (.fatalReset source detail) (cold · 8 6 0)) ∧
      (¬ (source.val = 5 ∧ s.powered = true) → ¬ (source.val = 6 ∧ s.power.vaux = true) → next (.fatalReset source detail))) ∧
    (let due := s.rel.health = 2 ∧ s.setting 0x110007 0 = 1 ∧ s.rel.fsTick + sec (s.setting 0x110008 60) ≤ s.time.tick
     (due → s.gives .fatalDelayExpiry (cold · 8 7 0)) ∧ (¬ due → next .fatalDelayExpiry)) ∧
    (let due := 3 ≤ (s.rel.restartTicks.filter fun k => decide (s.time.tick < k + 6000000000)).length
     (due → s.gives .escalatedWatchdog (cold · 6 4 0)) ∧ (¬ due → next .escalatedWatchdog)) ∧
    (∀ c : Fin 16, s.gives (.thermalTrip c) fun t => cold t 7 12 c.val ∧ t.sense.tripN = false) ∧
    ∀ fs,
      let blocked := s.power.vaux = false ∨ s.power.recovery = true ∨ s.power.railStep ≠ 6 ∨ 1 < s.power.state ∨ s.power.lifecycle = 4
      (s.power.fwCheck = false → blocked → next (.coldExit fs)) ∧
      (s.power.fwCheck = false → ¬ blocked → s.bootUncovered fs ≠ [] → s.gives (.coldExit fs) fun t => t.power.state = 2 ∧ t.power.exitStep = 4 ∧ t.rel.health = 3 ∧
        t.rel.uncovered = (s.bootUncovered fs).take 64 ∧ t = { s with power := t.power, rel := t.rel, counters := t.counters, host := t.host }) ∧
      (s.power.fwCheck = false → ¬ blocked → s.bootUncovered fs = [] → s.binary.current = none → s.gives (.coldExit fs) fun t => t.power.state = 3 ∧
        t.power.exitStep = 8 ∧ t.power.due = [] ∧ t.binary.current = none ∧ t.weights.current = s.weights.current)

/-- Floor, owner keys, lifecycle and firmware. -/
def Obligations.SecurityCommands : Prop :=
  ∀ s : State,
    (∀ svn : Byte,
      let b := s.power.fw s.power.running
      let code := if s.power.recovery = true then 1 else if 64 < svn.toNat ∨ fwSvn b < svn.toNat then 5 else if s.power.running ≠ s.activeSlot then 1 else 0
      (s.gives (.floorCommand svn) fun t => s.power.fwFloor ≤ t.power.fwFloor) ∧
      (s.power.fwCheck = false → s.gives (.floorCommand svn) fun t =>
        t = { s with power := { s.power with cmdRes := t.power.cmdRes, fwFloor := t.power.fwFloor }, freeCtr := t.freeCtr } ∧
        t.power.cmdRes % 256 = code ∧ t.power.fwFloor = if code = 0 then max s.power.fwFloor svn.toNat else s.power.fwFloor)) ∧
    (∀ b : List Byte,
      let k := field b 0 1
      let key := slice b 8 422
      let ok := s.power.lifecycle = 2 ∧ k ≤ 3 ∧ keyForm key = true ∧ b.length = 832 ∧ ownerReserved b = false ∧
        sig1By (s.otherKeys k) (slice b 432 400) (slice b 0 432 ++ leBytes 8 Config.serialNumber.toNat) = true ∧
        ¬ (s.otherKeys k = [] ∧ key.all (· = 0) = true)
      (ok → s.gives (.ownerKeyCommand b) fun t => t = { s with octets := t.octets, power := { s.power with cmdRes := t.power.cmdRes }, freeCtr := t.freeCtr } ∧
        t.ownerSlot k = key ∧ (∀ j, j < 4 → j ≠ k → t.ownerSlot j = s.ownerSlot j) ∧ t.power.cmdRes % 256 = 0) ∧
      (¬ ok → s.gives (.ownerKeyCommand b) fun t => t = { s with power := { s.power with cmdRes := t.power.cmdRes }, freeCtr := t.freeCtr } ∧
        t.power.cmdRes % 256 ∈ [1, 5, 6])) ∧
    (∀ (target : Byte) (serial : DWord) erased,
      let old := s.power.lifecycle
      let new := target.toNat
      let i := Instr.lifecycleCommand target serial erased
      let edge := (old = 0 ∧ new = 1) ∨ (old = 1 ∧ new = 2) ∨ ((old = 1 ∨ old = 2) ∧ new = 3) ∨ (old = 3 ∧ new = 1) ∨ (old < 4 ∧ new = 4)
      let refused := fun (t : State) => t.power.lifecycle = old ∧ t.power.deviceKey = s.power.deviceKey ∧ t.power.scrapFuse = s.power.scrapFuse ∧
        t.weights = s.weights ∧ t.binary = s.binary ∧ t.octets = s.octets ∧ t.power.cmdRes % 256 ∈ [1, 2, 5, 6]
      let empty := fun (t : State) => t.weights.current = 0 ∧ t.weights.staging = none ∧ (∀ b, (t.version b).epoch = 0) ∧ t.weights.shards = [] ∧
        t.binary.current = none ∧ t.binary.staged = none ∧ ∀ j, j < 4 → t.ownerSlot j = List.replicate 422 0
      (¬ edge ∨ serial ≠ Config.serialNumber ∨ s.serving.state ≠ 0 → s.gives i refused) ∧
      (s.lifecycleCode new serial ≠ 0 ∨ ((new = 3 ∨ new = 4) ∧ erased = false) → s.gives i refused) ∧
      (s.lifecycleCode new serial = 0 → erased = true ∨ new < 3 → s.gives i fun t => t.power.lifecycle = new ∧ t.power.cmdRes % 256 = 0 ∧
        (3 ≤ new → empty t) ∧ (new = 4 → t.power.deviceKey = false ∧ t.power.scrapFuse = true ∧ t.power.state = 0) ∧
        (new = 1 → t.power.debugNext = 0))) ∧
    ∀ image : List Byte,
      let ok := s.power.vaux = true ∧ image ≠ [] ∧ image.length ≤ 8388608 ∧ imageReserved image = false
      let k := if s.power.recovery = true then s.activeSlot else 1 - s.activeSlot
      (¬ ok → exec (.firmwareUpload image) s = .next s) ∧
      (ok → s.power.fwCheck = false → fwFails image s.power.fwFloor = none → s.gives (.firmwareUpload image) fun t => t.power.fw k = image ∧
        t.power.fw (1 - k) = s.power.fw (1 - k) ∧ t.power.upRes % 256 = 0 ∧ t.mem = s.mem ∧ t.stands = s.stands) ∧
      (∀ n, ok → s.power.fwCheck = false → fwFails image s.power.fwFloor = some n → s.gives (.firmwareUpload image) fun t =>
        t = { s with power := { s.power with upRes := t.power.upRes }, freeCtr := t.freeCtr, counters := t.counters } ∧
        t.power.upRes % 256 = (if n = 5 then 5 else 6) ∧ s.countsOnly t 0x512004 1)

/-- The DEBUG flag (R441). -/
def Obligations.DebugFlag : Prop :=
  ∀ s : State,
    (∀ v : Byte, v.toNat < 2 → (s.power.lifecycle = 0 ∨ s.power.lifecycle = 1 ∨ s.power.lifecycle = 3) →
      s.gives (.debugFlagWrite v) fun t => t = { s with power := { s.power with debugNext := v.toNat } }) ∧
    (∀ v : Byte, ¬ (s.power.lifecycle = 0 ∨ s.power.lifecycle = 1 ∨ s.power.lifecycle = 3) → exec (.debugFlagWrite v) s = .next s) ∧
    (∀ v : Byte, 2 ≤ v.toNat → exec (.debugFlagWrite v) s = .next s) ∧
    (∀ source : Fin 16, s.power.vaux = true → 1 ≤ source.val → source.val ≤ 3 → s.gives (.coldReset source) fun t => t.power.debug = s.power.debugNext) ∧
    (s.measurement 2).2.getD 4 0 = BitVec.ofNat 8 s.power.debugNext

/-- SPDM requests (layouts of DSP0274, log 50). -/
def Obligations.SpdmCommands : Prop :=
  ∀ (s : State) (p : MPath) (req : List Byte),
    let said := fun (t : State) (m : List Byte) =>
      t.outbox = (match p with | .mailbox => .mailbox 0 ([1, 5, 0, 0] ++ m) | p => .spdm p m) :: s.outbox
    let fails := fun (i : Instr) (code data : Nat) => s.gives i fun t => t = { s with outbox := t.outbox, host := t.host } ∧ said t (spdmError code data)
    let only := fun (t : State) => t = { s with power := t.power, freeCtr := t.freeCtr, outbox := t.outbox, host := t.host } ∧
      t.power.lifecycle = s.power.lifecycle ∧ t.power.state = s.power.state
    (s.spdmUp p = false → ∀ i, i ∈ [Instr.getVersion p req, .getCapabilities p req, .negotiateAlgorithms p req, .getDigests p req,
      .getCertificate p req, .challenge p req, .getMeasurements p req, .spdmUnsupportedRequest p req] → exec i s = .next s) ∧
    (s.spdmUp p = true →
      (s.gives (.getVersion p req) fun t => only t ∧ said t [0x10, 4, 0, 0, 0, 1, 0, 0x12] ∧ t.power.spdmVersion = true ∧ t.power.spdmCaps = false ∧
        t.power.spdmAlgs = false) ∧
      (field req 0 1 ≠ 0x12 → fails (.getCapabilities p req) 0x41 0 ∧ fails (.negotiateAlgorithms p req) 0x41 0) ∧
      (field req 0 1 = 0x12 → s.power.spdmVersion = false ∨ s.power.spdmCaps = true → fails (.getCapabilities p req) 4 0) ∧
      (field req 0 1 = 0x12 → s.power.spdmVersion = true → s.power.spdmCaps = false → s.gives (.getCapabilities p req) fun t => only t ∧
        t.power.spdmCaps = true ∧ ∃ ct, said t ([0x12, 0x61, 0, 0, 0, ct, 0, 0] ++ leBytes 4 0x16 ++ leBytes 4 4096 ++ leBytes 4 4096)) ∧
      (field req 0 1 = 0x12 → s.power.spdmCaps = false ∨ s.power.spdmAlgs = true → fails (.negotiateAlgorithms p req) 4 0) ∧
      (field req 0 1 = 0x12 → s.power.spdmCaps = true → s.power.spdmAlgs = false →
        (req.length < 32 → fails (.negotiateAlgorithms p req) 1 0) ∧
        (32 ≤ req.length → s.gives (.negotiateAlgorithms p req) fun t => only t ∧ t.power.spdmAlgs = true ∧
          said t ([0x12, 0x63, 0, 0] ++ leBytes 2 36 ++ leBytes 1 (field req 6 1 % 2) ++ [0] ++ leBytes 4 (2 * (field req 6 1 % 2)) ++
            leBytes 4 (bits (field req 8 4) 3 3 * 8) ++ leBytes 4 (field req 12 4 % 2) ++ List.replicate 16 0))) ∧
      (∀ c, s.spdmReady req = some c → fails (.getDigests p req) c 0 ∧ fails (.getCertificate p req) c 0 ∧ fails (.challenge p req) c 0 ∧
        fails (.getMeasurements p req) c 0) ∧
      (s.spdmReady req = none →
        (s.gives (.getDigests p req) fun t => only t ∧ said t ([0x12, 1, 0, 1] ++ sha256 spdmChain)) ∧
        (let off := field req 4 2
         let n := min (min (field req 6 2) 4088) (spdmChain.length - off)
         let bad := req.length < 8 ∨ field req 2 1 % 16 ≠ 0 ∨ spdmChain.length ≤ off
         (bad → fails (.getCertificate p req) 1 0) ∧
         (¬ bad → s.gives (.getCertificate p req) fun t => only t ∧
           said t ([0x12, 2, 0, 0] ++ leBytes 2 n ++ leBytes 2 (spdmChain.length - off - n) ++ slice spdmChain off n))) ∧
        (let bad := req.length < 36 ∨ field req 2 1 ≠ 0
         (bad → fails (.challenge p req) 1 0) ∧
         (¬ bad → s.gives (.challenge p req) fun t => only t ∧ t.power.salt = s.power.salt + 1 ∧ ∃ nonce sig, nonce.length = 32 ∧
           said t ([0x12, 3, 0, 1] ++ sha256 spdmChain ++ nonce ++ s.measSummary (field req 3 1) ++ [0, 0] ++ sig))) ∧
        (let signed := bit (field req 2 1) 0
         let op := field req 3 1
         let bad := measWanted op = none ∨ (signed = true ∧ (req.length < 37 ∨ field req 36 1 % 16 ≠ 0))
         (bad → fails (.getMeasurements p req) 1 0) ∧
         (∀ l, ¬ bad → measWanted op = some l → s.gives (.getMeasurements p req) fun t => only t ∧
           t.power.salt = (if signed then s.power.salt + 1 else s.power.salt) ∧ ∃ nonce sig, nonce.length = 32 ∧ (signed = false → sig = []) ∧
           said t ([0x12, 0x60] ++ leBytes 1 (if op = 0 then 7 else 0) ++ [0] ++ leBytes 1 l.length ++
             leBytes 3 (l.flatMap s.measBlock).length ++ l.flatMap s.measBlock ++ nonce ++ [0, 0] ++ sig)))) ∧
      fails (.spdmUnsupportedRequest p req) 7 (field req 1 1))

/-- Dictionary, mailbox, MCTP and VLAN (layouts of the standards, log 60), with the forester running. -/
def Obligations.ManagementCommands : Prop :=
  ∀ s : State, s.power.fwCheck = false →
    let sent := fun (t : State) (p : MPath) (ans : List Byte) =>
      t.outbox = (match p with | .mailbox => .mailbox 0 ([1, 0x7E, 0, 0] ++ ans) | p => .answer p ans) :: s.outbox
    let talk := fun (t : State) => t = { s with host := t.host, outbox := t.outbox, counters := t.counters, freeCtr := t.freeCtr }
    let is := fun (i : Instr) (p : MPath) (m : List Byte) =>
      (∃ seq index sub off len, i = .dictionaryRead p seq index sub off len ∧
        m = request 1 seq.toNat index.toNat sub.toNat 0 off.toNat len.toNat []) ∨
      (∃ seq index sub last off data, i = .dictionaryWrite p seq index sub last off data ∧
        m = request 2 seq.toNat index.toNat sub.toNat (b2n last) off.toNat data.length data) ∨
      (∃ seq index sub, i = .describe p seq index sub ∧ m = request 3 seq.toNat index.toNat sub.toNat 0 0 0 [])
    (∀ i p m, is i p m →
      let q : QueuedReq := { path := p, msg := m, tick := s.time.tick, beat := s.time.beat }
      let front := s.pathUp p = true ∧ s.waiting p = []
      (s.pathUp p = false → exec i s = .next s) ∧
      (s.pathUp p = true → s.waiting p ≠ [] → pathDepth p ≤ (s.waiting p).length → s.gives i fun t => talk t ∧ sent t p (answerHeader m 7 false 0)) ∧
      (s.pathUp p = true → s.waiting p ≠ [] → (s.waiting p).length < pathDepth p → s.gives i fun t =>
        t = { s with host := { s.host with queued := s.host.queued ++ [q] } }) ∧
      (front → s.status p m ≠ 0 → s.gives i fun t => talk t ∧ sent t p (answerHeader m (s.status p m) false 0) ∧
        t.counter (pathCounter p) = (s.counter (pathCounter p) + 1) % 2 ^ 64 ∧ t.counter 0x529004 = (s.counter 0x529004 + 1) % 2 ^ 64) ∧
      ∀ e, front → s.status p m = 0 → findEntry (mIndex m) (mSub m) = some e →
        (mOp m = 3 → s.gives i fun t => talk t ∧ sent t p (answerWith m 0 (s.describe e, false))) ∧
        (mOp m = 1 → e.isRecount = false → s.gives i fun t => talk t ∧ sent t p (answerWith m 0 (readPart p (s.valueBytes e) m))) ∧
        (mOp m = 1 → e.isRecount = true → mOffset m = 0 → s.snapNow = false → s.gives i fun t =>
          t = { s with host := { s.host with queued := q :: s.host.queued } }) ∧
        (mOp m = 2 → (mIndex m, mSub m) ∈ [(0x1300, 3), (0x2000, 5), (0x2300, 3), (0x4040, 1)] → s.gives i fun t =>
          t = { s with host := t.host, outbox := t.outbox, counters := t.counters, freeCtr := t.freeCtr, settings := t.settings } ∧
          sent t p (answerWith m 0 ([], false)) ∧ t.setting (entryKey (mIndex m) (mSub m)) 0 = leNat (mData m) ∧
          ∀ k d, k ≠ entryKey (mIndex m) (mSub m) → t.setting k d = s.setting k d)) ∧
    (∀ (p : MPath) (index : BitVec 16) (sub : Byte), s.gives (.segmentTimeout p index sub) fun t =>
      let late := fun (x : Staged) => x.path = p ∧ x.key = entryKey index.toNat sub.toNat ∧ x.tick + s.segmentTicks ≤ s.time.tick
      t = { s with host := { s.host with staged := t.host.staged } } ∧ t.host.staged.length = s.host.staged.length ∧
      (∀ x, x ∈ s.host.staged → ¬ late x → x ∈ t.host.staged) ∧ ∀ x, x ∈ t.host.staged → late x → x.expired = true ∧ x.data = []) ∧
    (∀ p : MPath,
      let old := fun (q : QueuedReq) => q.tick + 10000000 ≤ s.time.tick
      let fires := fun (q : QueuedReq) => s.snapNow = true ∨ (q.beat ≠ s.time.beat ∧ s.time.tick = s.time.start)
      (s.inExecution p = [] → exec (.requestLimitTimeout p) s = .next s ∧ exec (.recountSnapshot p) s = .next s) ∧
      (∀ q rest, s.inExecution p = q :: rest → (¬ old q → exec (.requestLimitTimeout p) s = .next s) ∧
        (¬ fires q → exec (.recountSnapshot p) s = .next s)) ∧
      (∀ q, s.inExecution p = [q] → p ≠ .vlan → old q → s.gives (.requestLimitTimeout p) fun t => talk t ∧ t.waiting p = [] ∧
        sent t p (answerHeader q.msg 0x0B false 0)) ∧
      (∀ q, s.inExecution p = [q] → p ≠ .vlan → fires q → s.isSnap q = true → s.gives (.recountSnapshot p) fun t => talk t ∧ t.waiting p = [] ∧
        t.host.nsnap = s.host.nsnap + 1 ∧ t.counter 0x529008 = (s.counter 0x529008 + 1) % 2 ^ 64 ∧ t.outbox.length = s.outbox.length + 1 ∧
        ∃ x, x ∈ t.host.snapshots ∧ x.path = p ∧ x.tick = s.time.tick) ∧
      s.gives (.recountSnapshotTimeout p) fun t => t = { s with host := { s.host with snapshots := t.host.snapshots } } ∧
        ∀ x, x ∈ t.host.snapshots ↔ x ∈ s.host.snapshots ∧ ¬ (x.path = p ∧ x.tick + 100000000 ≤ s.time.tick)) ∧
    (∀ payload, (s.pathUp .mailbox = false → exec (.mailboxCommand payload) s = .next s) ∧
      (s.pathUp .mailbox = true → wrapperOk payload = false → s.gives (.mailboxCommand payload) fun t => talk t ∧ t.outbox = .mailbox 2 [] :: s.outbox)) ∧
    (∀ seq index sub off len, exec (.mailboxCommand ([1, 0x7E, 0, 0] ++ request 1 seq.toNat index.toNat sub.toNat 0 off.toNat len.toNat [])) s =
      exec (.dictionaryRead .mailbox seq index sub off len) s) ∧
    (∀ req, field req 1 1 = 0x84 → exec (.mailboxCommand ([1, 5, 0, 0] ++ req)) s = exec (.getVersion .mailbox req) s) ∧
    (let up := s.pathUp .mailbox = true
     let ends := fun (i : Instr) (ret : Nat) (out : List Byte) => s.gives i fun t => talk t ∧ t.outbox = .mailbox ret out :: s.outbox
     (¬ up → exec .identifyMemoryDevice s = .next s ∧ exec .getTimestamp s = .next s ∧ (∀ v, exec (.setTimestamp v) s = .next s) ∧
       ∀ op, exec (.mailboxUnsupported op) s = .next s) ∧
     (up → (s.gives .identifyMemoryDevice fun t => talk t ∧ ∃ bs, bs.length = 69 ∧ t.outbox = .mailbox 0 bs :: s.outbox) ∧
       ends .getTimestamp 0 (leBytes 8 s.rel.wall) ∧ (∀ op, ends (.mailboxUnsupported op) 3 []) ∧
       ∀ v : DWord, s.gives (.setTimestamp v) fun t =>
         t = { s with rel := { s.rel with wall := v.toNat, wallSet := decide (v ≠ 0) }, host := t.host, outbox := t.outbox } ∧ t.outbox = .mailbox 0 [] :: s.outbox)) ∧
    (s.power.vaux = false → exec .getEndpointId s = .next s ∧ exec .getMessageTypeSupport s = .next s ∧
      (∀ e, exec (.setEndpointId e) s = .next s) ∧ ∀ k, exec (.getMctpVersionSupport k) s = .next s) ∧
    (s.power.vaux = true →
      let says' := fun (i : Instr) (h : HostIf) (bs : List Byte) => exec i s = .next { s with host := h, outbox := .mctp bs :: s.outbox }
      says' .getEndpointId s.host [0, s.host.eid, 0, 0] ∧ says' .getMessageTypeSupport s.host [0, 2, 5, 0x7E] ∧
      (∀ e : Byte, if e = 0 ∨ e = 0xFF then says' (.setEndpointId e) s.host [2] else says' (.setEndpointId e) { s.host with eid := e } [0, 0, e, 0]) ∧
      ∀ k : Byte, if k = 0xFF ∨ k = 0 ∨ k = 5 ∨ k = 0x7E then
          s.gives (.getMctpVersionSupport k) fun t => talk t ∧ ∃ v, v.length = 4 ∧ t.outbox = .mctp ([0, 1] ++ v) :: s.outbox
        else says' (.getMctpVersionSupport k) s.host [0x80]) ∧
    ∀ (via : VlanIn) (src dst : List Byte) (srcPort : BitVec 16) (message : List Byte),
      let i := Instr.vlanDatagram via src dst srcPort message
      let p := 12 + via.port.val
      let m := message.drop 4
      let here := via.vlan.val = s.setting (entryKey 0x2600 0x0A) 4000
      let up := here ∧ s.pathUp .vlan = true ∧ s.portUp p = true
      let ok := s.datagramOk p src dst message
      let back := fun (t : State) (ans : List Byte) => t.outbox = .vlan p src srcPort.toNat ([1, 0x7E, 0, 0] ++ ans) :: s.outbox
      let first := up ∧ ok = true ∧ field message 1 1 = 0x7E ∧ s.keptAnswer src m = none ∧ s.waiting .vlan = []
      (¬ here → s.gives i fun t => t = { s with counters := t.counters } ∧ s.countsOnly t 0x52800E 1) ∧
      (here → ¬ up → exec i s = .next s) ∧
      (up → ok = false → s.gives i fun t => t = { s with counters := t.counters } ∧ s.countsOnly t 0x529005 1) ∧
      (∀ ans, up → ok = true → field message 1 1 = 0x7E → s.keptAnswer src m = some ans → s.gives i fun t =>
        t = { s with counters := t.counters, outbox := t.outbox } ∧ s.countsOnly t 0x529007 1 ∧ back t ans) ∧
      (first → s.status .vlan m ≠ 0 → s.gives i fun t => talk t ∧ back t (answerHeader m (s.status .vlan m) false 0)) ∧
      ∀ e, first → s.status .vlan m = 0 → findEntry (mIndex m) (mSub m) = some e → mOp m = 1 → e.isRecount = false →
        let ans := answerWith m 0 (readPart .vlan (s.valueBytes e) m)
        s.gives i fun t => talk t ∧ back t ans ∧ t.host.vlanLast.head? = some (src, field m 2 2, ans)
end

