-- ==== Sys2Proof/Laws/Kept.lean ====
section
/-! SUPPORT. What no command but the lifecycle and the floor command changes: the queue, and the lasting record of the forester. -/

set_option linter.all false

namespace Sys2Proof.Machine

/-- The queue and the lasting record of the forester. -/
def State.kept (s : State) : List Instr × Nat × Nat × Bool × Bool :=
  (s.pending, s.power.lifecycle, s.power.fwFloor, s.power.deviceKey, s.power.scrapFuse)


@[simp] theorem State.kept_upd (s : State) {outbox' freeCtr' settings' octets' counters' time' cores' stands' nodes' mesh' routers' links' seams' phases' serving' weights' binary' mem' grove' rel' sense' host'} :
    State.kept ⟨s.pending, outbox', freeCtr', settings', octets', counters', time', cores', stands', nodes', mesh', routers', links', seams', phases', serving', weights', binary', mem', grove', rel', sense', s.power, host'⟩ = s.kept := by cases s; rfl
@[simp] theorem State.kept_power (s : State) {outbox' freeCtr' settings' octets' counters' time' cores' stands' nodes' mesh' routers' links' seams' phases' serving' weights' binary' mem' grove' rel' sense' host'} {state'' vaux'' in48'' railStep'' seqFails'' exitStep'' floor'' noSpare'' aboveSince'' lowSince'' levelTick'' lastSRise'' level'' samples'' energy'' phases'' cause'' due'' causeBeat'' causeWall'' rings'' debugNext'' debug'' fwA'' fwB'' running'' recovery'' fwCheck'' cmdRes'' upRes'' spdmVersion'' spdmCaps'' spdmAlgs'' spdmA'' spdmB'' spdmL'' salt''} :
    State.kept ⟨s.pending, outbox', freeCtr', settings', octets', counters', time', cores', stands', nodes', mesh', routers', links', seams', phases', serving', weights', binary', mem', grove', rel', sense', ⟨state'', vaux'', in48'', railStep'', seqFails'', exitStep'', floor'', noSpare'', aboveSince'', lowSince'', levelTick'', lastSRise'', level'', samples'', energy'', phases'', cause'', due'', causeBeat'', causeWall'', rings'', s.power.lifecycle, debugNext'', debug'', fwA'', fwB'', running'', recovery'', fwCheck'', s.power.fwFloor, s.power.deviceKey, s.power.scrapFuse, cmdRes'', upRes'', spdmVersion'', spdmCaps'', spdmAlgs'', spdmA'', spdmB'', spdmL'', salt''⟩, host'⟩ = s.kept := by cases s; rfl
theorem foldl_kept {α : Type} {f : State → α → State} (h : ∀ s a, (f s a).kept = s.kept) (l : List α) (s : State) :
    (l.foldl f s).kept = s.kept := by
  induction l generalizing s with
  | nil => rfl
  | cons a l ih => rw [List.foldl_cons, ih, h]
@[simp] theorem State.kept_ite (c : Prop) [Decidable c] (a b : State) : (if c then a else b).kept = if c then a.kept else b.kept := by
  split <;> rfl

@[simp] theorem State.setStand_kept (s : State) (st : Nat) (v : Stand) : (State.setStand s st v).kept = s.kept := by
  unfold State.setStand
  repeat' split
  all_goals (try simp [foldl_kept])
  all_goals (repeat' split)
  all_goals (try simp [foldl_kept])
@[simp] theorem State.modStand_kept (s : State) (st : Nat) (f : Stand → Stand) : (State.modStand s st f).kept = s.kept := by
  unfold State.modStand
  repeat' split
  all_goals (try simp [foldl_kept])
  all_goals (repeat' split)
  all_goals (try simp [foldl_kept])
@[simp] theorem State.modCore_kept (s : State) (st c : Nat) (f : Core → Core) : (State.modCore s st c f).kept = s.kept := by
  unfold State.modCore
  repeat' split
  all_goals (try simp [foldl_kept])
  all_goals (repeat' split)
  all_goals (try simp [foldl_kept])
@[simp] theorem State.modNode_kept (s : State) (n : Nat) (f : NodeInfo → NodeInfo) : (State.modNode s n f).kept = s.kept := by
  unfold State.modNode
  repeat' split
  all_goals (try simp [foldl_kept])
  all_goals (repeat' split)
  all_goals (try simp [foldl_kept])
@[simp] theorem State.modRouter_kept (s : State) (n : Nat) (f : Router → Router) : (State.modRouter s n f).kept = s.kept := by
  unfold State.modRouter
  repeat' split
  all_goals (try simp [foldl_kept])
  all_goals (repeat' split)
  all_goals (try simp [foldl_kept])
@[simp] theorem State.modEndpoint_kept (s : State) (n : Nat) (f : Endpoint → Endpoint) : (State.modEndpoint s n f).kept = s.kept := by
  unfold State.modEndpoint
  repeat' split
  all_goals (try simp [foldl_kept])
  all_goals (repeat' split)
  all_goals (try simp [foldl_kept])
@[simp] theorem State.modCredit_kept (s : State) (n : Nat) (f : CreditUnit → CreditUnit) : (State.modCredit s n f).kept = s.kept := by
  unfold State.modCredit
  repeat' split
  all_goals (try simp [foldl_kept])
  all_goals (repeat' split)
  all_goals (try simp [foldl_kept])
@[simp] theorem State.modPort_kept (s : State) (p : Nat) (f : Port → Port) : (State.modPort s p f).kept = s.kept := by
  unfold State.modPort
  repeat' split
  all_goals (try simp [foldl_kept])
  all_goals (repeat' split)
  all_goals (try simp [foldl_kept])
@[simp] theorem State.modArb_kept (s : State) (n : Nat) (f : Arbiter → Arbiter) : (State.modArb s n f).kept = s.kept := by
  unfold State.modArb
  repeat' split
  all_goals (try simp [foldl_kept])
  all_goals (repeat' split)
  all_goals (try simp [foldl_kept])
@[simp] theorem State.putSetting_kept (s : State) (k v : Nat) : (State.putSetting s k v).kept = s.kept := by
  unfold State.putSetting
  repeat' split
  all_goals (try simp [foldl_kept])
  all_goals (repeat' split)
  all_goals (try simp [foldl_kept])
@[simp] theorem State.putOctet_kept (s : State) (k : Nat) (v : List Byte) : (State.putOctet s k v).kept = s.kept := by
  unfold State.putOctet
  repeat' split
  all_goals (try simp [foldl_kept])
  all_goals (repeat' split)
  all_goals (try simp [foldl_kept])
@[simp] theorem State.count_kept (s : State) (k : Nat) (n : Nat) : (State.count s k n).kept = s.kept := by
  unfold State.count
  repeat' split
  all_goals (try simp [foldl_kept])
  all_goals (repeat' split)
  all_goals (try simp [foldl_kept])
@[simp] theorem State.emit_kept (s : State) (o : Output) : (State.emit s o).kept = s.kept := by
  unfold State.emit
  repeat' split
  all_goals (try simp [foldl_kept])
  all_goals (repeat' split)
  all_goals (try simp [foldl_kept])
@[simp] theorem State.send_kept (s : State) (p : Packet) : (State.send s p).kept = s.kept := by
  unfold State.send
  repeat' split
  all_goals (try simp [foldl_kept])
  all_goals (repeat' split)
  all_goals (try simp [foldl_kept])
@[simp] theorem State.fork_kept (s : State) (p : Packet) (qs : List Packet) : (State.fork s p qs).kept = s.kept := by
  unfold State.fork
  repeat' split
  all_goals (try simp [foldl_kept])
  all_goals (repeat' split)
  all_goals (try simp [foldl_kept])
@[simp] theorem State.take_kept (s : State) (p : Packet) : (State.take s p).kept = s.kept := by
  unfold State.take
  repeat' split
  all_goals (try simp [foldl_kept])
  all_goals (repeat' split)
  all_goals (try simp [foldl_kept])
@[simp] theorem State.freshByte_kept (s : State) : s.freshByte.2.kept = s.kept := rfl
@[simp] theorem State.due_kept (s : State) (v : Nat) : (State.due s v).kept = s.kept := by
  unfold State.due
  repeat' split
  all_goals (try simp [foldl_kept])
  all_goals (repeat' split)
  all_goals (try simp [foldl_kept])
@[simp] theorem State.countWaits_kept (s : State) : (State.countWaits s).kept = s.kept := by
  unfold State.countWaits
  repeat' split
  all_goals (try simp [foldl_kept])
  all_goals (repeat' split)
  all_goals (try simp [foldl_kept])
@[simp] theorem State.advance_kept (s : State) (n : Nat) : (State.advance s n).kept = s.kept := by
  unfold State.advance
  repeat' split
  all_goals (try simp [foldl_kept])
  all_goals (repeat' split)
  all_goals (try simp [foldl_kept])
@[simp] theorem State.log_kept (s : State) (r : ErrRec) : (State.log s r).kept = s.kept := by
  unfold State.log
  repeat' split
  all_goals (try simp [foldl_kept])
  all_goals (repeat' split)
  all_goals (try simp [foldl_kept])
@[simp] theorem State.record_kept (s : State) (cls sev : Nat) (detail : List Byte) (unit : Nat) (sub : Nat) (opcode : Nat) : (State.record s cls sev detail unit sub opcode).kept = s.kept := by
  unfold State.record
  repeat' split
  all_goals (try simp [foldl_kept])
  all_goals (repeat' split)
  all_goals (try simp [foldl_kept])
@[simp] theorem State.degrade_kept (s : State) : (State.degrade s).kept = s.kept := by
  unfold State.degrade
  repeat' split
  all_goals (try simp [foldl_kept])
  all_goals (repeat' split)
  all_goals (try simp [foldl_kept])
@[simp] theorem State.faultStop_kept (s : State) (cls : Nat) : (State.faultStop s cls).kept = s.kept := by
  unfold State.faultStop
  repeat' split
  all_goals (try simp [foldl_kept])
  all_goals (repeat' split)
  all_goals (try simp [foldl_kept])
@[simp] theorem State.vacate_kept (s : State) (st p : Nat) : (State.vacate s st p).kept = s.kept := by
  unfold State.vacate
  repeat' split
  all_goals (try simp [foldl_kept])
  all_goals (repeat' split)
  all_goals (try simp [foldl_kept])
@[simp] theorem State.quarantine_kept (s : State) (st : Nat) (cause : Nat) : (State.quarantine s st cause).kept = s.kept := by
  unfold State.quarantine
  repeat' split
  all_goals (try simp [foldl_kept])
  all_goals (repeat' split)
  all_goals (try simp [foldl_kept])
@[simp] theorem State.rowDegraded_kept (s : State) (st b r : Nat) : (State.rowDegraded s st b r).kept = s.kept := by
  unfold State.rowDegraded
  repeat' split
  all_goals (try simp [foldl_kept])
  all_goals (repeat' split)
  all_goals (try simp [foldl_kept])
@[simp] theorem State.rowDue_kept (s : State) (st b r : Nat) (ue : Bool) : (State.rowDue s st b r ue).kept = s.kept := by
  unfold State.rowDue
  repeat' split
  all_goals (try simp [foldl_kept])
  all_goals (repeat' split)
  all_goals (try simp [foldl_kept])
@[simp] theorem State.spadUe_kept (s : State) (st b r w opcode : Nat) : (State.spadUe s st b r w opcode).kept = s.kept := by
  unfold State.spadUe
  repeat' split
  all_goals (try simp [foldl_kept])
  all_goals (repeat' split)
  all_goals (try simp [foldl_kept])
@[simp] theorem State.spadCorrected_kept (s : State) (st b r : Nat) : (State.spadCorrected s st b r).kept = s.kept := by
  unfold State.spadCorrected
  repeat' split
  all_goals (try simp [foldl_kept])
  all_goals (repeat' split)
  all_goals (try simp [foldl_kept])
@[simp] theorem State.readCodes_kept (s : State) (st opcode a n : Nat) : (s.readCodes st opcode a n).kept = s.kept := by
  induction n generalizing s a with
  | zero => rfl
  | succ n ih =>
    simp only [State.readCodes]
    rw [ih]
    repeat' split
    all_goals simp
@[simp] theorem State.offAccess_kept (s : State) (st a opcode : Nat) : (State.offAccess s st a opcode).kept = s.kept := by
  unfold State.offAccess
  repeat' split
  all_goals (try simp [foldl_kept])
  all_goals (repeat' split)
  all_goals (try simp [foldl_kept])
@[simp] theorem State.readAcc_kept (s : State) (st req opcode f a n : Nat) : (s.readAcc st req opcode f a n).2.kept = s.kept := by
  induction f generalizing s a n with
  | zero => rfl
  | succ f ih =>
    simp only [State.readAcc]
    split
    · rfl
    · simp only [ih, State.modStand_kept]
      split <;> simp
@[simp] theorem State.readWords_kept (s : State) (st req opcode a n : Nat) : (s.readWords st req opcode a n).2.kept = s.kept := by
  simp [State.readWords]
@[simp] theorem State.writeAcc_kept (s : State) (st req opcode f a : Nat) (ws : List Word) : (s.writeAcc st req opcode f a ws).kept = s.kept := by
  induction f generalizing s a ws with
  | zero => rfl
  | succ f ih =>
    simp only [State.writeAcc]
    split
    · rfl
    · simp only [ih, State.modStand_kept]
      split <;> simp
@[simp] theorem State.writeWords_kept (s : State) (st req opcode a : Nat) (ws : List Word) : (State.writeWords s st req opcode a ws).kept = s.kept := by
  unfold State.writeWords
  repeat' split
  all_goals (try simp [foldl_kept])
  all_goals (repeat' split)
  all_goals (try simp [foldl_kept])
@[simp] theorem State.putTier_kept (s : State) (b : Bool) (a : Nat) (bs : List Byte) : (State.putTier s b a bs).kept = s.kept := by
  unfold State.putTier
  repeat' split
  all_goals (try simp [foldl_kept])
  all_goals (repeat' split)
  all_goals (try simp [foldl_kept])
@[simp] theorem State.freshBurst_kept (s : State) (b : Bool) (burst : Nat) : (State.freshBurst s b burst).kept = s.kept := by
  unfold State.freshBurst
  repeat' split
  all_goals (try simp [foldl_kept])
  all_goals (repeat' split)
  all_goals (try simp [foldl_kept])
@[simp] theorem State.learn_kept (s : State) (me src inc : Nat) : (State.learn s me src inc).kept = s.kept := by
  unfold State.learn
  repeat' split
  all_goals (try simp [foldl_kept])
  all_goals (repeat' split)
  all_goals (try simp [foldl_kept])
@[simp] theorem State.answerAway_kept (s : State) (p : Packet) : (State.answerAway s p).kept = s.kept := by
  unfold State.answerAway
  repeat' split
  all_goals (try simp [foldl_kept])
  all_goals (repeat' split)
  all_goals (try simp [foldl_kept])
@[simp] theorem State.readVector_kept (s : State) (st req opcode a : Nat) : (s.readVector st req opcode a).2.2.kept = s.kept := by
  simp [State.readVector]
@[simp] theorem State.readArray_kept (s : State) (st req opcode a n : Nat) : (s.readArray st req opcode a n).2.kept = s.kept := by
  simp [State.readArray]
@[simp] theorem State.writeRaw_kept (s : State) (st req opcode a : Nat) (vs : List Acc) : (State.writeRaw s st req opcode a vs).kept = s.kept := by
  unfold State.writeRaw
  repeat' split
  all_goals (try simp [foldl_kept])
  all_goals (repeat' split)
  all_goals (try simp [foldl_kept])
@[simp] theorem State.writeElems_kept (s : State) (st req opcode a f i0 : Nat) (vs : List Int) : (State.writeElems s st req opcode a f i0 vs).kept = s.kept := by
  unfold State.writeElems
  repeat' split
  all_goals (try simp [foldl_kept])
  all_goals (repeat' split)
  all_goals (try simp [foldl_kept])
@[simp] theorem State.operandErr_kept (s : State) (st opcode rule x : Nat) : (State.operandErr s st opcode rule x).kept = s.kept := by
  unfold State.operandErr
  repeat' split
  all_goals (try simp [foldl_kept])
  all_goals (repeat' split)
  all_goals (try simp [foldl_kept])
@[simp] theorem State.programErr_kept (s : State) (st opcode rule idx : Nat) : (State.programErr s st opcode rule idx).kept = s.kept := by
  unfold State.programErr
  repeat' split
  all_goals (try simp [foldl_kept])
  all_goals (repeat' split)
  all_goals (try simp [foldl_kept])
@[simp] theorem State.sendGrant_kept (s : State) (n dst dinc window status gen mask tag : Nat) : (State.sendGrant s n dst dinc window status gen mask tag).kept = s.kept := by
  unfold State.sendGrant
  repeat' split
  all_goals (try simp [foldl_kept])
  all_goals (repeat' split)
  all_goals (try simp [foldl_kept])
@[simp] theorem State.grant_kept (s : State) (n : Nat) (q : CreditReq) (rows : List Nat) : (State.grant s n q rows).kept = s.kept := by
  unfold State.grant
  repeat' split
  all_goals (try simp [foldl_kept])
  all_goals (repeat' split)
  all_goals (try simp [foldl_kept])
@[simp] theorem State.answerCreq_kept (s : State) (n : Nat) (q : CreditReq) : (State.answerCreq s n q).kept = s.kept := by
  unfold State.answerCreq
  repeat' split
  all_goals (try simp [foldl_kept])
  all_goals (repeat' split)
  all_goals (try simp [foldl_kept])
@[simp] theorem State.serveGo_kept (n : Nat) (qs : List CreditReq) (bl : List Nat) (s : State) : (State.serveGo n qs bl s).kept = s.kept := by
  induction qs generalizing bl s with
  | nil => rfl
  | cons q t ih =>
    simp only [State.serveGo]
    repeat' split
    all_goals simp [ih]
@[simp] theorem State.serveQueue_kept (s : State) (n : Nat) : (State.serveQueue s n).kept = s.kept := by
  unfold State.serveQueue
  repeat' split
  all_goals (try simp [foldl_kept])
  all_goals (repeat' split)
  all_goals (try simp [foldl_kept])
@[simp] theorem State.settle_kept (s : State) (n : Nat) : (State.settle s n).kept = s.kept := by
  unfold State.settle
  repeat' split
  all_goals (try simp [foldl_kept])
  all_goals (repeat' split)
  all_goals (try simp [foldl_kept])
@[simp] theorem State.dropWrite_kept (s : State) (n src : Nat) (h : WriteHdr) (rule : Nat) : (State.dropWrite s n src h rule).kept = s.kept := by
  unfold State.dropWrite
  repeat' split
  all_goals (try simp [foldl_kept])
  all_goals (repeat' split)
  all_goals (try simp [foldl_kept])
@[simp] theorem State.lateWrite_kept (s : State) (n src sinc : Nat) (h : WriteHdr) : (State.lateWrite s n src sinc h).kept = s.kept := by
  unfold State.lateWrite
  repeat' split
  all_goals (try simp [foldl_kept])
  all_goals (repeat' split)
  all_goals (try simp [foldl_kept])
@[simp] theorem State.storeRow_kept (s : State) (n slot row offset : Nat) (ws : List Word) : (State.storeRow s n slot row offset ws).kept = s.kept := by
  unfold State.storeRow
  repeat' split
  all_goals (try simp [foldl_kept])
  all_goals (repeat' split)
  all_goals (try simp [foldl_kept])
@[simp] theorem State.remoteWrite_kept (s : State) (n src sinc : Nat) (stale : Bool) (h : WriteHdr) (ws : List Word) : (State.remoteWrite s n src sinc stale h ws).kept = s.kept := by
  unfold State.remoteWrite
  repeat' split
  all_goals (try simp [foldl_kept])
  all_goals (repeat' split)
  all_goals (try simp [foldl_kept])
@[simp] theorem State.forcedRecord_kept (s : State) (n bank : Nat) (ks rows : List Nat) : (State.forcedRecord s n bank ks rows).kept = s.kept := by
  unfold State.forcedRecord
  repeat' split
  all_goals (try simp [foldl_kept])
  all_goals (repeat' split)
  all_goals (try simp [foldl_kept])
@[simp] theorem State.forceBank_kept (s : State) (st b : Nat) : (State.forceBank s st b).kept = s.kept := by
  unfold State.forceBank
  repeat' split
  all_goals (try simp [foldl_kept])
  all_goals (repeat' split)
  all_goals (try simp [foldl_kept])
@[simp] theorem State.forceWindow_kept (s : State) (n k : Nat) : (State.forceWindow s n k).kept = s.kept := by
  unfold State.forceWindow
  repeat' split
  all_goals (try simp [foldl_kept])
  all_goals (repeat' split)
  all_goals (try simp [foldl_kept])
@[simp] theorem State.issued_kept (s : State) (st : Nat) : (State.issued s st).kept = s.kept := by
  unfold State.issued
  repeat' split
  all_goals (try simp [foldl_kept])
  all_goals (repeat' split)
  all_goals (try simp [foldl_kept])
@[simp] theorem State.issue_kept (s : State) (st : Nat) (i : Instr) (ready : Bool) (eff : State → State) (h_ : ∀ s, (eff s).kept = s.kept) : (State.issue s st i ready eff).kept = s.kept := by
  unfold State.issue
  repeat' split
  all_goals (try simp [foldl_kept, *])
  all_goals (repeat' split)
  all_goals (try simp [foldl_kept, *])
@[simp] theorem State.modPath_kept (s : State) (port peer : Nat) (f : Path → Path) : (State.modPath s port peer f).kept = s.kept := by
  unfold State.modPath
  repeat' split
  all_goals (try simp [foldl_kept])
  all_goals (repeat' split)
  all_goals (try simp [foldl_kept])
@[simp] theorem State.emitFrame_kept (s : State) (p peer : Nat) (f : Frame) : (State.emitFrame s p peer f).kept = s.kept := by
  unfold State.emitFrame
  repeat' split
  all_goals (try simp [foldl_kept])
  all_goals (repeat' split)
  all_goals (try simp [foldl_kept])
@[simp] theorem State.pumpPath_kept (port peer k : Nat) (s : State) : (State.pumpPath port peer k s).kept = s.kept := by
  induction k generalizing s with
  | zero => rfl
  | succ k ih =>
    simp only [State.pumpPath]
    repeat' split
    all_goals simp [ih]
@[simp] theorem State.pathSend_kept (s : State) (port peer : Nat) (f : Frame) : (State.pathSend s port peer f).kept = s.kept := by
  unfold State.pathSend
  repeat' split
  all_goals (try simp [foldl_kept])
  all_goals (repeat' split)
  all_goals (try simp [foldl_kept])
@[simp] theorem State.sendAck_kept (s : State) (port peer : Nat) : (State.sendAck s port peer).kept = s.kept := by
  unfold State.sendAck
  repeat' split
  all_goals (try simp [foldl_kept])
  all_goals (repeat' split)
  all_goals (try simp [foldl_kept])
@[simp] theorem State.applyRelay_kept (s : State) (p i : Nat) : (State.applyRelay s p i).kept = s.kept := by
  unfold State.applyRelay
  repeat' split
  all_goals (try simp [foldl_kept])
  all_goals (repeat' split)
  all_goals (try simp [foldl_kept])
@[simp] theorem State.applyRelays_kept (s : State) : (State.applyRelays s).kept = s.kept := by
  unfold State.applyRelays
  repeat' split
  all_goals (try simp [foldl_kept])
  all_goals (repeat' split)
  all_goals (try simp [foldl_kept])
@[simp] theorem State.freeRows_kept (s : State) (node slot : Nat) (rows : List Nat) : (State.freeRows s node slot rows).kept = s.kept := by
  unfold State.freeRows
  repeat' split
  all_goals (try simp [foldl_kept])
  all_goals (repeat' split)
  all_goals (try simp [foldl_kept])
@[simp] theorem State.frameGone_kept (s : State) (f : Frame) : (State.frameGone s f).kept = s.kept := by
  unfold State.frameGone
  repeat' split
  all_goals (try simp [foldl_kept])
  all_goals (repeat' split)
  all_goals (try simp [foldl_kept])
@[simp] theorem State.unreachable_kept (s : State) (f : Frame) : (State.unreachable s f).kept = s.kept := by
  unfold State.unreachable
  repeat' split
  all_goals (try simp [foldl_kept])
  all_goals (repeat' split)
  all_goals (try simp [foldl_kept])
@[simp] theorem State.route_kept (s : State) (port : Nat) (f : Frame) : (State.route s port f).kept = s.kept := by
  unfold State.route
  repeat' split
  all_goals (try simp [foldl_kept])
  all_goals (repeat' split)
  all_goals (try simp [foldl_kept])
@[simp] theorem State.relaySend_kept (s : State) (node slot row : Nat) : (State.relaySend s node slot row).kept = s.kept := by
  unfold State.relaySend
  repeat' split
  all_goals (try simp [foldl_kept])
  all_goals (repeat' split)
  all_goals (try simp [foldl_kept])
@[simp] theorem State.reduceSend_kept (s : State) (node : Nat) (m : PartMsg) : (State.reduceSend s node m).kept = s.kept := by
  unfold State.reduceSend
  repeat' split
  all_goals (try simp [foldl_kept])
  all_goals (repeat' split)
  all_goals (try simp [foldl_kept])
@[simp] theorem State.modChan_kept (s : State) (c : Nat) (f : FlagChan → FlagChan) : (State.modChan s c f).kept = s.kept := by
  unfold State.modChan
  repeat' split
  all_goals (try simp [foldl_kept])
  all_goals (repeat' split)
  all_goals (try simp [foldl_kept])
@[simp] theorem State.sendBarrier_kept (s : State) (c q op dplace : Nat) : (State.sendBarrier s c q op dplace).kept = s.kept := by
  unfold State.sendBarrier
  repeat' split
  all_goals (try simp [foldl_kept])
  all_goals (repeat' split)
  all_goals (try simp [foldl_kept])
@[simp] theorem State.applyComplete_kept (s : State) (c q : Nat) : (State.applyComplete s c q).kept = s.kept := by
  unfold State.applyComplete
  repeat' split
  all_goals (try simp [foldl_kept])
  all_goals (repeat' split)
  all_goals (try simp [foldl_kept])
@[simp] theorem State.rootArrive_kept (s : State) (c q place : Nat) : (State.rootArrive s c q place).kept = s.kept := by
  unfold State.rootArrive
  repeat' split
  all_goals (try simp [foldl_kept])
  all_goals (repeat' split)
  all_goals (try simp [foldl_kept])
@[simp] theorem State.flagArrive_kept (s : State) (c q : Nat) : (State.flagArrive s c q).kept = s.kept := by
  unfold State.flagArrive
  repeat' split
  all_goals (try simp [foldl_kept])
  all_goals (repeat' split)
  all_goals (try simp [foldl_kept])
@[simp] theorem State.flagCheck_kept (s : State) (c : Nat) : (State.flagCheck s c).kept = s.kept := by
  unfold State.flagCheck
  repeat' split
  all_goals (try simp [foldl_kept])
  all_goals (repeat' split)
  all_goals (try simp [foldl_kept])
@[simp] theorem State.fillSlot_kept (s : State) (st p c k : Nat) (v : InSlot) : (State.fillSlot s st p c k v).kept = s.kept := by
  unfold State.fillSlot
  repeat' split
  all_goals (try simp [foldl_kept])
  all_goals (repeat' split)
  all_goals (try simp [foldl_kept])
@[simp] theorem State.beginVld_kept (s : State) (st p c k a : Nat) : (State.beginVld s st p c k a).kept = s.kept := by
  unfold State.beginVld
  repeat' split
  all_goals (try simp [foldl_kept])
  all_goals (repeat' split)
  all_goals (try simp [foldl_kept])
@[simp] theorem State.beginPass_kept (s : State) (st p c : Nat) (op : PassOp) : (State.beginPass s st p c op).kept = s.kept := by
  unfold State.beginPass
  repeat' split
  all_goals (try simp [foldl_kept])
  all_goals (repeat' split)
  all_goals (try simp [foldl_kept])
@[simp] theorem State.beginRqnt_kept (s : State) (st p : Nat) (r : RqOp) (n : Nat) (rep : Bool) : (State.beginRqnt s st p r n rep).kept = s.kept := by
  unfold State.beginRqnt
  repeat' split
  all_goals (try simp [foldl_kept])
  all_goals (repeat' split)
  all_goals (try simp [foldl_kept])
@[simp] theorem State.beginCore_kept (s : State) (st p c : Nat) (ahead : List CoreOp) (o : CoreOp) : (State.beginCore s st p c ahead o).kept = s.kept := by
  unfold State.beginCore
  repeat' split
  all_goals (try simp [foldl_kept])
  all_goals (repeat' split)
  all_goals (try simp [foldl_kept])
@[simp] theorem State.pumpCore_kept (st p c f : Nat) (s : State) : (State.pumpCore st p c f s).kept = s.kept := by
  induction f generalizing s with
  | zero => rfl
  | succ k ih =>
    simp only [State.pumpCore]
    repeat' split
    all_goals simp [ih]
@[simp] theorem State.pumpPos_kept (s : State) (st p : Nat) : (State.pumpPos s st p).kept = s.kept := by
  unfold State.pumpPos
  repeat' split
  all_goals (try simp [foldl_kept])
  all_goals (repeat' split)
  all_goals (try simp [foldl_kept])
@[simp] theorem State.handOver_kept (s : State) (st p : Nat) (o : CoreOp) : (State.handOver s st p o).kept = s.kept := by
  unfold State.handOver
  repeat' split
  all_goals (try simp [foldl_kept])
  all_goals (repeat' split)
  all_goals (try simp [foldl_kept])
@[simp] theorem effVld_kept (st : Nat) (pos : BitVec 16) (slot a stride : Nat) (s : State) : (effVld st pos slot a stride s).kept = s.kept := by
  unfold effVld
  repeat' split
  all_goals (try simp [foldl_kept])
  all_goals (repeat' split)
  all_goals (try simp [foldl_kept])
@[simp] theorem effPass_kept (st : Nat) (pos : BitVec 16) (op : PassOp) (s : State) : (effPass st pos op s).kept = s.kept := by
  unfold effPass
  repeat' split
  all_goals (try simp [foldl_kept])
  all_goals (repeat' split)
  all_goals (try simp [foldl_kept])
@[simp] theorem effRqnt_kept (st p : Nat) (op : RqOp) (s : State) : (effRqnt st p op s).kept = s.kept := by
  unfold effRqnt
  repeat' split
  all_goals (try simp [foldl_kept])
  all_goals (repeat' split)
  all_goals (try simp [foldl_kept])
@[simp] theorem State.fence_kept (s : State) (st p c : Nat) (bankB : Bool) : (State.fence s st p c bankB).kept = s.kept := by
  unfold State.fence
  repeat' split
  all_goals (try simp [foldl_kept])
  all_goals (repeat' split)
  all_goals (try simp [foldl_kept])
@[simp] theorem State.popPass_kept (s : State) (st p : Nat) : (State.popPass s st p).kept = s.kept := by
  unfold State.popPass
  repeat' split
  all_goals (try simp [foldl_kept])
  all_goals (repeat' split)
  all_goals (try simp [foldl_kept])
@[simp] theorem State.settleConflict_kept (s : State) (st p c : Nat) (j : PassJob) : (State.settleConflict s st p c j).kept = s.kept := by
  unfold State.settleConflict
  repeat' split
  all_goals (try simp [foldl_kept])
  all_goals (repeat' split)
  all_goals (try simp [foldl_kept])
@[simp] theorem State.commitPass_kept (s : State) (st p c : Nat) (j : PassJob) (ds : List Disturb) : (State.commitPass s st p c j ds).kept = s.kept := by
  unfold State.commitPass
  repeat' split
  all_goals (try simp [foldl_kept])
  all_goals (repeat' split)
  all_goals (try simp [foldl_kept])
@[simp] theorem State.reexecute_kept (s : State) (st p t : Nat) : (State.reexecute s st p t).kept = s.kept := by
  unfold State.reexecute
  repeat' split
  all_goals (try simp [foldl_kept])
  all_goals (repeat' split)
  all_goals (try simp [foldl_kept])
@[simp] theorem State.noteMismatch_kept (s : State) (st c : Nat) (j : PassJob) (ds : List Disturb) : (State.noteMismatch s st c j ds).kept = s.kept := by
  unfold State.noteMismatch
  repeat' split
  all_goals (try simp [foldl_kept])
  all_goals (repeat' split)
  all_goals (try simp [foldl_kept])
@[simp] theorem State.verdict_kept (s : State) (st p : Nat) (ds : List Disturb) : (State.verdict s st p ds).kept = s.kept := by
  unfold State.verdict
  repeat' split
  all_goals (try simp [foldl_kept])
  all_goals (repeat' split)
  all_goals (try simp [foldl_kept])
@[simp] theorem State.rqOutput_kept (s : State) (st p : Nat) : (State.rqOutput s st p).kept = s.kept := by
  unfold State.rqOutput
  repeat' split
  all_goals (try simp [foldl_kept])
  all_goals (repeat' split)
  all_goals (try simp [foldl_kept])
@[simp] theorem effLi_kept (st : Nat) (gd : Nat) (imm : Word) (s : State) : (effLi st gd imm s).kept = s.kept := by
  unfold effLi
  repeat' split
  all_goals (try simp [foldl_kept])
  all_goals (repeat' split)
  all_goals (try simp [foldl_kept])
@[simp] theorem effAlu_kept (st gd ga gb : Nat) (immf : Bool) (func : Nat) (imm : BitVec 16) (s : State) : (effAlu st gd ga gb immf func imm s).kept = s.kept := by
  unfold effAlu
  repeat' split
  all_goals (try simp [foldl_kept])
  all_goals (repeat' split)
  all_goals (try simp [foldl_kept])
@[simp] theorem effLdw_kept (st gd ga : Nat) (off : BitVec 16) (s : State) : (effLdw st gd ga off s).kept = s.kept := by
  unfold effLdw
  repeat' split
  all_goals (try simp [foldl_kept])
  all_goals (repeat' split)
  all_goals (try simp [foldl_kept])
@[simp] theorem effStw_kept (st gs ga : Nat) (off : BitVec 16) (s : State) : (effStw st gs ga off s).kept = s.kept := by
  unfold effStw
  repeat' split
  all_goals (try simp [foldl_kept])
  all_goals (repeat' split)
  all_goals (try simp [foldl_kept])
@[simp] theorem effBr_kept (st cond ga gb target : Nat) (s : State) : (effBr st cond ga gb target s).kept = s.kept := by
  unfold effBr
  repeat' split
  all_goals (try simp [foldl_kept])
  all_goals (repeat' split)
  all_goals (try simp [foldl_kept])
@[simp] theorem effBend_kept (st : Nat) (s : State) : (effBend st s).kept = s.kept := by
  unfold effBend
  repeat' split
  all_goals (try simp [foldl_kept])
  all_goals (repeat' split)
  all_goals (try simp [foldl_kept])
@[simp] theorem effImplicitBend_kept (st : Nat) (s : State) : (effImplicitBend st s).kept = s.kept := by
  unfold effImplicitBend
  repeat' split
  all_goals (try simp [foldl_kept])
  all_goals (repeat' split)
  all_goals (try simp [foldl_kept])
@[simp] theorem effRdctl_kept (st gd : Nat) (clr : Bool) (arg sel : Nat) (s : State) : (effRdctl st gd clr arg sel s).kept = s.kept := by
  unfold effRdctl
  repeat' split
  all_goals (try simp [foldl_kept])
  all_goals (repeat' split)
  all_goals (try simp [foldl_kept])
@[simp] theorem effTopen_kept (st num word : Nat) (s : State) : (effTopen st num word s).kept = s.kept := by
  unfold effTopen
  repeat' split
  all_goals (try simp [foldl_kept])
  all_goals (repeat' split)
  all_goals (try simp [foldl_kept])
@[simp] theorem effTclose_kept (st : Nat) (s : State) : (effTclose st s).kept = s.kept := by
  unfold effTclose
  repeat' split
  all_goals (try simp [foldl_kept])
  all_goals (repeat' split)
  all_goals (try simp [foldl_kept])
@[simp] theorem effWopen_kept (st slot bank first count : Nat) (s : State) : (effWopen st slot bank first count s).kept = s.kept := by
  unfold effWopen
  repeat' split
  all_goals (try simp [foldl_kept])
  all_goals (repeat' split)
  all_goals (try simp [foldl_kept])
@[simp] theorem State.closeWindow_kept (s : State) (n slot : Nat) : (State.closeWindow s n slot).kept = s.kept := by
  unfold State.closeWindow
  repeat' split
  all_goals (try simp [foldl_kept])
  all_goals (repeat' split)
  all_goals (try simp [foldl_kept])
@[simp] theorem effWrel_kept (st slot : Nat) (rows : BitVec 32) (s : State) : (effWrel st slot rows s).kept = s.kept := by
  unfold effWrel
  repeat' split
  all_goals (try simp [foldl_kept])
  all_goals (repeat' split)
  all_goals (try simp [foldl_kept])
@[simp] theorem effBpdn_kept (st b : Nat) (s : State) : (effBpdn st b s).kept = s.kept := by
  unfold effBpdn
  repeat' split
  all_goals (try simp [foldl_kept])
  all_goals (repeat' split)
  all_goals (try simp [foldl_kept])
@[simp] theorem effBwake_kept (st b : Nat) (s : State) : (effBwake st b s).kept = s.kept := by
  unfold effBwake
  repeat' split
  all_goals (try simp [foldl_kept])
  all_goals (repeat' split)
  all_goals (try simp [foldl_kept])
@[simp] theorem State.barrierMisuse_kept (s : State) (st opcode : Nat) : (State.barrierMisuse s st opcode).kept = s.kept := by
  unfold State.barrierMisuse
  repeat' split
  all_goals (try simp [foldl_kept])
  all_goals (repeat' split)
  all_goals (try simp [foldl_kept])
@[simp] theorem effBarv_kept (st c : Nat) (s : State) : (effBarv st c s).kept = s.kept := by
  unfold effBarv
  repeat' split
  all_goals (try simp [foldl_kept])
  all_goals (repeat' split)
  all_goals (try simp [foldl_kept])
@[simp] theorem effBwt_kept (st c : Nat) (s : State) : (effBwt st c s).kept = s.kept := by
  unfold effBwt
  repeat' split
  all_goals (try simp [foldl_kept])
  all_goals (repeat' split)
  all_goals (try simp [foldl_kept])
@[simp] theorem State.sendCreq_kept (s : State) (st dest : Nat) (m : CreqMsg) : (State.sendCreq s st dest m).kept = s.kept := by
  unfold State.sendCreq
  repeat' split
  all_goals (try simp [foldl_kept])
  all_goals (repeat' split)
  all_goals (try simp [foldl_kept])
@[simp] theorem State.sendWrite_kept (s : State) (st dest : Nat) (h : WriteHdr) (gen : Nat) (ws : List Word) : (State.sendWrite s st dest h gen ws).kept = s.kept := by
  unfold State.sendWrite
  repeat' split
  all_goals (try simp [foldl_kept])
  all_goals (repeat' split)
  all_goals (try simp [foldl_kept])
@[simp] theorem State.doRwr_kept (s : State) (st idx dest : Nat) (h : WriteHdr) (src : Nat) : (State.doRwr s st idx dest h src).kept = s.kept := by
  unfold State.doRwr
  repeat' split
  all_goals (try simp [foldl_kept])
  all_goals (repeat' split)
  all_goals (try simp [foldl_kept])
@[simp] theorem State.doMwr_kept (s : State) (st _idx desc : Nat) (h : WriteHdr) (src : Nat) : (State.doMwr s st _idx desc h src).kept = s.kept := by
  simp only [State.doMwr]
  generalize hq : (if bit ((s.readWords st 20 42 (wa desc) 1).1.headD 0).toNat 31 = true then
    (s.readWords st 20 42 (wa desc) 1).2.readWords st 20 42 (wa (desc + 1)) 8 else ([], (s.readWords st 20 42 (wa desc) 1).2)) = q
  have hk : q.2.kept = s.kept := by subst hq; split <;> simp
  split
  · simp [hk]
  · generalize hm : List.map _ (List.map _ _) = gs
    split
    · split
      · simp [foldl_kept, hk]
      · refine (foldl_kept (fun s e => ?_) _ _).trans ?_
        · split <;> simp
        · simp [hk]
    · refine (foldl_kept (fun s e => ?_) _ _).trans ?_
      · split <;> simp
      · simp [hk]
@[simp] theorem State.doRed_kept (s : State) (st idx dest rid : Nat) (lead : Bool) (window row g : Nat) : (State.doRed s st idx dest rid lead window row g).kept = s.kept := by
  unfold State.doRed
  repeat' split
  all_goals (try simp [foldl_kept])
  all_goals (repeat' split)
  all_goals (try simp [foldl_kept])
@[simp] theorem State.pumpOut_kept (st f : Nat) (s : State) : (State.pumpOut st f s).kept = s.kept := by
  induction f generalizing s with
  | zero => rfl
  | succ k ih =>
    simp only [State.pumpOut]
    repeat' split
    all_goals simp [ih]
@[simp] theorem State.outOp_kept (s : State) (st : Nat) (o : OutOp) : (State.outOp s st o).kept = s.kept := by
  unfold State.outOp
  repeat' split
  all_goals (try simp [foldl_kept])
  all_goals (repeat' split)
  all_goals (try simp [foldl_kept])
@[simp] theorem effCreq_kept (st : Nat) (dest : BitVec 13) (m : CreqMsg) (s : State) : (effCreq st dest m s).kept = s.kept := by
  unfold effCreq
  repeat' split
  all_goals (try simp [foldl_kept])
  all_goals (repeat' split)
  all_goals (try simp [foldl_kept])
@[simp] theorem effRwr_kept (st dest : Nat) (h : WriteHdr) (src : Nat) (vec : Bool) (s : State) : (effRwr st dest h src vec s).kept = s.kept := by
  unfold effRwr
  repeat' split
  all_goals (try simp [foldl_kept])
  all_goals (repeat' split)
  all_goals (try simp [foldl_kept])
@[simp] theorem effMwr_kept (st desc : Nat) (h : WriteHdr) (src : Nat) (vec : Bool) (s : State) : (effMwr st desc h src vec s).kept = s.kept := by
  unfold effMwr
  repeat' split
  all_goals (try simp [foldl_kept])
  all_goals (repeat' split)
  all_goals (try simp [foldl_kept])
@[simp] theorem effRed_kept (st dest rid : Nat) (lead : Bool) (window row g : Nat) (s : State) : (effRed st dest rid lead window row g s).kept = s.kept := by
  unfold effRed
  repeat' split
  all_goals (try simp [foldl_kept])
  all_goals (repeat' split)
  all_goals (try simp [foldl_kept])
@[simp] theorem State.sendMem_kept (s : State) (st : Nat) (tierB : Bool) (m : MemReq) : (State.sendMem s st tierB m).kept = s.kept := by
  unfold State.sendMem
  repeat' split
  all_goals (try simp [foldl_kept])
  all_goals (repeat' split)
  all_goals (try simp [foldl_kept])
@[simp] theorem State.runDma_kept (s : State) (st : Nat) (o : DmaOp) : (State.runDma s st o).kept = s.kept := by
  unfold State.runDma
  repeat' split
  all_goals (try simp [foldl_kept])
  all_goals (repeat' split)
  all_goals (try simp [foldl_kept])
@[simp] theorem State.pumpDma_kept (st f : Nat) (s : State) : (State.pumpDma st f s).kept = s.kept := by
  induction f generalizing s with
  | zero => rfl
  | succ k ih =>
    simp only [State.pumpDma]
    repeat' split
    all_goals simp [ih]
@[simp] theorem State.nextDma_kept (s : State) (st : Nat) : (State.nextDma s st).kept = s.kept := by
  unfold State.nextDma
  repeat' split
  all_goals (try simp [foldl_kept])
  all_goals (repeat' split)
  all_goals (try simp [foldl_kept])
@[simp] theorem effDma_kept (st : Nat) (dir tierB : Bool) (addr window row words src : Nat) (s : State) : (effDma st dir tierB addr window row words src s).kept = s.kept := by
  unfold effDma
  repeat' split
  all_goals (try simp [foldl_kept])
  all_goals (repeat' split)
  all_goals (try simp [foldl_kept])
@[simp] theorem State.epDeliver_kept (s : State) (node : Nat) (h : Holding) : (State.epDeliver s node h).kept = s.kept := by
  unfold State.epDeliver
  repeat' split
  all_goals (try simp [foldl_kept])
  all_goals (repeat' split)
  all_goals (try simp [foldl_kept])
@[simp] theorem State.epPump_kept (s : State) (node : Nat) : (State.epPump s node).kept = s.kept := by
  unfold State.epPump
  repeat' split
  all_goals (try simp [foldl_kept])
  all_goals (repeat' split)
  all_goals (try simp [foldl_kept])
@[simp] theorem State.epGrant_kept (s : State) (node src : Nat) (m : CgrantMsg) : (State.epGrant s node src m).kept = s.kept := by
  unfold State.epGrant
  repeat' split
  all_goals (try simp [foldl_kept])
  all_goals (repeat' split)
  all_goals (try simp [foldl_kept])
@[simp] theorem State.epVoid_kept (s : State) (node src : Nat) (m : CgrantMsg) : (State.epVoid s node src m).kept = s.kept := by
  unfold State.epVoid
  repeat' split
  all_goals (try simp [foldl_kept])
  all_goals (repeat' split)
  all_goals (try simp [foldl_kept])
@[simp] theorem State.epMemrsp_kept (s : State) (node src tag : Nat) : (State.epMemrsp s node src tag).kept = s.kept := by
  unfold State.epMemrsp
  repeat' split
  all_goals (try simp [foldl_kept])
  all_goals (repeat' split)
  all_goals (try simp [foldl_kept])
@[simp] theorem State.epCreq_kept (s : State) (node dst : Nat) (h : Holding) : (State.epCreq s node dst h).kept = s.kept := by
  unfold State.epCreq
  repeat' split
  all_goals (try simp [foldl_kept])
  all_goals (repeat' split)
  all_goals (try simp [foldl_kept])
@[simp] theorem State.epResend_kept (s : State) (node t : Nat) : (State.epResend s node t).kept = s.kept := by
  unfold State.epResend
  repeat' split
  all_goals (try simp [foldl_kept])
  all_goals (repeat' split)
  all_goals (try simp [foldl_kept])
@[simp] theorem State.creqAnswer_kept (s : State) (st src : Nat) (m : CgrantMsg) : (State.creqAnswer s st src m).kept = s.kept := by
  unfold State.creqAnswer
  repeat' split
  all_goals (try simp [foldl_kept])
  all_goals (repeat' split)
  all_goals (try simp [foldl_kept])
@[simp] theorem State.resend_kept (s : State) (st t : Nat) : (State.resend s st t).kept = s.kept := by
  unfold State.resend
  repeat' split
  all_goals (try simp [foldl_kept])
  all_goals (repeat' split)
  all_goals (try simp [foldl_kept])
@[simp] theorem State.leave_kept (s : State) (n cause : Nat) (away : Bool) : (State.leave s n cause away).kept = s.kept := by
  unfold State.leave
  repeat' split
  all_goals (try simp [foldl_kept])
  all_goals (repeat' split)
  all_goals (try simp [foldl_kept])
@[simp] theorem State.resetStand_kept (s : State) (st cause : Nat) (away : Bool) : (State.resetStand s st cause away).kept = s.kept := by
  unfold State.resetStand
  repeat' split
  all_goals (try simp [foldl_kept])
  all_goals (repeat' split)
  all_goals (try simp [foldl_kept])
@[simp] theorem State.resetPort_kept (s : State) (p cause : Nat) (away : Bool) : (State.resetPort s p cause away).kept = s.kept := by
  unfold State.resetPort
  repeat' split
  all_goals (try simp [foldl_kept])
  all_goals (repeat' split)
  all_goals (try simp [foldl_kept])
@[simp] theorem State.resetUnit_kept (s : State) (n cause : Nat) : (State.resetUnit s n cause).kept = s.kept := by
  unfold State.resetUnit
  repeat' split
  all_goals (try simp [foldl_kept])
  all_goals (repeat' split)
  all_goals (try simp [foldl_kept])
@[simp] theorem State.putSlotHdr_kept (s : State) (n : Nat) (a : ASlot) : (State.putSlotHdr s n a).kept = s.kept := by
  unfold State.putSlotHdr
  repeat' split
  all_goals (try simp [foldl_kept])
  all_goals (repeat' split)
  all_goals (try simp [foldl_kept])
@[simp] theorem State.ownerUe_kept (s : State) (b : Bool) (a : Nat) : (State.ownerUe s b a).kept = s.kept := by
  unfold State.ownerUe
  repeat' split
  all_goals (try simp [foldl_kept])
  all_goals (repeat' split)
  all_goals (try simp [foldl_kept])
@[simp] theorem State.retirePch_kept (s : State) (p : Nat) : (State.retirePch s p).kept = s.kept := by
  unfold State.retirePch
  repeat' split
  all_goals (try simp [foldl_kept])
  all_goals (repeat' split)
  all_goals (try simp [foldl_kept])
@[simp] theorem State.burstNote_kept (s : State) (b : Bool) (a w : Nat) : (State.burstNote s b a w).kept = s.kept := by
  unfold State.burstNote
  repeat' split
  all_goals (try simp [foldl_kept])
  all_goals (repeat' split)
  all_goals (try simp [foldl_kept])
@[simp] theorem State.burstRead_kept (s : State) (b : Bool) (node k : Nat) (bound : Bool) : (State.burstRead s b node k bound).kept = s.kept := by
  unfold State.burstRead
  repeat' split
  all_goals (try simp [foldl_kept])
  all_goals (repeat' split)
  all_goals (try simp [foldl_kept])
@[simp] theorem State.tierAsk_kept (s : State) (b : Bool) (a n node : Nat) : (State.tierAsk s b a n node).kept = s.kept := by
  unfold State.tierAsk
  repeat' split
  all_goals (try simp [foldl_kept])
  all_goals (repeat' split)
  all_goals (try simp [foldl_kept])
@[simp] theorem State.tierRead_kept (s : State) (b : Bool) (a n node : Nat) : (s.tierRead b a n node).2.kept = s.kept := by
  simp [State.tierRead, foldl_kept]
@[simp] theorem State.tierWrite_kept (s : State) (b : Bool) (a : Nat) (bs : List Byte) (node : Nat) : (State.tierWrite s b a bs node).kept = s.kept := by
  unfold State.tierWrite
  repeat' split
  all_goals (try simp [foldl_kept])
  all_goals (repeat' split)
  all_goals (try simp [foldl_kept])
@[simp] theorem State.modRemap_kept (s : State) (k : Nat) (f : Remap → Remap) : (State.modRemap s k f).kept = s.kept := by
  unfold State.modRemap
  repeat' split
  all_goals (try simp [foldl_kept])
  all_goals (repeat' split)
  all_goals (try simp [foldl_kept])
@[simp] theorem State.remapBoundary_kept (s : State) : (State.remapBoundary s).kept = s.kept := by
  unfold State.remapBoundary
  repeat' split
  all_goals (try simp [foldl_kept])
  all_goals (repeat' split)
  all_goals (try simp [foldl_kept])
@[simp] theorem State.memReply_kept (s : State) (node : Nat) (p : Packet) (m : MemReq) (bs : List Byte) : (State.memReply s node p m bs).kept = s.kept := by
  unfold State.memReply
  repeat' split
  all_goals (try simp [foldl_kept])
  all_goals (repeat' split)
  all_goals (try simp [foldl_kept])
@[simp] theorem State.memBurst_kept (s : State) (node : Nat) (q : ArbReq) (p : Packet) (m : MemReq) (bs : List Byte) :
    (s.memBurst node q p m bs).1.kept = s.kept := by
  simp only [State.memBurst]
  split <;> split <;> simp
@[simp] theorem State.patrolEnd_kept (s : State) (node : Nat) : (State.patrolEnd s node).kept = s.kept := by
  unfold State.patrolEnd
  repeat' split
  all_goals (try simp [foldl_kept])
  all_goals (repeat' split)
  all_goals (try simp [foldl_kept])
@[simp] theorem State.patrolBurst_kept (s : State) (node k : Nat) : (State.patrolBurst s node k).kept = s.kept := by
  unfold State.patrolBurst
  repeat' split
  all_goals (try simp [foldl_kept])
  all_goals (repeat' split)
  all_goals (try simp [foldl_kept])
@[simp] theorem State.serveReq_kept (s : State) (node : Nat) (q : ArbReq) : (s.serveReq node q).1.kept = s.kept := by
  simp only [State.serveReq]
  repeat' split
  all_goals simp
@[simp] theorem State.grantReq_kept (s : State) (arb : Nat) (q : ArbReq) : (State.grantReq s arb q).kept = s.kept := by
  unfold State.grantReq
  repeat' split
  all_goals (try simp [foldl_kept])
  all_goals (repeat' split)
  all_goals (try simp [foldl_kept])
@[simp] theorem State.engineReset_kept (s : State) (arb requester : Nat) : (State.engineReset s arb requester).kept = s.kept := by
  unfold State.engineReset
  repeat' split
  all_goals (try simp [foldl_kept])
  all_goals (repeat' split)
  all_goals (try simp [foldl_kept])
@[simp] theorem State.parkedOne_kept (s : State) (node : Nat) (q : ArbReq) : (State.parkedOne s node q).kept = s.kept := by
  unfold State.parkedOne
  repeat' split
  all_goals (try simp [foldl_kept])
  all_goals (repeat' split)
  all_goals (try simp [foldl_kept])
@[simp] theorem State.parkedAway_kept (s : State) (node : Nat) : (State.parkedAway s node).kept = s.kept := by
  unfold State.parkedAway
  repeat' split
  all_goals (try simp [foldl_kept])
  all_goals (repeat' split)
  all_goals (try simp [foldl_kept])
@[simp] theorem State.resetHolder_kept (s : State) (arb : Nat) (q : ArbReq) : (State.resetHolder s arb q).kept = s.kept := by
  unfold State.resetHolder
  repeat' split
  all_goals (try simp [foldl_kept])
  all_goals (repeat' split)
  all_goals (try simp [foldl_kept])
@[simp] theorem State.watchdog_kept (s : State) (arb : Nat) : (State.watchdog s arb).kept = s.kept := by
  unfold State.watchdog
  repeat' split
  all_goals (try simp [foldl_kept])
  all_goals (repeat' split)
  all_goals (try simp [foldl_kept])
@[simp] theorem State.park_kept (s : State) (arb : Nat) (q : ArbReq) : (State.park s arb q).kept = s.kept := by
  unfold State.park
  repeat' split
  all_goals (try simp [foldl_kept])
  all_goals (repeat' split)
  all_goals (try simp [foldl_kept])
@[simp] theorem State.doXld_kept (s : State) (st : Nat) (y : Bool) (a start count didx : Nat) : (State.doXld s st y a start count didx).kept = s.kept := by
  unfold State.doXld
  repeat' split
  all_goals (try simp [foldl_kept])
  all_goals (repeat' split)
  all_goals (try simp [foldl_kept])
@[simp] theorem State.doMma_kept (s : State) (st mode m n k : Nat) (add xf yf : Bool) (xb yb : Nat) : (State.doMma s st mode m n k add xf yf xb yb).kept = s.kept := by
  unfold State.doMma
  repeat' split
  all_goals (try simp [foldl_kept])
  all_goals (repeat' split)
  all_goals (try simp [foldl_kept])
@[simp] theorem State.doMwo_kept (s : State) (st wmode set m n a : Nat) (scale : Word) : (State.doMwo s st wmode set m n a scale).kept = s.kept := by
  unfold State.doMwo
  repeat' split
  all_goals (try simp [foldl_kept])
  all_goals (repeat' split)
  all_goals (try simp [foldl_kept])
@[simp] theorem State.segment_kept (st base m f o : Nat) (s : State) : (State.segment st base m f o s).2.kept = s.kept := by
  induction f generalizing o s with
  | zero => rfl
  | succ f ih =>
    simp only [State.segment]
    repeat' split
    all_goals simp [ih]
@[simp] theorem State.handleSegment_kept (s : State) (st : Nat) (h : Word) (m : Nat) : (s.handleSegment st h m).2.kept = s.kept := by
  simp only [State.handleSegment]
  split <;> simp
@[simp] theorem State.handleFault_kept (s : State) (st opcode : Nat) (handle : Word) (matrix : Nat) : (State.handleFault s st opcode handle matrix).kept = s.kept := by
  unfold State.handleFault
  repeat' split
  all_goals (try simp [foldl_kept])
  all_goals (repeat' split)
  all_goals (try simp [foldl_kept])
@[simp] theorem State.freeAccs_kept (s : State) (n : Nat) : (s.freeAccs n).2.kept = s.kept := rfl
@[simp] theorem State.dmuRaw_kept (s : State) (st opcode a : Nat) (vs : List Acc) : (State.dmuRaw s st opcode a vs).kept = s.kept := by
  unfold State.dmuRaw
  repeat' split
  all_goals (try simp [foldl_kept])
  all_goals (repeat' split)
  all_goals (try simp [foldl_kept])
@[simp] theorem State.doAda_kept (s : State) (st : Nat) (handle : Word) (a dst matrix start : Nat) : (State.doAda s st handle a dst matrix start).kept = s.kept := by
  unfold State.doAda
  repeat' split
  all_goals (try simp [foldl_kept])
  all_goals (repeat' split)
  all_goals (try simp [foldl_kept])
@[simp] theorem State.doAdb_kept (s : State) (st : Nat) (handle : Word) (a dst matrix start count : Nat) : (State.doAdb s st handle a dst matrix start count).kept = s.kept := by
  unfold State.doAdb
  repeat' split
  all_goals (try simp [foldl_kept])
  all_goals (repeat' split)
  all_goals (try simp [foldl_kept])
@[simp] theorem State.runDmu_kept (s : State) (st : Nat) (o : DmuOp) : (State.runDmu s st o).kept = s.kept := by
  unfold State.runDmu
  repeat' split
  all_goals (try simp [foldl_kept])
  all_goals (repeat' split)
  all_goals (try simp [foldl_kept])
@[simp] theorem State.pumpDmu_kept (st f : Nat) (s : State) : (State.pumpDmu st f s).kept = s.kept := by
  induction f generalizing s with
  | zero => rfl
  | succ k ih =>
    simp only [State.pumpDmu]
    repeat' split
    all_goals simp [ih]
@[simp] theorem State.dmuOp_kept (s : State) (st : Nat) (o : DmuOp) : (State.dmuOp s st o).kept = s.kept := by
  unfold State.dmuOp
  repeat' split
  all_goals (try simp [foldl_kept])
  all_goals (repeat' split)
  all_goals (try simp [foldl_kept])
@[simp] theorem effXld_kept (st : Nat) (y : Bool) (ga gb count : Nat) (didx : BitVec 16) (s : State) : (effXld st y ga gb count didx s).kept = s.kept := by
  unfold effXld
  repeat' split
  all_goals (try simp [foldl_kept])
  all_goals (repeat' split)
  all_goals (try simp [foldl_kept])
@[simp] theorem effMma_kept (st mode mm1 nm1 km1 : Nat) (acc xf yf : Bool) (gb : Nat) (s : State) : (effMma st mode mm1 nm1 km1 acc xf yf gb s).kept = s.kept := by
  unfold effMma
  repeat' split
  all_goals (try simp [foldl_kept])
  all_goals (repeat' split)
  all_goals (try simp [foldl_kept])
@[simp] theorem effMwo_kept (st wmode set mm1 nm1 gd gs : Nat) (s : State) : (effMwo st wmode set mm1 nm1 gd gs s).kept = s.kept := by
  unfold effMwo
  repeat' split
  all_goals (try simp [foldl_kept])
  all_goals (repeat' split)
  all_goals (try simp [foldl_kept])
@[simp] theorem effAda_kept (st gh gx gd : Nat) (matrix : BitVec 16) (gi : Nat) (s : State) : (effAda st gh gx gd matrix gi s).kept = s.kept := by
  unfold effAda
  repeat' split
  all_goals (try simp [foldl_kept])
  all_goals (repeat' split)
  all_goals (try simp [foldl_kept])
@[simp] theorem effAdb_kept (st gh gg gd : Nat) (matrix : BitVec 16) (go : Nat) (s : State) : (effAdb st gh gg gd matrix go s).kept = s.kept := by
  unfold effAdb
  repeat' split
  all_goals (try simp [foldl_kept])
  all_goals (repeat' split)
  all_goals (try simp [foldl_kept])
@[simp] theorem State.vecIn_kept (s : State) (st t a n : Nat) : (s.vecIn st t a n).2.kept = s.kept := by simp [State.vecIn]
@[simp] theorem State.doQnt_kept (s : State) (st t gd ga gb gc n : Nat) : (State.doQnt s st t gd ga gb gc n).kept = s.kept := by
  unfold State.doQnt
  repeat' split
  all_goals (try simp [foldl_kept])
  all_goals (repeat' split)
  all_goals (try simp [foldl_kept])
@[simp] theorem State.doVop_kept (s : State) (st f t d x y z n : Nat) : (State.doVop s st f t d x y z n).kept = s.kept := by
  unfold State.doVop
  repeat' split
  all_goals (try simp [foldl_kept])
  all_goals (repeat' split)
  all_goals (try simp [foldl_kept])
@[simp] theorem State.doVtopk_kept (s : State) (st k d x y n : Nat) (merge : Bool) : (State.doVtopk s st k d x y n merge).kept = s.kept := by
  unfold State.doVtopk
  repeat' split
  all_goals (try simp [foldl_kept])
  all_goals (repeat' split)
  all_goals (try simp [foldl_kept])
@[simp] theorem State.doVsmp_kept (s : State) (st d x k y : Nat) : (State.doVsmp s st d x k y).kept = s.kept := by
  unfold State.doVsmp
  repeat' split
  all_goals (try simp [foldl_kept])
  all_goals (repeat' split)
  all_goals (try simp [foldl_kept])
@[simp] theorem State.doVacc_kept (s : State) (st d x y g : Nat) : (State.doVacc s st d x y g).kept = s.kept := by
  unfold State.doVacc
  repeat' split
  all_goals (try simp [foldl_kept])
  all_goals (repeat' split)
  all_goals (try simp [foldl_kept])
@[simp] theorem State.runVec_kept (s : State) (st : Nat) (o : VecOp) : (State.runVec s st o).kept = s.kept := by
  unfold State.runVec
  repeat' split
  all_goals (try simp [foldl_kept])
  all_goals (repeat' split)
  all_goals (try simp [foldl_kept])
@[simp] theorem State.pumpVec_kept (st f : Nat) (s : State) : (State.pumpVec st f s).kept = s.kept := by
  induction f generalizing s with
  | zero => rfl
  | succ k ih =>
    simp only [State.pumpVec]
    repeat' split
    all_goals simp [ih]
@[simp] theorem State.vecOp_kept (s : State) (st : Nat) (o : VecOp) : (State.vecOp s st o).kept = s.kept := by
  unfold State.vecOp
  repeat' split
  all_goals (try simp [foldl_kept])
  all_goals (repeat' split)
  all_goals (try simp [foldl_kept])
@[simp] theorem effQnt_kept (st t gd ga gb gc cm1 : Nat) (s : State) : (effQnt st t gd ga gb gc cm1 s).kept = s.kept := by
  unfold effQnt
  repeat' split
  all_goals (try simp [foldl_kept])
  all_goals (repeat' split)
  all_goals (try simp [foldl_kept])
@[simp] theorem effVop_kept (st f t gd ga gb gc cm1 : Nat) (s : State) : (effVop st f t gd ga gb gc cm1 s).kept = s.kept := by
  unfold effVop
  repeat' split
  all_goals (try simp [foldl_kept])
  all_goals (repeat' split)
  all_goals (try simp [foldl_kept])
@[simp] theorem effVtopk_kept (st km1 gd ga gb cm1 : Nat) (merge : Bool) (s : State) : (effVtopk st km1 gd ga gb cm1 merge s).kept = s.kept := by
  unfold effVtopk
  repeat' split
  all_goals (try simp [foldl_kept])
  all_goals (repeat' split)
  all_goals (try simp [foldl_kept])
@[simp] theorem effVsmp_kept (st gd ga km1 gp : Nat) (s : State) : (effVsmp st gd ga km1 gp s).kept = s.kept := by
  unfold effVsmp
  repeat' split
  all_goals (try simp [foldl_kept])
  all_goals (repeat' split)
  all_goals (try simp [foldl_kept])
@[simp] theorem effVacc_kept (st gd ga gb g : Nat) (s : State) : (effVacc st gd ga gb g s).kept = s.kept := by
  unfold effVacc
  repeat' split
  all_goals (try simp [foldl_kept])
  all_goals (repeat' split)
  all_goals (try simp [foldl_kept])
@[simp] theorem State.setBacklog_kept (s : State) (st : Nat) (l : List Instr) : (State.setBacklog s st l).kept = s.kept := by
  unfold State.setBacklog
  repeat' split
  all_goals (try simp [foldl_kept])
  all_goals (repeat' split)
  all_goals (try simp [foldl_kept])
@[simp] theorem State.endHold_kept (s : State) (st : Nat) (i : Instr) (rest : List Instr) : (State.endHold s st i rest).kept = s.kept := by
  unfold State.endHold
  repeat' split
  all_goals (try simp [foldl_kept])
  all_goals (repeat' split)
  all_goals (try simp [foldl_kept])
@[simp] theorem State.modLink_kept (s : State) (router dir : Nat) (f : Link → Link) : (State.modLink s router dir f).kept = s.kept := by
  unfold State.modLink
  repeat' split
  all_goals (try simp [foldl_kept])
  all_goals (repeat' split)
  all_goals (try simp [foldl_kept])
@[simp] theorem State.modSeam_kept (s : State) (y : Nat) (ew : Bool) (f : Seam → Seam) : (State.modSeam s y ew f).kept = s.kept := by
  unfold State.modSeam
  repeat' split
  all_goals (try simp [foldl_kept])
  all_goals (repeat' split)
  all_goals (try simp [foldl_kept])
@[simp] theorem State.linkWidth_kept (s : State) (router dir width : Nat) : (State.linkWidth s router dir width).kept = s.kept := by
  unfold State.linkWidth
  repeat' split
  all_goals (try simp [foldl_kept])
  all_goals (repeat' split)
  all_goals (try simp [foldl_kept])
@[simp] theorem State.seamTest_kept (s : State) (y : Nat) (ew : Bool) (bad : List Nat) : (State.seamTest s y ew bad).kept = s.kept := by
  unfold State.seamTest
  repeat' split
  all_goals (try simp [foldl_kept])
  all_goals (repeat' split)
  all_goals (try simp [foldl_kept])
@[simp] theorem State.redDiscard_kept (s : State) (unit : Nat) (p : Packet) (cause : Nat) : (State.redDiscard s unit p cause).kept = s.kept := by
  unfold State.redDiscard
  repeat' split
  all_goals (try simp [foldl_kept])
  all_goals (repeat' split)
  all_goals (try simp [foldl_kept])
@[simp] theorem State.deliverPart_kept (s : State) (node : Nat) (p : Packet) : (State.deliverPart s node p).kept = s.kept := by
  unfold State.deliverPart
  repeat' split
  all_goals (try simp [foldl_kept])
  all_goals (repeat' split)
  all_goals (try simp [foldl_kept])
@[simp] theorem State.endEntry_kept (s : State) (node : Nat) (e : RedEntry) : (State.endEntry s node e).kept = s.kept := by
  unfold State.endEntry
  repeat' split
  all_goals (try simp [foldl_kept])
  all_goals (repeat' split)
  all_goals (try simp [foldl_kept])
@[simp] theorem State.addPart_kept (s : State) (node : Nat) (p : Packet) : (State.addPart s node p).kept = s.kept := by
  unfold State.addPart
  repeat' split
  all_goals (try simp [foldl_kept])
  all_goals (repeat' split)
  all_goals (try simp [foldl_kept])
@[simp] theorem State.settleRed_kept (node f : Nat) (s : State) : (State.settleRed node f s).kept = s.kept := by
  induction f generalizing s with
  | zero => rfl
  | succ k ih =>
    simp only [State.settleRed]
    repeat' split
    all_goals simp [ih]
@[simp] theorem State.settleReductions_kept (s : State) (node : Nat) : (State.settleReductions s node).kept = s.kept := by
  unfold State.settleReductions
  repeat' split
  all_goals (try simp [foldl_kept])
  all_goals (repeat' split)
  all_goals (try simp [foldl_kept])
@[simp] theorem State.completePhase_kept (s : State) (c : Nat) : (State.completePhase s c).kept = s.kept := by
  unfold State.completePhase
  repeat' split
  all_goals (try simp [foldl_kept])
  all_goals (repeat' split)
  all_goals (try simp [foldl_kept])
@[simp] theorem State.modServing_kept (s : State) (f : Serving → Serving) : (State.modServing s f).kept = s.kept := by
  unfold State.modServing
  repeat' split
  all_goals (try simp [foldl_kept])
  all_goals (repeat' split)
  all_goals (try simp [foldl_kept])
@[simp] theorem State.putReq_kept (s : State) (k : Nat) (r : Option Req) : (State.putReq s k r).kept = s.kept := by
  unfold State.putReq
  repeat' split
  all_goals (try simp [foldl_kept])
  all_goals (repeat' split)
  all_goals (try simp [foldl_kept])
@[simp] theorem State.putRec_kept (s : State) (r : Rec) : (State.putRec s r).kept = s.kept := by
  unfold State.putRec
  repeat' split
  all_goals (try simp [foldl_kept])
  all_goals (repeat' split)
  all_goals (try simp [foldl_kept])
@[simp] theorem State.countRec_kept (s : State) (r : Rec) : (State.countRec s r).kept = s.kept := by
  unfold State.countRec
  repeat' split
  all_goals (try simp [foldl_kept])
  all_goals (repeat' split)
  all_goals (try simp [foldl_kept])
@[simp] theorem State.emitRec_kept (s : State) (r : Rec) : (State.emitRec s r).kept = s.kept := by
  unfold State.emitRec
  repeat' split
  all_goals (try simp [foldl_kept])
  all_goals (repeat' split)
  all_goals (try simp [foldl_kept])
@[simp] theorem State.flushHeld_kept (f : Nat) (s : State) : (State.flushHeld f s).kept = s.kept := by
  induction f generalizing s with
  | zero => rfl
  | succ k ih =>
    simp only [State.flushHeld]
    repeat' split
    all_goals simp [ih]
@[simp] theorem State.engineRead_kept (s : State) (b : Bool) (a n : Nat) : (State.engineRead s b a n).kept = s.kept := by
  unfold State.engineRead
  repeat' split
  all_goals (try simp [foldl_kept])
  all_goals (repeat' split)
  all_goals (try simp [foldl_kept])
@[simp] theorem State.adapterRef_kept (s : State) (slot : Nat) (up : Bool) : (State.adapterRef s slot up).kept = s.kept := by
  unfold State.adapterRef
  repeat' split
  all_goals (try simp [foldl_kept])
  all_goals (repeat' split)
  all_goals (try simp [foldl_kept])
@[simp] theorem State.endReq_kept (s : State) (k : Nat) (r : Req) (status : Nat) : (State.endReq s k r status).kept = s.kept := by
  unfold State.endReq
  repeat' split
  all_goals (try simp [foldl_kept])
  all_goals (repeat' split)
  all_goals (try simp [foldl_kept])
@[simp] theorem State.failReq_kept (s : State) (k : Nat) (r : Req) (status reason : Nat) : (State.failReq s k r status reason).kept = s.kept := by
  unfold State.failReq
  repeat' split
  all_goals (try simp [foldl_kept])
  all_goals (repeat' split)
  all_goals (try simp [foldl_kept])
@[simp] theorem State.commitToks_kept (s : State) (k : Nat) (r : Req) (a pos : Nat) (toks : List Word) : (State.commitToks s k r a pos toks).kept = s.kept := by
  unfold State.commitToks
  repeat' split
  all_goals (try simp [foldl_kept])
  all_goals (repeat' split)
  all_goals (try simp [foldl_kept])
@[simp] theorem State.takeReturn_kept (s : State) (e : ReturnEntry) : (State.takeReturn s e).kept = s.kept := by
  unfold State.takeReturn
  repeat' split
  all_goals (try simp [foldl_kept])
  all_goals (repeat' split)
  all_goals (try simp [foldl_kept])
@[simp] theorem State.loseWork_kept (s : State) (k : Nat) (r : Req) (f : Flight) : (State.loseWork s k r f).kept = s.kept := by
  unfold State.loseWork
  repeat' split
  all_goals (try simp [foldl_kept])
  all_goals (repeat' split)
  all_goals (try simp [foldl_kept])
@[simp] theorem State.stepTimeout_kept (s : State) (k : Nat) : (State.stepTimeout s k).kept = s.kept := by
  unfold State.stepTimeout
  repeat' split
  all_goals (try simp [foldl_kept])
  all_goals (repeat' split)
  all_goals (try simp [foldl_kept])
@[simp] theorem State.suspTimeout_kept (s : State) (k : Nat) : (State.suspTimeout s k).kept = s.kept := by
  unfold State.suspTimeout
  repeat' split
  all_goals (try simp [foldl_kept])
  all_goals (repeat' split)
  all_goals (try simp [foldl_kept])
@[simp] theorem State.failFaults_kept (s : State) : (State.failFaults s).kept = s.kept := by
  unfold State.failFaults
  repeat' split
  all_goals (try simp [foldl_kept])
  all_goals (repeat' split)
  all_goals (try simp [foldl_kept])
@[simp] theorem State.readChead_kept (s : State) : (State.readChead s).kept = s.kept := by
  unfold State.readChead
  repeat' split
  all_goals (try simp [foldl_kept])
  all_goals (repeat' split)
  all_goals (try simp [foldl_kept])
@[simp] theorem State.suspendAll_kept (s : State) : (State.suspendAll s).kept = s.kept := by
  simp only [State.suspendAll]
  split
  · rfl
  · refine (foldl_kept (fun s e => ?_) _ _).trans ?_
    · split <;> simp
    · simp
@[simp] theorem State.servCommit_kept (s : State) (rs : List ReturnEntry) : (State.servCommit s rs).kept = s.kept := by
  unfold State.servCommit
  repeat' split
  all_goals (try simp [foldl_kept])
  all_goals (repeat' split)
  all_goals (try simp [foldl_kept])
@[simp] theorem State.submit_kept (s : State) (b : List Byte) : (s.submit b).1.kept = s.kept := by
  simp only [State.submit]
  repeat' split
  all_goals simp
@[simp] theorem State.abortReq_kept (s : State) (k : Nat) (r : Req) : (s.abortReq k r).1.kept = s.kept := by simp [State.abortReq]
@[simp] theorem State.resume_kept (s : State) (k : Nat) (r : Req) (g : Bool) : (s.resume k r g).1.kept = s.kept := by
  unfold State.resume
  split
  · simp
  · cases g <;> simp
@[simp] theorem State.abortLate_kept (s : State) (tag : Nat) (gk k : Nat) : (s.abortLate tag gk k).1.kept = s.kept := by simp [State.abortLate]
@[simp] theorem State.target_kept (s : State) (op : Nat) (b : List Byte) : (s.target op b).1.kept = s.kept := by
  simp only [State.target]
  repeat' split
  all_goals simp
@[simp] theorem State.actOn_kept (s : State) (b : List Byte) : (s.actOn b).1.kept = s.kept := by
  simp only [State.actOn]
  repeat' split
  all_goals simp
theorem State.consume_kept {s t : State} {q : State × Option Rec} (h : s.consume q = some t) : t.kept = q.1.kept := by
  obtain ⟨u, r⟩ := q
  cases r with
  | none => cases h; simp
  | some r =>
    simp only [State.consume] at h
    split at h
    · cases h; simp
    · cases h
@[simp] theorem State.readDesc_kept (s : State) : (State.readDesc s).kept = s.kept := by
  unfold State.readDesc
  repeat' split
  all_goals (try simp [foldl_kept])
  all_goals (repeat' split)
  all_goals (try simp [foldl_kept])
theorem State.sampleOne_kept {s t : State} (h : s.sampleOne = some t) : t.kept = s.kept := by
  simp only [State.sampleOne] at h
  split at h
  · cases h
  · split at h
    · rw [State.consume_kept h]; simp
    · split at h
      · rw [State.consume_kept h]
      · cases h
@[simp] theorem State.sampleStop_kept (s : State) : (State.sampleStop s).kept = s.kept := by
  unfold State.sampleStop
  repeat' split
  all_goals (try simp [foldl_kept])
  all_goals (repeat' split)
  all_goals (try simp [foldl_kept])
@[simp] theorem State.sampleGo_kept (f : Nat) (s : State) : (State.sampleGo f s).kept = s.kept := by
  induction f generalizing s with
  | zero => simp only [State.sampleGo]; split <;> simp
  | succ k ih =>
    simp only [State.sampleGo]
    split
    · rename_i t h
      rw [ih, State.sampleOne_kept h, State.readDesc_kept]
    · simp
@[simp] theorem State.servSample_kept (s : State) : (State.servSample s).kept = s.kept := by
  unfold State.servSample
  repeat' split
  all_goals (try simp [foldl_kept])
  all_goals (repeat' split)
  all_goals (try simp [foldl_kept])
@[simp] theorem State.admitOne_kept (s : State) (r : Deferred) : (State.admitOne s r).kept = s.kept := by
  have ctr : ∀ (t : State) (n : Nat), ({ t with freeCtr := n } : State).kept = t.kept := fun _ _ => rfl
  simp only [State.admitOne, State.emitRec_kept, State.modServing_kept, State.putReq_kept]
  split <;> simp only [State.adapterRef_kept, ctr, State.engineRead_kept]
@[simp] theorem State.refuseDeferred_kept (s : State) (r : Deferred) (status reason aux1 : Nat) : (State.refuseDeferred s r status reason aux1).kept = s.kept := by
  unfold State.refuseDeferred
  repeat' split
  all_goals (try simp [foldl_kept])
  all_goals (repeat' split)
  all_goals (try simp [foldl_kept])
@[simp] theorem State.admitGo_kept (l : List Deferred) (s : State) : (State.admitGo l s).kept = s.kept := by
  induction l generalizing s with
  | nil => rfl
  | cons r t ih =>
    simp only [State.admitGo]
    repeat' split
    all_goals simp [ih]
@[simp] theorem State.defer_kept (s : State) (r : Deferred) (p e : Nat) : (State.defer s r p e).kept = s.kept := by
  unfold State.defer
  repeat' split
  all_goals (try simp [foldl_kept])
  all_goals (repeat' split)
  all_goals (try simp [foldl_kept])
@[simp] theorem State.deferGo_kept (l : List Deferred) (s : State) : (State.deferGo l s).kept = s.kept := by
  induction l generalizing s with
  | nil => rfl
  | cons r t ih =>
    simp only [State.deferGo]
    repeat' split
    all_goals simp [ih]
@[simp] theorem State.servRates_kept (s : State) : (State.servRates s).kept = s.kept := by
  unfold State.servRates
  repeat' split
  all_goals (try simp [foldl_kept])
  all_goals (repeat' split)
  all_goals (try simp [foldl_kept])
@[simp] theorem State.servAdmit_kept (s : State) : (State.servAdmit s).kept = s.kept := by
  unfold State.servAdmit
  repeat' split
  all_goals (try simp [foldl_kept])
  all_goals (repeat' split)
  all_goals (try simp [foldl_kept])
@[simp] theorem State.noteEntry_kept (s : State) (bank : Bool) (e : Nat) : (State.noteEntry s bank e).kept = s.kept := by
  unfold State.noteEntry
  repeat' split
  all_goals (try simp [foldl_kept])
  all_goals (repeat' split)
  all_goals (try simp [foldl_kept])
theorem foldl_kept_fst {α β : Type} {f : State × β → α → State × β} (h : ∀ q a, (f q a).1.kept = q.1.kept) (l : List α) (q : State × β) :
    (l.foldl f q).1.kept = q.1.kept := by
  induction l generalizing q with
  | nil => rfl
  | cons a l ih => rw [List.foldl_cons, ih, h]
@[simp] theorem State.assignGroups_kept (s : State) (slot : Nat) (r : Req) (k : Nat) : (s.assignGroups slot r k).1.kept = s.kept := by
  unfold State.assignGroups
  refine foldl_kept_fst (fun q i => ?_) _ _
  split
  · rfl
  · dsimp only
    split <;> simp
@[simp] theorem State.setBank_kept (s : State) (slot : Nat) (r : Req) (b : Bool) : (s.setBank slot r b).1.kept = s.kept := by
  simp only [State.setBank]
  split <;> simp
@[simp] theorem State.allocGen_kept (bs e : Nat) (q : State × Nat) (c : Nat × Req) : (State.allocGen bs e q c).1.kept = q.1.kept := by
  simp only [State.allocGen]
  repeat' split
  all_goals simp
@[simp] theorem State.allocPre_kept (bs e : Nat) (q : State × Nat) (c : Nat × Req) : (State.allocPre bs e q c).1.kept = q.1.kept := by
  simp only [State.allocPre]
  repeat' split
  all_goals simp
@[simp] theorem State.emptyBatch_kept (s : State) : (State.emptyBatch s).kept = s.kept := by
  unfold State.emptyBatch
  repeat' split
  all_goals (try simp [foldl_kept])
  all_goals (repeat' split)
  all_goals (try simp [foldl_kept])
@[simp] theorem State.voidRows_kept (s : State) (bs n : Nat) : (State.voidRows s bs n).kept = s.kept := by
  unfold State.voidRows
  repeat' split
  all_goals (try simp [foldl_kept])
  all_goals (repeat' split)
  all_goals (try simp [foldl_kept])
@[simp] theorem State.servAllocate_kept (s : State) : (State.servAllocate s).kept = s.kept := by
  simp only [State.servAllocate]
  split
  · simp
  · simp [foldl_kept_fst (f := State.allocPre _ _) (fun q c => State.allocPre_kept _ _ q c),
      foldl_kept_fst (f := State.allocGen _ _) (fun q c => State.allocGen_kept _ _ q c)]
@[simp] theorem State.applyAnn_kept (s : State) (a : AnnEntry) : (State.applyAnn s a).kept = s.kept := by
  unfold State.applyAnn
  repeat' split
  all_goals (try simp [foldl_kept])
  all_goals (repeat' split)
  all_goals (try simp [foldl_kept])
@[simp] theorem State.servAnnounce_kept (s : State) : (State.servAnnounce s).kept = s.kept := by
  unfold State.servAnnounce
  repeat' split
  all_goals (try simp [foldl_kept])
  all_goals (repeat' split)
  all_goals (try simp [foldl_kept])
@[simp] theorem State.servPublish_kept (s : State) : (State.servPublish s).kept = s.kept := by
  unfold State.servPublish
  repeat' split
  all_goals (try simp [foldl_kept])
  all_goals (repeat' split)
  all_goals (try simp [foldl_kept])
@[simp] theorem State.startServing_kept (s : State) : (State.startServing s).kept = s.kept := by
  unfold State.startServing
  repeat' split
  all_goals (try simp [foldl_kept])
  all_goals (repeat' split)
  all_goals (try simp [foldl_kept])
@[simp] theorem State.serveStart_kept (s : State) : (State.serveStart s).kept = s.kept := by
  unfold State.serveStart
  repeat' split
  all_goals (try simp [foldl_kept])
  all_goals (repeat' split)
  all_goals (try simp [foldl_kept])
@[simp] theorem State.serveDrain_kept (s : State) : (State.serveDrain s).kept = s.kept := by
  unfold State.serveDrain
  repeat' split
  all_goals (try simp [foldl_kept])
  all_goals (repeat' split)
  all_goals (try simp [foldl_kept])
@[simp] theorem State.serveStop_kept (s : State) : (State.serveStop s).kept = s.kept := by
  unfold State.serveStop
  repeat' split
  all_goals (try simp [foldl_kept])
  all_goals (repeat' split)
  all_goals (try simp [foldl_kept])
@[simp] theorem State.servStopped_kept (s : State) : (State.servStopped s).kept = s.kept := by
  unfold State.servStopped
  repeat' split
  all_goals (try simp [foldl_kept])
  all_goals (repeat' split)
  all_goals (try simp [foldl_kept])
@[simp] theorem State.servStop_kept (s : State) : (State.servStop s).kept = s.kept := by
  unfold State.servStop
  repeat' split
  all_goals (try simp [foldl_kept])
  all_goals (repeat' split)
  all_goals (try simp [foldl_kept])
@[simp] theorem State.servEnd_kept (s : State) : (State.servEnd s).kept = s.kept := by
  unfold State.servEnd
  repeat' split
  all_goals (try simp [foldl_kept])
  all_goals (repeat' split)
  all_goals (try simp [foldl_kept])
@[simp] theorem State.wearNote_kept (s : State) (st c : Nat) (bankB : Bool) (before : Nat) : (State.wearNote s st c bankB before).kept = s.kept := by
  unfold State.wearNote
  repeat' split
  all_goals (try simp [foldl_kept])
  all_goals (repeat' split)
  all_goals (try simp [foldl_kept])
@[simp] theorem State.modWeights_kept (s : State) (f : Weights → Weights) : (State.modWeights s f).kept = s.kept := by
  unfold State.modWeights
  repeat' split
  all_goals (try simp [foldl_kept])
  all_goals (repeat' split)
  all_goals (try simp [foldl_kept])
@[simp] theorem State.modShard_kept (s : State) (b : Bool) (st : Nat) (f : Shard → Shard) : (State.modShard s b st f).kept = s.kept := by
  unfold State.modShard
  repeat' split
  all_goals (try simp [foldl_kept])
  all_goals (repeat' split)
  all_goals (try simp [foldl_kept])
@[simp] theorem State.setVersion_kept (s : State) (b : Bool) (v : Version) : (State.setVersion s b v).kept = s.kept := by
  unfold State.setVersion
  repeat' split
  all_goals (try simp [foldl_kept])
  all_goals (repeat' split)
  all_goals (try simp [foldl_kept])
@[simp] theorem State.mapCores_kept (s : State) (f : Nat → Core → Core) : (State.mapCores s f).kept = s.kept := by
  unfold State.mapCores
  repeat' split
  all_goals (try simp [foldl_kept])
  all_goals (repeat' split)
  all_goals (try simp [foldl_kept])
@[simp] theorem State.allCores_kept (s : State) (f : Core → Core) : (State.allCores s f).kept = s.kept := by
  unfold State.allCores
  repeat' split
  all_goals (try simp [foldl_kept])
  all_goals (repeat' split)
  all_goals (try simp [foldl_kept])
@[simp] theorem State.bankSt_kept (s : State) (b : Bool) (p : BankState → Bool) (v : BankState) : (State.bankSt s b p v).kept = s.kept := by
  unfold State.bankSt
  repeat' split
  all_goals (try simp [foldl_kept])
  all_goals (repeat' split)
  all_goals (try simp [foldl_kept])
@[simp] theorem State.weightResult_kept (s : State) (op code : Nat) : (State.weightResult s op code).kept = s.kept := by
  unfold State.weightResult
  repeat' split
  all_goals (try simp [foldl_kept])
  all_goals (repeat' split)
  all_goals (try simp [foldl_kept])
@[simp] theorem State.masterRead_kept (s : State) (b : Bool) (st p : Nat) : (State.masterRead s b st p).kept = s.kept := by
  unfold State.masterRead
  repeat' split
  all_goals (try simp [foldl_kept])
  all_goals (repeat' split)
  all_goals (try simp [foldl_kept])
@[simp] theorem State.putMaster_kept (s : State) (b : Bool) (st : Nat) (hdr : List Byte) (rows : Nat → Nat → BitVec 256) : (State.putMaster s b st hdr rows).kept = s.kept := by
  unfold State.putMaster
  repeat' split
  all_goals (try simp [foldl_kept])
  all_goals (repeat' split)
  all_goals (try simp [foldl_kept])
@[simp] theorem State.emptyArea_kept (s : State) (b : Bool) : (State.emptyArea s b).kept = s.kept := by
  unfold State.emptyArea
  repeat' split
  all_goals (try simp [foldl_kept])
  all_goals (repeat' split)
  all_goals (try simp [foldl_kept])
@[simp] theorem State.endPair_kept (s : State) (b : Bool) (st p : Nat) : (State.endPair s b st p).kept = s.kept := by
  unfold State.endPair
  repeat' split
  all_goals (try simp [foldl_kept])
  all_goals (repeat' split)
  all_goals (try simp [foldl_kept])
@[simp] theorem State.settleShard_kept (s : State) (b : Bool) (st : Nat) (v : BankState) : (State.settleShard s b st v).kept = s.kept := by
  unfold State.settleShard
  repeat' split
  all_goals (try simp [foldl_kept])
  all_goals (repeat' split)
  all_goals (try simp [foldl_kept])
@[simp] theorem State.unplaceable_kept (s : State) (b : Bool) (st c : Nat) : (State.unplaceable s b st c).kept = s.kept := by
  unfold State.unplaceable
  repeat' split
  all_goals (try simp [foldl_kept])
  all_goals (repeat' split)
  all_goals (try simp [foldl_kept])
@[simp] theorem State.beginWrite_kept (s : State) (q : Bool × Nat × Nat) : (State.beginWrite s q).kept = s.kept := by
  unfold State.beginWrite
  repeat' split
  all_goals (try simp [foldl_kept])
  all_goals (repeat' split)
  all_goals (try simp [foldl_kept])
@[simp] theorem State.pumpWrites_kept (s : State) : (State.pumpWrites s).kept = s.kept := by
  unfold State.pumpWrites
  repeat' split
  all_goals (try simp [foldl_kept])
  all_goals (repeat' split)
  all_goals (try simp [foldl_kept])
@[simp] theorem State.writeBank_kept (s : State) (b : Bool) (st c : Nat) (l : Layout) (rows : Nat → BitVec 256) (w4s : Bool) (rewrites : Nat) :
    (s.writeBank b st c l rows w4s rewrites).1.kept = s.kept := by
  unfold State.writeBank
  simp
@[simp] theorem State.setBankSt_kept (s : State) (b : Bool) (st c : Nat) (v : BankState) : (State.setBankSt s b st c v).kept = s.kept := by
  unfold State.setBankSt
  repeat' split
  all_goals (try simp [foldl_kept])
  all_goals (repeat' split)
  all_goals (try simp [foldl_kept])
@[simp] theorem State.writeOne_kept (s : State) (b : Bool) (st p c rewrites : Nat) : (State.writeOne s b st p c rewrites).kept = s.kept := by
  unfold State.writeOne
  repeat' split
  all_goals (try simp [foldl_kept])
  all_goals (repeat' split)
  all_goals (try simp [foldl_kept])
@[simp] theorem State.askPeer_kept (s : State) : (State.askPeer s).kept = s.kept := by
  unfold State.askPeer
  repeat' split
  all_goals (try simp [foldl_kept])
  all_goals (repeat' split)
  all_goals (try simp [foldl_kept])
@[simp] theorem State.peerDone_kept (s : State) (st : Nat) : (State.peerDone s st).kept = s.kept := by
  unfold State.peerDone
  repeat' split
  all_goals (try simp [foldl_kept])
  all_goals (repeat' split)
  all_goals (try simp [foldl_kept])
@[simp] theorem State.wantShard_kept (s : State) (b : Bool) (st : Nat) : (State.wantShard s b st).kept = s.kept := by
  unfold State.wantShard
  repeat' split
  all_goals (try simp [foldl_kept])
  all_goals (repeat' split)
  all_goals (try simp [foldl_kept])
@[simp] theorem State.endAttempt_kept (s : State) (b : Bool) (st : Nat) (corrupt : Bool) : (State.endAttempt s b st corrupt).kept = s.kept := by
  unfold State.endAttempt
  repeat' split
  all_goals (try simp [foldl_kept])
  all_goals (repeat' split)
  all_goals (try simp [foldl_kept])
@[simp] theorem State.acceptShard_kept (s : State) (k : Bool) (st : Nat) (b : List Byte) (peer : Bool) : (State.acceptShard s k st b peer).kept = s.kept := by
  unfold State.acceptShard
  repeat' split
  all_goals (try simp [foldl_kept])
  all_goals (repeat' split)
  all_goals (try simp [foldl_kept])
@[simp] theorem State.arrive_kept (s : State) (b : List Byte) (peer : Bool) : (State.arrive s b peer).kept = s.kept := by
  unfold State.arrive
  repeat' split
  all_goals (try simp [foldl_kept])
  all_goals (repeat' split)
  all_goals (try simp [foldl_kept])
@[simp] theorem State.post_kept (s : State) (slot : Nat) : (State.post s slot).kept = s.kept := by
  unfold State.post
  repeat' split
  all_goals (try simp [foldl_kept])
  all_goals (repeat' split)
  all_goals (try simp [foldl_kept])
@[simp] theorem State.finalCheck_kept (s : State) (b : Bool) (st : Nat) : (State.finalCheck s b st).kept = s.kept := by
  unfold State.finalCheck
  repeat' split
  all_goals (try simp [foldl_kept])
  all_goals (repeat' split)
  all_goals (try simp [foldl_kept])
@[simp] theorem State.emptyBank_kept (s : State) (b : Bool) (h : Shard) (v : Version) : (State.emptyBank s b h v).kept = s.kept := by
  unfold State.emptyBank
  repeat' split
  all_goals (try simp [foldl_kept])
  all_goals (repeat' split)
  all_goals (try simp [foldl_kept])
@[simp] theorem State.stage_kept (s : State) (cap peer : Bool) (place epoch : Nat) (layoutId : DWord) : (State.stage s cap peer place epoch layoutId).kept = s.kept := by
  unfold State.stage
  repeat' split
  all_goals (try simp [foldl_kept])
  all_goals (repeat' split)
  all_goals (try simp [foldl_kept])
@[simp] theorem State.weightWrite_kept (s : State) (b : List Byte) : (State.weightWrite s b).kept = s.kept := by
  unfold State.weightWrite
  repeat' split
  all_goals (try simp [foldl_kept])
  all_goals (repeat' split)
  all_goals (try simp [foldl_kept])
@[simp] theorem State.cancelStage_kept (s : State) : (State.cancelStage s).kept = s.kept := by
  unfold State.cancelStage
  repeat' split
  all_goals (try simp [foldl_kept])
  all_goals (repeat' split)
  all_goals (try simp [foldl_kept])
@[simp] theorem State.requestAgain_kept (s : State) : (State.requestAgain s).kept = s.kept := by
  unfold State.requestAgain
  repeat' split
  all_goals (try simp [foldl_kept])
  all_goals (repeat' split)
  all_goals (try simp [foldl_kept])
@[simp] theorem State.arm_kept (s : State) (nmod epoch grace : Nat) : (State.arm s nmod epoch grace).kept = s.kept := by
  unfold State.arm
  repeat' split
  all_goals (try simp [foldl_kept])
  all_goals (repeat' split)
  all_goals (try simp [foldl_kept])
@[simp] theorem State.withdrawArrival_kept (s : State) : (State.withdrawArrival s).kept = s.kept := by
  unfold State.withdrawArrival
  repeat' split
  all_goals (try simp [foldl_kept])
  all_goals (repeat' split)
  all_goals (try simp [foldl_kept])
@[simp] theorem State.disarm_kept (s : State) : (State.disarm s).kept = s.kept := by
  unfold State.disarm
  repeat' split
  all_goals (try simp [foldl_kept])
  all_goals (repeat' split)
  all_goals (try simp [foldl_kept])
@[simp] theorem State.activate_kept (s : State) (epoch : Nat) : (State.activate s epoch).kept = s.kept := by
  unfold State.activate
  repeat' split
  all_goals (try simp [foldl_kept])
  all_goals (repeat' split)
  all_goals (try simp [foldl_kept])
@[simp] theorem State.scrubNow_kept (s : State) : (State.scrubNow s).kept = s.kept := by
  unfold State.scrubNow
  repeat' split
  all_goals (try simp [foldl_kept])
  all_goals (repeat' split)
  all_goals (try simp [foldl_kept])
@[simp] theorem State.weightCmd_kept (s : State) (b : List Byte) : (State.weightCmd s b).kept = s.kept := by
  unfold State.weightCmd
  repeat' split
  all_goals (try simp [foldl_kept])
  all_goals (repeat' split)
  all_goals (try simp [foldl_kept])
@[simp] theorem State.weightBoundary_kept (s : State) : (State.weightBoundary s).kept = s.kept := by
  unfold State.weightBoundary
  repeat' split
  all_goals (try simp [foldl_kept])
  all_goals (repeat' split)
  all_goals (try simp [foldl_kept])
@[simp] theorem State.switchArrive_kept (s : State) : (State.switchArrive s).kept = s.kept := by
  unfold State.switchArrive
  repeat' split
  all_goals (try simp [foldl_kept])
  all_goals (repeat' split)
  all_goals (try simp [foldl_kept])
@[simp] theorem State.switchComplete_kept (s : State) : (State.switchComplete s).kept = s.kept := by
  unfold State.switchComplete
  repeat' split
  all_goals (try simp [foldl_kept])
  all_goals (repeat' split)
  all_goals (try simp [foldl_kept])
@[simp] theorem State.switchPointer_kept (s : State) : (State.switchPointer s).kept = s.kept := by
  unfold State.switchPointer
  repeat' split
  all_goals (try simp [foldl_kept])
  all_goals (repeat' split)
  all_goals (try simp [foldl_kept])
@[simp] theorem State.retireArrive_kept (s : State) : (State.retireArrive s).kept = s.kept := by
  unfold State.retireArrive
  repeat' split
  all_goals (try simp [foldl_kept])
  all_goals (repeat' split)
  all_goals (try simp [foldl_kept])
@[simp] theorem State.retireComplete_kept (s : State) : (State.retireComplete s).kept = s.kept := by
  simp only [State.retireComplete]
  split
  · simp only [State.count_kept, State.modWeights_kept, State.bankSt_kept]
    refine foldl_kept (fun s e => ?_) _ _
    split
    · split <;> simp
    · split <;> simp
  · rfl
@[simp] theorem State.masterFromArray_kept (s : State) (b : Bool) (st p : Nat) : (State.masterFromArray s b st p).kept = s.kept := by
  unfold State.masterFromArray
  repeat' split
  all_goals (try simp [foldl_kept])
  all_goals (repeat' split)
  all_goals (try simp [foldl_kept])
@[simp] theorem State.rebuildShard_kept (s : State) (b : Bool) (st : Nat) : (State.rebuildShard s b st).kept = s.kept := by
  unfold State.rebuildShard
  repeat' split
  all_goals (try simp [foldl_kept])
  all_goals (repeat' split)
  all_goals (try simp [foldl_kept])
@[simp] theorem State.suspectCore_kept (s : State) (st c : Nat) : (State.suspectCore s st c).kept = s.kept := by
  unfold State.suspectCore
  repeat' split
  all_goals (try simp [foldl_kept])
  all_goals (repeat' split)
  all_goals (try simp [foldl_kept])
@[simp] theorem State.scrubOutcome_kept (s : State) (b : Bool) (st p : Nat) (a m computing : Bool) : (State.scrubOutcome s b st p a m computing).kept = s.kept := by
  unfold State.scrubOutcome
  repeat' split
  all_goals (try simp [foldl_kept])
  all_goals (repeat' split)
  all_goals (try simp [foldl_kept])
@[simp] theorem State.repairMaster_kept (s : State) : (State.repairMaster s).kept = s.kept := by
  unfold State.repairMaster
  repeat' split
  all_goals (try simp [foldl_kept])
  all_goals (repeat' split)
  all_goals (try simp [foldl_kept])
@[simp] theorem State.scrubRound_kept (s : State) : (State.scrubRound s).kept = s.kept := by
  unfold State.scrubRound
  repeat' split
  all_goals (try simp [foldl_kept])
  all_goals (repeat' split)
  all_goals (try simp [foldl_kept])
@[simp] theorem State.scrubArray_kept (s : State) (b : Bool) (st p : Nat) (last : Bool) : (State.scrubArray s b st p last).kept = s.kept := by
  unfold State.scrubArray
  repeat' split
  all_goals (try simp [foldl_kept])
  all_goals (repeat' split)
  all_goals (try simp [foldl_kept])
@[simp] theorem State.rebuildAreas_kept (s : State) : (State.rebuildAreas s).kept = s.kept := by
  unfold State.rebuildAreas
  repeat' split
  all_goals (try simp [foldl_kept])
  all_goals (repeat' split)
  all_goals (try simp [foldl_kept])
@[simp] theorem State.adapterResult_kept (s : State) (op code : Nat) : (State.adapterResult s op code).kept = s.kept := by
  unfold State.adapterResult
  repeat' split
  all_goals (try simp [foldl_kept])
  all_goals (repeat' split)
  all_goals (try simp [foldl_kept])
@[simp] theorem State.adapterLoad_kept (s : State) (ident off len : Nat) (digest : List Byte) : (State.adapterLoad s ident off len digest).kept = s.kept := by
  unfold State.adapterLoad
  repeat' split
  all_goals (try simp [foldl_kept])
  all_goals (repeat' split)
  all_goals (try simp [foldl_kept])
@[simp] theorem State.adapterRemove_kept (s : State) (ident : Nat) : (State.adapterRemove s ident).kept = s.kept := by
  unfold State.adapterRemove
  repeat' split
  all_goals (try simp [foldl_kept])
  all_goals (repeat' split)
  all_goals (try simp [foldl_kept])
@[simp] theorem State.adapterCmd_kept (s : State) (b : List Byte) : (State.adapterCmd s b).kept = s.kept := by
  unfold State.adapterCmd
  repeat' split
  all_goals (try simp [foldl_kept])
  all_goals (repeat' split)
  all_goals (try simp [foldl_kept])
@[simp] theorem State.adapterBoundary_kept (s : State) : (State.adapterBoundary s).kept = s.kept := by
  unfold State.adapterBoundary
  repeat' split
  all_goals (try simp [foldl_kept])
  all_goals (repeat' split)
  all_goals (try simp [foldl_kept])
@[simp] theorem State.binaryResult_kept (s : State) (op code : Nat) : (State.binaryResult s op code).kept = s.kept := by
  unfold State.binaryResult
  repeat' split
  all_goals (try simp [foldl_kept])
  all_goals (repeat' split)
  all_goals (try simp [foldl_kept])
@[simp] theorem State.binaryLoad_kept (s : State) (off len : Nat) : (State.binaryLoad s off len).kept = s.kept := by
  unfold State.binaryLoad
  repeat' split
  all_goals (try simp [foldl_kept])
  all_goals (repeat' split)
  all_goals (try simp [foldl_kept])
@[simp] theorem State.binaryActivate_kept (s : State) (beat : Nat) : (State.binaryActivate s beat).kept = s.kept := by
  unfold State.binaryActivate
  repeat' split
  all_goals (try simp [foldl_kept])
  all_goals (repeat' split)
  all_goals (try simp [foldl_kept])
@[simp] theorem State.binaryCmd_kept (s : State) (b : List Byte) : (State.binaryCmd s b).kept = s.kept := by
  unfold State.binaryCmd
  repeat' split
  all_goals (try simp [foldl_kept])
  all_goals (repeat' split)
  all_goals (try simp [foldl_kept])
@[simp] theorem State.makeCurrent_kept (s : State) (b : List Byte) : (State.makeCurrent s b).kept = s.kept := by
  unfold State.makeCurrent
  simp [foldl_kept]
@[simp] theorem State.binaryBoundary_kept (s : State) : (State.binaryBoundary s).kept = s.kept := by
  unfold State.binaryBoundary
  repeat' split
  all_goals (try simp [foldl_kept])
  all_goals (repeat' split)
  all_goals (try simp [foldl_kept])
@[simp] theorem State.repeatAt_kept (s : State) (st p : Nat) (ops : List CoreOp) (deferred : Bool) : (State.repeatAt s st p ops deferred).kept = s.kept := by
  unfold State.repeatAt
  repeat' split
  all_goals (try simp [foldl_kept])
  all_goals (repeat' split)
  all_goals (try simp [foldl_kept])
@[simp] theorem State.startRepeat_kept (s : State) (st : Nat) (t : Tile) (deferred : Bool) : (State.startRepeat s st t deferred).kept = s.kept := by
  unfold State.startRepeat
  repeat' split
  all_goals (try simp [foldl_kept])
  all_goals (repeat' split)
  all_goals (try simp [foldl_kept])
@[simp] theorem State.sentinel_kept (s : State) (st : Nat) (t : Tile) (dst flags cost : Nat) : (State.sentinel s st t dst flags cost).kept = s.kept := by
  unfold State.sentinel
  repeat' split
  all_goals (try simp [foldl_kept])
  all_goals (repeat' split)
  all_goals (try simp [foldl_kept])
@[simp] theorem State.endTile_kept (s : State) (st : Nat) (t : Tile) : (State.endTile s st t).kept = s.kept := by
  unfold State.endTile
  repeat' split
  all_goals (try simp [foldl_kept])
  all_goals (repeat' split)
  all_goals (try simp [foldl_kept])
@[simp] theorem State.repeatTile_kept (s : State) (st : Nat) (t : Tile) (f : Nat) : (State.repeatTile s st t f).kept = s.kept := by
  unfold State.repeatTile
  repeat' split
  all_goals (try simp [foldl_kept])
  all_goals (repeat' split)
  all_goals (try simp [foldl_kept])
@[simp] theorem State.tileVerdict_kept (s : State) (st idx : Nat) : (State.tileVerdict s st idx).kept = s.kept := by
  unfold State.tileVerdict
  repeat' split
  all_goals (try simp [foldl_kept])
  all_goals (repeat' split)
  all_goals (try simp [foldl_kept])
@[simp] theorem State.startDeferred_kept (s : State) (st : Nat) : (State.startDeferred s st).kept = s.kept := by
  unfold State.startDeferred
  repeat' split
  all_goals (try simp [foldl_kept])
  all_goals (repeat' split)
  all_goals (try simp [foldl_kept])
@[simp] theorem State.noSpare_kept (s : State) (st p : Nat) (urgent : Bool) : (State.noSpare s st p urgent).kept = s.kept := by
  unfold State.noSpare
  repeat' split
  all_goals (try simp [foldl_kept])
  all_goals (repeat' split)
  all_goals (try simp [foldl_kept])
@[simp] theorem State.spareWrite_kept (s : State) (st : Nat) (bs : List Bool) : (State.spareWrite s st bs).kept = s.kept := by
  unfold State.spareWrite
  repeat' split
  all_goals (try simp [foldl_kept])
  all_goals (repeat' split)
  all_goals (try simp [foldl_kept])
@[simp] theorem State.coppiceStart_kept (s : State) (st p : Nat) (urgent : Bool) : (State.coppiceStart s st p urgent).kept = s.kept := by
  unfold State.coppiceStart
  repeat' split
  all_goals (try simp [foldl_kept])
  all_goals (repeat' split)
  all_goals (try simp [foldl_kept])
@[simp] theorem State.spareOne_kept (s : State) (st : Nat) (q : Coppice) (b : Bool) : (s.spareOne st q b).1.kept = s.kept := by
  simp only [State.spareOne]
  split <;> simp
@[simp] theorem State.spareGo_kept (st : Nat) (q : Coppice) (l : List Bool) (s : State) : (State.spareGo st q l s).kept = s.kept := by
  induction l generalizing s with
  | nil => simp [State.spareGo]
  | cons b t ih =>
    simp only [State.spareGo]
    split <;> simp [ih]
@[simp] theorem State.rewriteAt_kept (s : State) (b : Bool) (st p : Nat) : (State.rewriteAt s b st p).kept = s.kept := by
  unfold State.rewriteAt
  repeat' split
  all_goals (try simp [foldl_kept])
  all_goals (repeat' split)
  all_goals (try simp [foldl_kept])
@[simp] theorem State.switchIn_kept (s : State) (st : Nat) (q : Coppice) : (State.switchIn s st q).kept = s.kept := by
  unfold State.switchIn
  repeat' split
  all_goals (try simp [foldl_kept])
  all_goals (repeat' split)
  all_goals (try simp [foldl_kept])
@[simp] theorem State.coppiceBoundary_kept (s : State) (st : Nat) : (State.coppiceBoundary s st).kept = s.kept := by
  unfold State.coppiceBoundary
  repeat' split
  all_goals (try simp [foldl_kept])
  all_goals (repeat' split)
  all_goals (try simp [foldl_kept])
@[simp] theorem State.coppiceRestart_kept (s : State) (st : Nat) : (State.coppiceRestart s st).kept = s.kept := by
  unfold State.coppiceRestart
  repeat' split
  all_goals (try simp [foldl_kept])
  all_goals (repeat' split)
  all_goals (try simp [foldl_kept])
@[simp] theorem State.sendVector_kept (s : State) (v : Nat) : (State.sendVector s v).kept = s.kept := by
  unfold State.sendVector
  repeat' split
  all_goals (try simp [foldl_kept])
  all_goals (repeat' split)
  all_goals (try simp [foldl_kept])
@[simp] theorem State.sendDue_kept (s : State) : (State.sendDue s).kept = s.kept := by
  unfold State.sendDue
  repeat' split
  all_goals (try simp [foldl_kept])
  all_goals (repeat' split)
  all_goals (try simp [foldl_kept])
@[simp] theorem State.openBeat_kept (s : State) : (State.openBeat s).kept = s.kept := by
  unfold State.openBeat
  repeat' split
  all_goals (try simp [foldl_kept])
  all_goals (repeat' split)
  all_goals (try simp [foldl_kept])
@[simp] theorem State.takeSlip_kept (s : State) : (State.takeSlip s).kept = s.kept := by
  unfold State.takeSlip
  repeat' split
  all_goals (try simp [foldl_kept])
  all_goals (repeat' split)
  all_goals (try simp [foldl_kept])
@[simp] theorem State.rowsBoundary_kept (s : State) (st : Nat) : (State.rowsBoundary s st).kept = s.kept := by
  unfold State.rowsBoundary
  repeat' split
  all_goals (try simp [foldl_kept])
  all_goals (repeat' split)
  all_goals (try simp [foldl_kept])
@[simp] theorem State.fenceMap_kept (s : State) (st : Nat) : (State.fenceMap s st).kept = s.kept := by
  unfold State.fenceMap
  repeat' split
  all_goals (try simp [foldl_kept])
  all_goals (repeat' split)
  all_goals (try simp [foldl_kept])
@[simp] theorem State.fencedBanks_kept (s : State) (st : Nat) : (State.fencedBanks s st).kept = s.kept := by
  unfold State.fencedBanks
  repeat' split
  all_goals (try simp [foldl_kept])
  all_goals (repeat' split)
  all_goals (try simp [foldl_kept])
@[simp] theorem State.standBoundary_kept (s : State) (st : Nat) : (State.standBoundary s st).kept = s.kept := by
  unfold State.standBoundary
  repeat' split
  all_goals (try simp [foldl_kept])
  all_goals (repeat' split)
  all_goals (try simp [foldl_kept])
@[simp] theorem State.arraysBoundary_kept (s : State) : (State.arraysBoundary s).kept = s.kept := by
  simp only [State.arraysBoundary, State.count_kept, State.mapCores_kept]
  refine foldl_kept (fun s e => ?_) _ _
  rfl
@[simp] theorem State.adcBoundary_kept (s : State) : (State.adcBoundary s).kept = s.kept := by
  unfold State.adcBoundary
  repeat' split
  all_goals (try simp [foldl_kept])
  all_goals (repeat' split)
  all_goals (try simp [foldl_kept])
@[simp] theorem State.seamBoundary_kept (s : State) : (State.seamBoundary s).kept = s.kept := by
  unfold State.seamBoundary
  repeat' split
  all_goals (try simp [foldl_kept])
  all_goals (repeat' split)
  all_goals (try simp [foldl_kept])
@[simp] theorem State.epochBoundary_kept (s : State) : (State.epochBoundary s).kept = s.kept := by
  unfold State.epochBoundary
  repeat' split
  all_goals (try simp [foldl_kept])
  all_goals (repeat' split)
  all_goals (try simp [foldl_kept])
@[simp] theorem State.serveBoundary_kept (s : State) (returns : List ReturnEntry) (anns : List AnnEntry) : (State.serveBoundary s returns anns).kept = s.kept := by
  unfold State.serveBoundary
  repeat' split
  all_goals (try simp [foldl_kept])
  all_goals (repeat' split)
  all_goals (try simp [foldl_kept])
@[simp] theorem State.resetRecord_kept (s : State) : (State.resetRecord s).kept = s.kept := by
  unfold State.resetRecord
  repeat' split
  all_goals (try simp [foldl_kept])
  all_goals (repeat' split)
  all_goals (try simp [foldl_kept])
@[simp] theorem State.warmEnd_kept (s : State) : (State.warmEnd s).kept = s.kept := by
  unfold State.warmEnd
  repeat' split
  all_goals (try simp [foldl_kept])
  all_goals (repeat' split)
  all_goals (try simp [foldl_kept])
@[simp] theorem State.faultDrain_kept (s : State) : (State.faultDrain s).kept = s.kept := by
  unfold State.faultDrain
  repeat' split
  all_goals (try simp [foldl_kept])
  all_goals (repeat' split)
  all_goals (try simp [foldl_kept])
@[simp] theorem State.boundary_kept (s : State) (returns : List ReturnEntry) (anns : List AnnEntry) : (State.boundary s returns anns).kept = s.kept := by
  unfold State.boundary
  repeat' split
  all_goals (try simp [foldl_kept])
  all_goals (repeat' split)
  all_goals (try simp [foldl_kept])
@[simp] theorem State.launchStand_kept (s : State) (st : Nat) : (State.launchStand s st).kept = s.kept := by
  unfold State.launchStand
  repeat' split
  all_goals (try simp [foldl_kept])
  all_goals (repeat' split)
  all_goals (try simp [foldl_kept])
@[simp] theorem State.dogReset_kept (s : State) (st : Nat) : (State.dogReset s st).kept = s.kept := by
  unfold State.dogReset
  repeat' split
  all_goals (try simp [foldl_kept])
  all_goals (repeat' split)
  all_goals (try simp [foldl_kept])
@[simp] theorem State.solicit_kept (s : State) (p : Nat) : (State.solicit s p).kept = s.kept := by
  unfold State.solicit
  repeat' split
  all_goals (try simp [foldl_kept])
  all_goals (repeat' split)
  all_goals (try simp [foldl_kept])
@[simp] theorem State.gatewayWritten_kept (s : State) (p : Nat) : (State.gatewayWritten s p).kept = s.kept := by
  unfold State.gatewayWritten
  repeat' split
  all_goals (try simp [foldl_kept])
  all_goals (repeat' split)
  all_goals (try simp [foldl_kept])
@[simp] theorem State.portLocked_kept (s : State) (p m : Nat) : (State.portLocked s p m).kept = s.kept := by
  unfold State.portLocked
  repeat' split
  all_goals (try simp [foldl_kept])
  all_goals (repeat' split)
  all_goals (try simp [foldl_kept])
@[simp] theorem State.restartPath_kept (s : State) (port peer inc : Nat) : (State.restartPath s port peer inc).kept = s.kept := by
  unfold State.restartPath
  repeat' split
  all_goals (try simp [foldl_kept])
  all_goals (repeat' split)
  all_goals (try simp [foldl_kept])
@[simp] theorem State.learnPartner_kept (s : State) (port peer inc : Nat) : (State.learnPartner s port peer inc).kept = s.kept := by
  unfold State.learnPartner
  repeat' split
  all_goals (try simp [foldl_kept])
  all_goals (repeat' split)
  all_goals (try simp [foldl_kept])
@[simp] theorem State.ackPath_kept (s : State) (port peer ack win : Nat) : (State.ackPath s port peer ack win).kept = s.kept := by
  unfold State.ackPath
  repeat' split
  all_goals (try simp [foldl_kept])
  all_goals (repeat' split)
  all_goals (try simp [foldl_kept])
@[simp] theorem State.hello_kept (s : State) (port mac : Nat) (f : Frame) : (State.hello s port mac f).kept = s.kept := by
  unfold State.hello
  repeat' split
  all_goals (try simp [foldl_kept])
  all_goals (repeat' split)
  all_goals (try simp [foldl_kept])
@[simp] theorem State.takeFrame_kept (s : State) (port : Nat) (f : Frame) : (State.takeFrame s port f).kept = s.kept := by
  unfold State.takeFrame
  repeat' split
  all_goals (try simp [foldl_kept])
  all_goals (repeat' split)
  all_goals (try simp [foldl_kept])
@[simp] theorem State.frameIn_kept (s : State) (port peer : Nat) (f : Frame) : (State.frameIn s port peer f).kept = s.kept := by
  unfold State.frameIn
  repeat' split
  all_goals (try simp [foldl_kept])
  all_goals (repeat' split)
  all_goals (try simp [foldl_kept])
@[simp] theorem State.transportIn_kept (s : State) (port peer mac : Nat) (b : List Byte) : (State.transportIn s port peer mac b).kept = s.kept := by
  unfold State.transportIn
  repeat' split
  all_goals (try simp [foldl_kept])
  all_goals (repeat' split)
  all_goals (try simp [foldl_kept])
@[simp] theorem State.neighbourIn_kept (s : State) (port : Nat) (target : List Byte) (answer : Option Nat) : (State.neighbourIn s port target answer).kept = s.kept := by
  unfold State.neighbourIn
  repeat' split
  all_goals (try simp [foldl_kept])
  all_goals (repeat' split)
  all_goals (try simp [foldl_kept])
@[simp] theorem State.ipv6In_kept (s : State) (port mac : Nat) (b : List Byte) : (State.ipv6In s port mac b).kept = s.kept := by
  unfold State.ipv6In
  repeat' split
  all_goals (try simp [foldl_kept])
  all_goals (repeat' split)
  all_goals (try simp [foldl_kept])
@[simp] theorem State.etherIn_kept (s : State) (port : Nat) (e : Ether) : (State.etherIn s port e).kept = s.kept := by
  unfold State.etherIn
  repeat' split
  all_goals (try simp [foldl_kept])
  all_goals (repeat' split)
  all_goals (try simp [foldl_kept])
@[simp] theorem State.resendRound_kept (s : State) (port peer : Nat) : (State.resendRound s port peer).kept = s.kept := by
  unfold State.resendRound
  repeat' split
  all_goals (try simp [foldl_kept])
  all_goals (repeat' split)
  all_goals (try simp [foldl_kept])
@[simp] theorem State.portFails_kept (s : State) (port cause : Nat) : (State.portFails s port cause).kept = s.kept := by
  unfold State.portFails
  repeat' split
  all_goals (try simp [foldl_kept])
  all_goals (repeat' split)
  all_goals (try simp [foldl_kept])
@[simp] theorem State.strip_kept (s : State) (port peer : Nat) : (s.strip port peer).2.kept = s.kept := by simp [State.strip]
@[simp] theorem State.moveFrame_kept (s : State) (port peer : Nat) (f : Frame) : (State.moveFrame s port peer f).kept = s.kept := by
  unfold State.moveFrame
  repeat' split
  all_goals (try simp [foldl_kept])
  all_goals (repeat' split)
  all_goals (try simp [foldl_kept])
@[simp] theorem State.recordFill_kept (s : State) (f : Frame) : (State.recordFill s f).kept = s.kept := by
  unfold State.recordFill
  repeat' split
  all_goals (try simp [foldl_kept])
  all_goals (repeat' split)
  all_goals (try simp [foldl_kept])
@[simp] theorem State.dropDelivering_kept (s : State) (port : Nat) (f : Frame) : (State.dropDelivering s port f).kept = s.kept := by
  unfold State.dropDelivering
  repeat' split
  all_goals (try simp [foldl_kept])
  all_goals (repeat' split)
  all_goals (try simp [foldl_kept])
@[simp] theorem State.deliverRow_kept (s : State) (port : Nat) (f : Frame) (r : Relay) (ds : List Nat) : (State.deliverRow s port f r ds).kept = s.kept := by
  unfold State.deliverRow
  repeat' split
  all_goals (try simp [foldl_kept])
  all_goals (repeat' split)
  all_goals (try simp [foldl_kept])
@[simp] theorem State.deliverTier_kept (s : State) (port : Nat) (f : Frame) (b : Bool) (a : Nat) : (State.deliverTier s port f b a).kept = s.kept := by
  unfold State.deliverTier
  repeat' split
  all_goals (try simp [foldl_kept])
  all_goals (repeat' split)
  all_goals (try simp [foldl_kept])
@[simp] theorem State.deliver_kept (s : State) (port : Nat) (f : Frame) : (State.deliver s port f).kept = s.kept := by
  unfold State.deliver
  repeat' split
  all_goals (try simp [foldl_kept])
  all_goals (repeat' split)
  all_goals (try simp [foldl_kept])
@[simp] theorem State.sendFrag_kept (s : State) (peer epoch st : Nat) (second : Bool) (b : List Byte) (n : Nat) : (State.sendFrag s peer epoch st second b n).kept = s.kept := by
  unfold State.sendFrag
  repeat' split
  all_goals (try simp [foldl_kept])
  all_goals (repeat' split)
  all_goals (try simp [foldl_kept])
@[simp] theorem State.beginSlice_kept (s : State) (st : Nat) (k : MaintKind) : (State.beginSlice s st k).kept = s.kept := by
  unfold State.beginSlice
  repeat' split
  all_goals (try simp [foldl_kept])
  all_goals (repeat' split)
  all_goals (try simp [foldl_kept])
@[simp] theorem State.sliceFails_kept (s : State) (st : Nat) (k : MaintKind) (found : Nat) : (State.sliceFails s st k found).kept = s.kept := by
  unfold State.sliceFails
  repeat' split
  all_goals (try simp [foldl_kept])
  all_goals (repeat' split)
  all_goals (try simp [foldl_kept])
@[simp] theorem State.marginEnds_kept (s : State) : (State.marginEnds s).kept = s.kept := by
  unfold State.marginEnds
  repeat' split
  all_goals (try simp [foldl_kept])
  all_goals (repeat' split)
  all_goals (try simp [foldl_kept])
@[simp] theorem State.sweepStep_kept (s : State) : (State.sweepStep s).kept = s.kept := by
  unfold State.sweepStep
  repeat' split
  all_goals (try simp [foldl_kept])
  all_goals (repeat' split)
  all_goals (try simp [foldl_kept])
@[simp] theorem State.sliceEnds_kept (s : State) (st : Nat) (k : MaintKind) (pass : Bool) (code : Nat) : (State.sliceEnds s st k pass code).kept = s.kept := by
  unfold State.sliceEnds
  repeat' split
  all_goals (try simp [foldl_kept])
  all_goals (repeat' split)
  all_goals (try simp [foldl_kept])
@[simp] theorem State.sliceResult_kept (s : State) (st : Nat) (k : MaintKind) (code : Nat) (pass : Bool) (found : Nat) : (State.sliceResult s st k code pass found).kept = s.kept := by
  unfold State.sliceResult
  repeat' split
  all_goals (try simp [foldl_kept])
  all_goals (repeat' split)
  all_goals (try simp [foldl_kept])
@[simp] theorem State.sliceStep_kept (s : State) (st : Nat) (k : MaintKind) (pass : Bool) (found : Nat) : (State.sliceStep s st k pass found).kept = s.kept := by
  unfold State.sliceStep
  repeat' split
  all_goals (try simp [foldl_kept])
  all_goals (repeat' split)
  all_goals (try simp [foldl_kept])
@[simp] theorem State.trimBank_kept (s : State) (st c : Nat) (failed : Option Nat) (b : Bool) : (State.trimBank s st c failed b).kept = s.kept := by
  unfold State.trimBank
  repeat' split
  all_goals (try simp [foldl_kept])
  all_goals (repeat' split)
  all_goals (try simp [foldl_kept])
@[simp] theorem State.trimStep_kept (s : State) (st c : Nat) (pass : Bool) (found : Nat) : (State.trimStep s st c pass found).kept = s.kept := by
  unfold State.trimStep
  repeat' split
  all_goals (try simp [foldl_kept])
  all_goals (repeat' split)
  all_goals (try simp [foldl_kept])
@[simp] theorem State.maintStep_kept (s : State) (st : Nat) (k : MaintKind) (pass : Bool) (cycles found : Nat) : (State.maintStep s st k pass cycles found).kept = s.kept := by
  unfold State.maintStep
  repeat' split
  all_goals (try simp [foldl_kept])
  all_goals (repeat' split)
  all_goals (try simp [foldl_kept])
@[simp] theorem State.clearingEnds_kept (s : State) (st : Nat) : (State.clearingEnds s st).kept = s.kept := by
  unfold State.clearingEnds
  repeat' split
  all_goals (try simp [foldl_kept])
  all_goals (repeat' split)
  all_goals (try simp [foldl_kept])
@[simp] theorem State.marginStart_kept (s : State) (q : Nat) : (State.marginStart s q).kept = s.kept := by
  unfold State.marginStart
  repeat' split
  all_goals (try simp [foldl_kept])
  all_goals (repeat' split)
  all_goals (try simp [foldl_kept])
@[simp] theorem State.wholeSlice_kept (s : State) (st kind margin : Nat) (k : MaintKind) (block : List Byte) (pass : Bool) : (State.wholeSlice s st kind margin k block pass).kept = s.kept := by
  unfold State.wholeSlice
  repeat' split
  all_goals (try simp [foldl_kept])
  all_goals (repeat' split)
  all_goals (try simp [foldl_kept])
@[simp] theorem State.mailboxDone_kept (s : State) (ret : Nat) (out : List Byte) : (State.mailboxDone s ret out).kept = s.kept := by
  unfold State.mailboxDone
  repeat' split
  all_goals (try simp [foldl_kept])
  all_goals (repeat' split)
  all_goals (try simp [foldl_kept])
@[simp] theorem State.foresterFresh_kept (s : State) : (State.foresterFresh s).kept = s.kept := by
  unfold State.foresterFresh
  repeat' split
  all_goals (try simp [foldl_kept])
  all_goals (repeat' split)
  all_goals (try simp [foldl_kept])
@[simp] theorem State.queueCper_kept (s : State) (n : Nat) (r : ErrRec) : (State.queueCper s n r).kept = s.kept := by
  unfold State.queueCper
  repeat' split
  all_goals (try simp [foldl_kept])
  all_goals (repeat' split)
  all_goals (try simp [foldl_kept])
@[simp] theorem State.setWall_kept (s : State) (v : Nat) : (State.setWall s v).kept = s.kept := by
  unfold State.setWall
  repeat' split
  all_goals (try simp [foldl_kept])
  all_goals (repeat' split)
  all_goals (try simp [foldl_kept])
@[simp] theorem State.modAdc_kept (s : State) (n : Nat) (f : Adc → Adc) : (State.modAdc s n f).kept = s.kept := by
  unfold State.modAdc
  repeat' split
  all_goals (try simp [foldl_kept])
  all_goals (repeat' split)
  all_goals (try simp [foldl_kept])
@[simp] theorem State.modDiode_kept (s : State) (d : Nat) (f : Sensor → Sensor) : (State.modDiode s d f).kept = s.kept := by
  unfold State.modDiode
  repeat' split
  all_goals (try simp [foldl_kept])
  all_goals (repeat' split)
  all_goals (try simp [foldl_kept])
@[simp] theorem State.modTherm_kept (s : State) (n : Nat) (f : Sensor → Sensor) : (State.modTherm s n f).kept = s.kept := by
  unfold State.modTherm
  repeat' split
  all_goals (try simp [foldl_kept])
  all_goals (repeat' split)
  all_goals (try simp [foldl_kept])
@[simp] theorem State.adcResult_kept (s : State) (ch : Nat) (raw : Int) : (State.adcResult s ch raw).kept = s.kept := by
  unfold State.adcResult
  repeat' split
  all_goals (try simp [foldl_kept])
  all_goals (repeat' split)
  all_goals (try simp [foldl_kept])
@[simp] theorem State.noteBelow_kept (s : State) : (State.noteBelow s).kept = s.kept := by
  unfold State.noteBelow
  repeat' split
  all_goals (try simp [foldl_kept])
  all_goals (repeat' split)
  all_goals (try simp [foldl_kept])
@[simp] theorem State.setLevels_kept (s : State) (t p : Nat) : (State.setLevels s t p).kept = s.kept := by
  unfold State.setLevels
  repeat' split
  all_goals (try simp [foldl_kept])
  all_goals (repeat' split)
  all_goals (try simp [foldl_kept])
@[simp] theorem State.rise_kept (s : State) (cause ch : Nat) (reading : Int) : (State.rise s cause ch reading).kept = s.kept := by
  unfold State.rise
  repeat' split
  all_goals (try simp [foldl_kept])
  all_goals (repeat' split)
  all_goals (try simp [foldl_kept])
@[simp] theorem State.stopRecord_kept (s : State) (kind : Nat) : (State.stopRecord s kind).kept = s.kept := by
  unfold State.stopRecord
  repeat' split
  all_goals (try simp [foldl_kept])
  all_goals (repeat' split)
  all_goals (try simp [foldl_kept])
@[simp] theorem State.stopNow_kept (s : State) : (State.stopNow s).kept = s.kept := by
  unfold State.stopNow
  repeat' split
  all_goals (try simp [foldl_kept])
  all_goals (repeat' split)
  all_goals (try simp [foldl_kept])
@[simp] theorem State.stopOrderly_kept (s : State) : (State.stopOrderly s).kept = s.kept := by
  unfold State.stopOrderly
  repeat' split
  all_goals (try simp [foldl_kept])
  all_goals (repeat' split)
  all_goals (try simp [foldl_kept])
@[simp] theorem State.stopDecide_kept (s : State) : (State.stopDecide s).kept = s.kept := by
  unfold State.stopDecide
  repeat' split
  all_goals (try simp [foldl_kept])
  all_goals (repeat' split)
  all_goals (try simp [foldl_kept])
@[simp] theorem State.resumeCheck_kept (s : State) : (State.resumeCheck s).kept = s.kept := by
  unfold State.resumeCheck
  repeat' split
  all_goals (try simp [foldl_kept])
  all_goals (repeat' split)
  all_goals (try simp [foldl_kept])
@[simp] theorem State.thermalLoop_kept (s : State) : (State.thermalLoop s).kept = s.kept := by
  unfold State.thermalLoop
  repeat' split
  all_goals (try simp [foldl_kept])
  all_goals (repeat' split)
  all_goals (try simp [foldl_kept])
@[simp] theorem State.diodeHealth_kept (s : State) : (State.diodeHealth s).kept = s.kept := by
  unfold State.diodeHealth
  repeat' split
  all_goals (try simp [foldl_kept])
  all_goals (repeat' split)
  all_goals (try simp [foldl_kept])
@[simp] theorem State.sensorRecord_kept (s : State) (ch cause : Nat) (reading sub : Int) : (State.sensorRecord s ch cause reading sub).kept = s.kept := by
  unfold State.sensorRecord
  repeat' split
  all_goals (try simp [foldl_kept])
  all_goals (repeat' split)
  all_goals (try simp [foldl_kept])
@[simp] theorem State.diodeFails_kept (s : State) (d cause : Nat) (reading : Int) : (State.diodeFails s d cause reading).kept = s.kept := by
  unfold State.diodeFails
  repeat' split
  all_goals (try simp [foldl_kept])
  all_goals (repeat' split)
  all_goals (try simp [foldl_kept])
@[simp] theorem State.diodeTakes_kept (s : State) (d : Nat) (r : Int) : (State.diodeTakes s d r).kept = s.kept := by
  unfold State.diodeTakes
  repeat' split
  all_goals (try simp [foldl_kept])
  all_goals (repeat' split)
  all_goals (try simp [foldl_kept])
@[simp] theorem State.diodeCheck_kept (s : State) (d : Nat) (c10 r : Int) : (State.diodeCheck s d c10 r).kept = s.kept := by
  unfold State.diodeCheck
  repeat' split
  all_goals (try simp [foldl_kept])
  all_goals (repeat' split)
  all_goals (try simp [foldl_kept])
@[simp] theorem State.applyPower_kept (s : State) (level : Nat) : (State.applyPower s level).kept = s.kept := by
  unfold State.applyPower
  repeat' split
  all_goals (try simp [foldl_kept])
  all_goals (repeat' split)
  all_goals (try simp [foldl_kept])
@[simp] theorem State.calChannel_kept (s : State) (c : Nat × Int × Int) : (State.calChannel s c).kept = s.kept := by
  unfold State.calChannel
  repeat' split
  all_goals (try simp [foldl_kept])
  all_goals (repeat' split)
  all_goals (try simp [foldl_kept])
@[simp] theorem State.queueTrims_kept (s : State) (st : Nat) : (State.queueTrims s st).kept = s.kept := by
  unfold State.queueTrims
  repeat' split
  all_goals (try simp [foldl_kept])
  all_goals (repeat' split)
  all_goals (try simp [foldl_kept])
@[simp] theorem State.quadRun_kept (s : State) (q : Nat) : (State.quadRun s q).kept = s.kept := by
  unfold State.quadRun
  repeat' split
  all_goals (try simp [foldl_kept])
  all_goals (repeat' split)
  all_goals (try simp [foldl_kept])
@[simp] theorem State.calCommand_kept (s : State) (v : Nat) : (State.calCommand s v).kept = s.kept := by
  unfold State.calCommand
  repeat' split
  all_goals (try simp [foldl_kept])
  all_goals (repeat' split)
  all_goals (try simp [foldl_kept])
@[simp] theorem State.modPower_kept (s : State) (f : Power → Power) (h1 : (f s.power).lifecycle = s.power.lifecycle) (h2 : (f s.power).fwFloor = s.power.fwFloor) (h3 : (f s.power).deviceKey = s.power.deviceKey) (h4 : (f s.power).scrapFuse = s.power.scrapFuse) : (State.modPower s f).kept = s.kept := by
  unfold State.modPower
  simp [State.kept, *]
@[simp] theorem State.foresterRecord_kept (s : State) (cls sev : Nat) (detail : List Byte) : (State.foresterRecord s cls sev detail).kept = s.kept := by
  unfold State.foresterRecord
  repeat' split
  all_goals (try simp [foldl_kept])
  all_goals (repeat' split)
  all_goals (try simp [foldl_kept])
@[simp] theorem State.cmdResult_kept (s : State) (op : Option Nat) (code : Nat) : (State.cmdResult s op code).kept = s.kept := by
  unfold State.cmdResult
  repeat' split
  all_goals (try simp [foldl_kept])
  all_goals (repeat' split)
  all_goals (try simp [foldl_kept])
@[simp] theorem State.raiseRing_kept (s : State) (k : Nat) : (State.raiseRing s k).kept = s.kept := by
  unfold State.raiseRing
  repeat' split
  all_goals (try simp [foldl_kept])
  all_goals (repeat' split)
  all_goals (try simp [foldl_kept])
@[simp] theorem State.writeCause_kept (s : State) (code source detail : Nat) : (State.writeCause s code source detail).kept = s.kept := by
  unfold State.writeCause
  repeat' split
  all_goals (try simp [foldl_kept])
  all_goals (repeat' split)
  all_goals (try simp [foldl_kept])
@[simp] theorem State.dropVolatile_kept (s : State) : (State.dropVolatile s).kept = s.kept := by
  unfold State.dropVolatile
  repeat' split
  all_goals (try simp [foldl_kept])
  all_goals (repeat' split)
  all_goals (try simp [foldl_kept])
@[simp] theorem State.restoreLinks_kept (s : State) : (State.restoreLinks s).kept = s.kept := by
  unfold State.restoreLinks
  repeat' split
  all_goals (try simp [foldl_kept])
  all_goals (repeat' split)
  all_goals (try simp [foldl_kept])
@[simp] theorem State.coldParts_kept (s : State) (code : Nat) : (State.coldParts s code).kept = s.kept := by
  have h : (State.coldParts s code).kept = s.restoreLinks.dropVolatile.kept := rfl
  rw [h]; simp
@[simp] theorem State.coldKind_kept (s : State) (code source detail : Nat) : (State.coldKind s code source detail).kept = s.kept := by
  unfold State.coldKind
  repeat' split
  all_goals (try simp [foldl_kept])
  all_goals (repeat' split)
  all_goals (try simp [foldl_kept])
@[simp] theorem State.imageRefused_kept (s : State) (b : List Byte) : (State.imageRefused s b).kept = s.kept := by
  unfold State.imageRefused
  repeat' split
  all_goals (try simp [foldl_kept])
  all_goals (repeat' split)
  all_goals (try simp [foldl_kept])
@[simp] theorem State.startImage_kept (s : State) (k : Nat) : (State.startImage s k).kept = s.kept := by
  unfold State.startImage
  repeat' split
  all_goals (try simp [foldl_kept])
  all_goals (repeat' split)
  all_goals (try simp [foldl_kept])
@[simp] theorem State.bootRom_kept (s : State) : (State.bootRom s).kept = s.kept := by
  unfold State.bootRom
  repeat' split
  all_goals (try simp [foldl_kept])
  all_goals (repeat' split)
  all_goals (try simp [foldl_kept])
@[simp] theorem State.rampDown_kept (s : State) : (State.rampDown s).kept = s.kept := by
  unfold State.rampDown
  generalize (List.range s.power.railStep).reverse = l
  rw [foldl_kept (fun _ _ => by simp)]
  simp
@[simp] theorem State.rampUp_kept (s : State) (n : Nat) : (State.rampUp s n).kept = s.kept := by
  unfold State.rampUp
  repeat' split
  all_goals (try simp [foldl_kept])
  all_goals (repeat' split)
  all_goals (try simp [foldl_kept])
@[simp] theorem State.sequenceFails_kept (s : State) (step ch : Nat) : (State.sequenceFails s step ch).kept = s.kept := by
  unfold State.sequenceFails
  repeat' split
  all_goals (try simp [foldl_kept])
  all_goals (repeat' split)
  all_goals (try simp [foldl_kept])
@[simp] theorem State.setPower_kept (s : State) (n : Nat) : (State.setPower s n).kept = s.kept := by
  unfold State.setPower
  repeat' split
  all_goals (try simp [foldl_kept])
  all_goals (repeat' split)
  all_goals (try simp [foldl_kept])
@[simp] theorem State.setPhase_kept (s : State) (n v : Nat) : (State.setPhase s n v).kept = s.kept := by
  unfold State.setPhase
  repeat' split
  all_goals (try simp [foldl_kept])
  all_goals (repeat' split)
  all_goals (try simp [foldl_kept])
@[simp] theorem State.phaseCheck_kept (s : State) (q : Nat) : (State.phaseCheck s q).kept = s.kept := by
  unfold State.phaseCheck
  repeat' split
  all_goals (try simp [foldl_kept])
  all_goals (repeat' split)
  all_goals (try simp [foldl_kept])
@[simp] theorem State.phaseFails_kept (s : State) (n cause : Nat) : (State.phaseFails s n cause).kept = s.kept := by
  unfold State.phaseFails
  repeat' split
  all_goals (try simp [foldl_kept])
  all_goals (repeat' split)
  all_goals (try simp [foldl_kept])
@[simp] theorem State.powerRise_kept (s : State) (rule mw : Nat) : (State.powerRise s rule mw).kept = s.kept := by
  unfold State.powerRise
  repeat' split
  all_goals (try simp [foldl_kept])
  all_goals (repeat' split)
  all_goals (try simp [foldl_kept])
@[simp] theorem State.powerAbove_kept (s : State) (mw : Nat) : (State.powerAbove s mw).kept = s.kept := by
  unfold State.powerAbove
  repeat' split
  all_goals (try simp [foldl_kept])
  all_goals (repeat' split)
  all_goals (try simp [foldl_kept])
@[simp] theorem State.powerMean_kept (s : State) (mw : Nat) : (State.powerMean s mw).kept = s.kept := by
  unfold State.powerMean
  repeat' split
  all_goals (try simp [foldl_kept])
  all_goals (repeat' split)
  all_goals (try simp [foldl_kept])
@[simp] theorem State.powerFall_kept (s : State) (mw : Nat) : (State.powerFall s mw).kept = s.kept := by
  unfold State.powerFall
  repeat' split
  all_goals (try simp [foldl_kept])
  all_goals (repeat' split)
  all_goals (try simp [foldl_kept])
@[simp] theorem State.addEnergy_kept (s : State) (mw : Nat) : (State.addEnergy s mw).kept = s.kept := by
  unfold State.addEnergy
  repeat' split
  all_goals (try simp [foldl_kept])
  all_goals (repeat' split)
  all_goals (try simp [foldl_kept])
@[simp] theorem State.coldReset_kept (s : State) (source : Nat) : (State.coldReset s source).kept = s.kept := by
  unfold State.coldReset
  repeat' split
  all_goals (try simp [foldl_kept])
  all_goals (repeat' split)
  all_goals (try simp [foldl_kept])
@[simp] theorem State.warmArrays_kept (s : State) : (State.warmArrays s).kept = s.kept := by
  unfold State.warmArrays
  repeat' split
  all_goals (try simp [foldl_kept])
  all_goals (repeat' split)
  all_goals (try simp [foldl_kept])
@[simp] theorem State.warmResults_kept (s : State) : (State.warmResults s).kept = s.kept := by
  unfold State.warmResults
  repeat' split
  all_goals (try simp [foldl_kept])
  all_goals (repeat' split)
  all_goals (try simp [foldl_kept])
@[simp] theorem State.warmEngines_kept (s : State) : (State.warmEngines s).kept = s.kept := by
  unfold State.warmEngines
  repeat' split
  all_goals (try simp [foldl_kept])
  all_goals (repeat' split)
  all_goals (try simp [foldl_kept])
@[simp] theorem State.warmParts_kept (s : State) : (State.warmParts s).kept = s.kept := by
  unfold State.warmParts
  simp [foldl_kept]
@[simp] theorem State.warmReset_kept (s : State) (source : Nat) : (State.warmReset s source).kept = s.kept := by
  simp [State.warmReset]
@[simp] theorem State.warmRequest_kept (s : State) (source : Nat) : (State.warmRequest s source).kept = s.kept := by
  unfold State.warmRequest
  repeat' split
  all_goals (try simp [foldl_kept])
  all_goals (repeat' split)
  all_goals (try simp [foldl_kept])
@[simp] theorem State.cxlReset_kept (s : State) : (State.cxlReset s).kept = s.kept := by
  unfold State.cxlReset
  repeat' split
  all_goals (try simp [foldl_kept])
  all_goals (repeat' split)
  all_goals (try simp [foldl_kept])
@[simp] theorem State.unitReset_kept (s : State) (node : Nat) : (State.unitReset s node).kept = s.kept := by
  unfold State.unitReset
  repeat' split
  all_goals (try simp [foldl_kept])
  all_goals (repeat' split)
  all_goals (try simp [foldl_kept])
@[simp] theorem State.unitResetCmd_kept (s : State) (node : Nat) : (State.unitResetCmd s node).kept = s.kept := by
  unfold State.unitResetCmd
  repeat' split
  all_goals (try simp [foldl_kept])
  all_goals (repeat' split)
  all_goals (try simp [foldl_kept])
@[simp] theorem State.thermFails_kept (s : State) (n cause : Nat) (reading : Int) : (State.thermFails s n cause reading).kept = s.kept := by
  unfold State.thermFails
  repeat' split
  all_goals (try simp [foldl_kept])
  all_goals (repeat' split)
  all_goals (try simp [foldl_kept])
@[simp] theorem State.dropShadows_kept (s : State) : (State.dropShadows s).kept = s.kept := by
  unfold State.dropShadows
  repeat' split
  all_goals (try simp [foldl_kept])
  all_goals (repeat' split)
  all_goals (try simp [foldl_kept])
@[simp] theorem State.bootRepair_kept (s : State) (f : BitVec 16 × Byte × Byte) : (State.bootRepair s f).kept = s.kept := by
  unfold State.bootRepair
  repeat' split
  all_goals (try simp [foldl_kept])
  all_goals (repeat' split)
  all_goals (try simp [foldl_kept])
@[simp] theorem State.bootFails_kept (s : State) (fs : List (BitVec 16 × Byte × Byte)) : (State.bootFails s fs).kept = s.kept := by
  unfold State.bootFails
  repeat' split
  all_goals (try simp [foldl_kept])
  all_goals (repeat' split)
  all_goals (try simp [foldl_kept])
@[simp] theorem State.bootCalibration_kept (s : State) : (State.bootCalibration s).kept = s.kept := by
  unfold State.bootCalibration
  repeat' split
  all_goals (try simp [foldl_kept])
  all_goals (repeat' split)
  all_goals (try simp [foldl_kept])
@[simp] theorem State.bootWeights_kept (s : State) : (State.bootWeights s).kept = s.kept := by
  unfold State.bootWeights
  repeat' split
  all_goals (try simp [foldl_kept])
  all_goals (repeat' split)
  all_goals (try simp [foldl_kept])
@[simp] theorem State.bootDone_kept (s : State) : (State.bootDone s).kept = s.kept := by
  unfold State.bootDone
  repeat' split
  all_goals (try simp [foldl_kept])
  all_goals (repeat' split)
  all_goals (try simp [foldl_kept])
@[simp] theorem State.bootBinary_kept (s : State) : (State.bootBinary s).kept = s.kept := by
  unfold State.bootBinary
  repeat' split
  all_goals (try simp [foldl_kept])
  all_goals (repeat' split)
  all_goals (try simp [foldl_kept])
@[simp] theorem State.ownerKey_kept (s : State) (b : List Byte) : (State.ownerKey s b).kept = s.kept := by
  unfold State.ownerKey
  repeat' split
  all_goals (try simp [foldl_kept])
  all_goals (repeat' split)
  all_goals (try simp [foldl_kept])
@[simp] theorem State.eraseAll_kept (s : State) : (State.eraseAll s).kept = s.kept := by
  unfold State.eraseAll
  repeat' split
  all_goals (try simp [foldl_kept])
  all_goals (repeat' split)
  all_goals (try simp [foldl_kept])
@[simp] theorem State.lifecycleRefused_kept (s : State) (target code : Nat) : (State.lifecycleRefused s target code).kept = s.kept := by
  unfold State.lifecycleRefused
  repeat' split
  all_goals (try simp [foldl_kept])
  all_goals (repeat' split)
  all_goals (try simp [foldl_kept])
@[simp] theorem State.spdmSay_kept (s : State) (p : MPath) (m : List Byte) : (State.spdmSay s p m).kept = s.kept := by
  unfold State.spdmSay
  repeat' split
  all_goals (try simp [foldl_kept])
  all_goals (repeat' split)
  all_goals (try simp [foldl_kept])
@[simp] theorem State.spdmFail_kept (s : State) (p : MPath) (code data : Nat) : (State.spdmFail s p code data).kept = s.kept := by
  unfold State.spdmFail
  repeat' split
  all_goals (try simp [foldl_kept])
  all_goals (repeat' split)
  all_goals (try simp [foldl_kept])
@[simp] theorem State.freshBytes_kept (s : State) (n : Nat) : (s.freshBytes n).2.kept = s.kept := rfl
@[simp] theorem State.spdmSign_kept (s : State) (c t : List Byte) : (s.spdmSign c t).2.kept = s.kept := rfl
@[simp] theorem State.spdmVersion_kept (s : State) (p : MPath) (req : List Byte) : (State.spdmVersion s p req).kept = s.kept := by
  unfold State.spdmVersion
  repeat' split
  all_goals (try simp [foldl_kept])
  all_goals (repeat' split)
  all_goals (try simp [foldl_kept])
@[simp] theorem State.spdmCaps_kept (s : State) (p : MPath) (req : List Byte) : (State.spdmCaps s p req).kept = s.kept := by
  unfold State.spdmCaps
  repeat' split
  all_goals (try simp [foldl_kept])
  all_goals (repeat' split)
  all_goals (try simp [foldl_kept])
@[simp] theorem State.spdmAlgs_kept (s : State) (p : MPath) (req : List Byte) : (State.spdmAlgs s p req).kept = s.kept := by
  unfold State.spdmAlgs
  repeat' split
  all_goals (try simp [foldl_kept])
  all_goals (repeat' split)
  all_goals (try simp [foldl_kept])
@[simp] theorem State.spdmDigests_kept (s : State) (p : MPath) (req : List Byte) : (State.spdmDigests s p req).kept = s.kept := by
  unfold State.spdmDigests
  repeat' split
  all_goals (try simp [foldl_kept])
  all_goals (repeat' split)
  all_goals (try simp [foldl_kept])
@[simp] theorem State.spdmCertificate_kept (s : State) (p : MPath) (req : List Byte) : (State.spdmCertificate s p req).kept = s.kept := by
  unfold State.spdmCertificate
  repeat' split
  all_goals (try simp [foldl_kept])
  all_goals (repeat' split)
  all_goals (try simp [foldl_kept])
@[simp] theorem State.spdmChallenge_kept (s : State) (p : MPath) (req : List Byte) : (State.spdmChallenge s p req).kept = s.kept := by
  unfold State.spdmChallenge
  repeat' split
  all_goals (try simp [foldl_kept])
  all_goals (repeat' split)
  all_goals (try simp [foldl_kept])
@[simp] theorem State.spdmMeasure_kept (s : State) (p : MPath) (req : List Byte) : (State.spdmMeasure s p req).kept = s.kept := by
  unfold State.spdmMeasure
  repeat' split
  all_goals (try simp [foldl_kept])
  all_goals (repeat' split)
  all_goals (try simp [foldl_kept])
@[simp] theorem State.spdmRequest_kept (s : State) (p : MPath) (req : List Byte) : (State.spdmRequest s p req).kept = s.kept := by
  unfold State.spdmRequest
  repeat' split
  all_goals (try simp [foldl_kept])
  all_goals (repeat' split)
  all_goals (try simp [foldl_kept])
@[simp] theorem State.dropStaged_kept (s : State) (p : MPath) (m : List Byte) : (State.dropStaged s p m).kept = s.kept := by
  unfold State.dropStaged
  repeat' split
  all_goals (try simp [foldl_kept])
  all_goals (repeat' split)
  all_goals (try simp [foldl_kept])
@[simp] theorem State.putStaged_kept (s : State) (p : MPath) (m : List Byte) : (State.putStaged s p m).kept = s.kept := by
  unfold State.putStaged
  repeat' split
  all_goals (try simp [foldl_kept])
  all_goals (repeat' split)
  all_goals (try simp [foldl_kept])
@[simp] theorem State.sliceCmd_kept (s : State) (v : List Byte) : (State.sliceCmd s v).kept = s.kept := by
  unfold State.sliceCmd
  repeat' split
  all_goals (try simp [foldl_kept])
  all_goals (repeat' split)
  all_goals (try simp [foldl_kept])
@[simp] theorem State.modStat_kept (s : State) (f : ArbStat → ArbStat) : (State.modStat s f).kept = s.kept := by
  unfold State.modStat
  repeat' split
  all_goals (try simp [foldl_kept])
  all_goals (repeat' split)
  all_goals (try simp [foldl_kept])
@[simp] theorem State.answer_kept (s : State) (q : QueuedReq) (ans : List Byte) : (State.answer s q ans).kept = s.kept := by
  unfold State.answer
  repeat' split
  all_goals (try simp [foldl_kept])
  all_goals (repeat' split)
  all_goals (try simp [foldl_kept])
@[simp] theorem State.hostWrite_kept (s : State) (offset : Nat) (d : List Byte) : (State.hostWrite s offset d).kept = s.kept := by
  unfold State.hostWrite
  repeat' split
  all_goals (try simp [foldl_kept])
  all_goals (repeat' split)
  all_goals (try simp [foldl_kept])
@[simp] theorem State.hostRead_kept (s : State) (offset n : Nat) : (State.hostRead s offset n).kept = s.kept := by
  unfold State.hostRead
  repeat' split
  all_goals (try simp [foldl_kept])
  all_goals (repeat' split)
  all_goals (try simp [foldl_kept])
@[simp] theorem State.onMailbox_kept (s : State) (f : State → State) (h_ : ∀ s, (f s).kept = s.kept) : (State.onMailbox s f).kept = s.kept := by
  unfold State.onMailbox
  repeat' split
  all_goals (try simp [foldl_kept, *])
  all_goals (repeat' split)
  all_goals (try simp [foldl_kept, *])
@[simp] theorem State.onI3c_kept (s : State) (f : State → State) (h_ : ∀ s, (f s).kept = s.kept) : (State.onI3c s f).kept = s.kept := by
  unfold State.onI3c
  repeat' split
  all_goals (try simp [foldl_kept, *])
  all_goals (repeat' split)
  all_goals (try simp [foldl_kept, *])
@[simp] theorem State.spdmDatagram_kept (s : State) (port : Nat) (src : List Byte) (srcPort : Nat) (req : List Byte) : (State.spdmDatagram s port src srcPort req).kept = s.kept := by
  unfold State.spdmDatagram
  repeat' split
  all_goals (try simp [foldl_kept])
  all_goals (repeat' split)
  all_goals (try simp [foldl_kept])

end Sys2Proof.Machine
end

