-- ==== Sys2Proof/Laws/Tab.lean ====
section
/-! SUPPORT. Laws of the sparse table: reading after writing, and the canonical form that every operation keeps. -/

namespace Sys2Proof

variable {α : Type}

@[simp] theorem Tab.get_nil (d : α) (n : Nat) : Tab.get d [] n = d := rfl

theorem Tab.get_put_eq (d : α) (t : Tab α) (n : Nat) (w : α) : Tab.get d (Tab.put t n w) n = w := by
  induction t with
  | nil => simp [Tab.put, Tab.get]
  | cons e t ih =>
    obtain ⟨k, v⟩ := e
    simp only [Tab.put]
    split
    · simp [Tab.get]
    · split
      · simp [Tab.get]
      · rename_i h
        simp [Tab.get, Ne.symm h, ih]

theorem Tab.get_put_ne (d : α) (t : Tab α) {n m : Nat} (w : α) (h : m ≠ n) :
    Tab.get d (Tab.put t n w) m = Tab.get d t m := by
  induction t with
  | nil => simp [Tab.put, Tab.get, Ne.symm h]
  | cons e t ih =>
    obtain ⟨k, v⟩ := e
    simp only [Tab.put]
    split
    · simp [Tab.get, Ne.symm h]
    · split
      · rename_i hk
        subst hk
        simp [Tab.get, Ne.symm h]
      · simp [Tab.get, ih]

theorem Tab.get_filter_pos (d : α) (t : Tab α) {n : Nat} {p : Nat → Bool} (h : p n = true) :
    Tab.get d (t.filter fun e => p e.1) n = Tab.get d t n := by
  induction t with
  | nil => rfl
  | cons e t ih =>
    obtain ⟨k, v⟩ := e
    by_cases hk : k = n
    · subst hk
      simp [h, Tab.get]
    · by_cases hp : p k = true
      · simp [hp, Tab.get, hk, ih]
      · simp [hp, Tab.get, hk, ih]

theorem Tab.get_filter_neg (d : α) (t : Tab α) {n : Nat} {p : Nat → Bool} (h : p n = false) :
    Tab.get d (t.filter fun e => p e.1) n = d := by
  induction t with
  | nil => rfl
  | cons e t ih =>
    obtain ⟨k, v⟩ := e
    by_cases hk : k = n
    · subst hk
      simp [h, ih]
    · by_cases hp : p k = true
      · simp [hp, Tab.get, hk, ih]
      · simp [hp, ih]

/-- Reading the key just written. -/
@[simp] theorem Tab.get_set_eq [DecidableEq α] (d : α) (t : Tab α) (n : Nat) (w : α) :
    Tab.get d (Tab.set d t n w) n = w := by
  unfold Tab.set
  split
  · rename_i h
    rw [Tab.get_filter_neg (p := fun k => decide (k ≠ n)) d t (by simp), h]
  · exact Tab.get_put_eq d t n w

/-- Reading any other key. -/
theorem Tab.get_set_ne [DecidableEq α] (d : α) (t : Tab α) {n m : Nat} (w : α) (h : m ≠ n) :
    Tab.get d (Tab.set d t n w) m = Tab.get d t m := by
  unfold Tab.set
  split
  · exact Tab.get_filter_pos (p := fun k => decide (k ≠ n)) d t (by simpa using h)
  · exact Tab.get_put_ne d t w h

/-- Reading after a write, whatever the key. -/
theorem Tab.get_set [DecidableEq α] (d : α) (t : Tab α) (n m : Nat) (w : α) :
    Tab.get d (Tab.set d t n w) m = if m = n then w else Tab.get d t m := by
  split
  · subst_vars; exact Tab.get_set_eq d t _ w
  · rename_i h; exact Tab.get_set_ne d t w h

/-- Reading after a run of writes, outside the run. -/
theorem Tab.get_setRun_out [DecidableEq α] (d : α) (ws : List α) :
    ∀ (t : Tab α) (k m : Nat), (m < k ∨ k + ws.length ≤ m) → Tab.get d (Tab.setRun d t k ws) m = Tab.get d t m := by
  induction ws with
  | nil => intro t k m _; rfl
  | cons w ws ih =>
    intro t k m h
    have hm : m ≠ k := by
      rintro rfl
      rcases h with h | h
      · omega
      · simp at h
    have h2 : m < k + 1 ∨ k + 1 + ws.length ≤ m := by
      rcases h with h | h
      · left; omega
      · right; simp only [List.length_cons] at h; omega
    simp only [Tab.setRun]
    rw [ih _ (k + 1) m h2, Tab.get_set_ne d t w hm]

/-- Reading after a run of writes, inside the run. -/
theorem Tab.get_setRun_in [DecidableEq α] (d : α) (ws : List α) :
    ∀ (t : Tab α) (k i : Nat), i < ws.length → Tab.get d (Tab.setRun d t k ws) (k + i) = ws.getD i d := by
  induction ws with
  | nil => intro t k i h; simp at h
  | cons w ws ih =>
    intro t k i h
    simp only [Tab.setRun]
    cases i with
    | zero =>
      rw [Tab.get_setRun_out d ws _ (k + 1) (k + 0) (Or.inl (by omega))]
      simp
    | succ i =>
      have := ih (Tab.set d t k w) (k + 1) i (by simpa using h)
      rw [show k + 1 + i = k + (i + 1) by omega] at this
      simpa using this

/-- Keys dropped read as the default, the others as before. -/
theorem Tab.get_clear (d : α) (t : Tab α) (p : Nat → Bool) (n : Nat) :
    Tab.get d (Tab.clear t p) n = if p n then d else Tab.get d t n := by
  unfold Tab.clear
  split
  · rename_i h
    exact Tab.get_filter_neg (p := fun k => !p k) d t (by simp [h])
  · rename_i h
    exact Tab.get_filter_pos (p := fun k => !p k) d t (by simpa using h)

/-! ## The canonical form -/

theorem Tab.wfFrom_mono [DecidableEq α] (d : α) {a b : Nat} (t : Tab α) (h : a ≤ b) (hw : Tab.wfFrom d b t = true) :
    Tab.wfFrom d a t = true := by
  cases t with
  | nil => rfl
  | cons e t =>
    obtain ⟨k, v⟩ := e
    simp only [Tab.wfFrom, Bool.and_eq_true, decide_eq_true_eq] at hw ⊢
    exact ⟨⟨by omega, hw.1.2⟩, hw.2⟩

theorem Tab.wfFrom_filter [DecidableEq α] (d : α) (p : Nat × α → Bool) (t : Tab α) :
    ∀ a, Tab.wfFrom d a t = true → Tab.wfFrom d a (t.filter p) = true := by
  induction t with
  | nil => intro a h; exact h
  | cons e t ih =>
    intro a h
    obtain ⟨k, v⟩ := e
    simp only [Tab.wfFrom, Bool.and_eq_true, decide_eq_true_eq] at h
    by_cases hp : p (k, v) = true
    · simp only [List.filter_cons, hp, if_true, Tab.wfFrom, Bool.and_eq_true, decide_eq_true_eq]
      exact ⟨h.1, ih _ h.2⟩
    · simp only [List.filter_cons, hp]
      exact Tab.wfFrom_mono d _ (by omega) (ih _ h.2)

theorem Tab.wfFrom_put [DecidableEq α] (d : α) {w : α} (hw : w ≠ d) (n : Nat) (t : Tab α) :
    ∀ a, a ≤ n → Tab.wfFrom d a t = true → Tab.wfFrom d a (Tab.put t n w) = true := by
  induction t with
  | nil => intro a ha _; simp [Tab.put, Tab.wfFrom, ha, hw]
  | cons e t ih =>
    intro a ha h
    obtain ⟨k, v⟩ := e
    simp only [Tab.wfFrom, Bool.and_eq_true, decide_eq_true_eq] at h
    simp only [Tab.put]
    split
    · rename_i hk
      simp only [Tab.wfFrom, Bool.and_eq_true, decide_eq_true_eq]
      exact ⟨⟨ha, hw⟩, ⟨⟨by omega, h.1.2⟩, h.2⟩⟩
    · split
      · rename_i hk
        subst hk
        simp only [Tab.wfFrom, Bool.and_eq_true, decide_eq_true_eq]
        exact ⟨⟨ha, hw⟩, h.2⟩
      · simp only [Tab.wfFrom, Bool.and_eq_true, decide_eq_true_eq]
        exact ⟨h.1, ih _ (by omega) h.2⟩

/-- A write keeps the canonical form. -/
theorem Tab.wf_set [DecidableEq α] (d : α) (t : Tab α) (n : Nat) (w : α) (h : Tab.wf d t = true) :
    Tab.wf d (Tab.set d t n w) = true := by
  unfold Tab.set
  split
  · exact Tab.wfFrom_filter d _ t 0 h
  · rename_i hw
    exact Tab.wfFrom_put d hw n t 0 (Nat.zero_le _) h

/-- A run of writes keeps the canonical form. -/
theorem Tab.wf_setRun [DecidableEq α] (d : α) (ws : List α) :
    ∀ (t : Tab α) (k : Nat), Tab.wf d t = true → Tab.wf d (Tab.setRun d t k ws) = true := by
  induction ws with
  | nil => intro t k h; exact h
  | cons w ws ih => intro t k h; exact ih _ _ (Tab.wf_set d t k w h)

/-- Dropping keys keeps the canonical form. -/
theorem Tab.wf_clear [DecidableEq α] (d : α) (t : Tab α) (p : Nat → Bool) (h : Tab.wf d t = true) :
    Tab.wf d (Tab.clear t p) = true := Tab.wfFrom_filter d _ t 0 h

end Sys2Proof
end

