-- ==== Sys2Proof/Laws/State.lean ====
section
/-! SUPPORT. Every update of one part of the state leaves every other part alone, and what an accessor reads after its update. -/

namespace Sys2Proof.Machine

@[simp] theorem State.setStand_pending (s : State) (st : Nat) (v : Stand) : (s.setStand st v).pending = s.pending := rfl
@[simp] theorem State.setStand_outbox (s : State) (st : Nat) (v : Stand) : (s.setStand st v).outbox = s.outbox := rfl
@[simp] theorem State.setStand_freeCtr (s : State) (st : Nat) (v : Stand) : (s.setStand st v).freeCtr = s.freeCtr := rfl
@[simp] theorem State.setStand_settings (s : State) (st : Nat) (v : Stand) : (s.setStand st v).settings = s.settings := rfl
@[simp] theorem State.setStand_octets (s : State) (st : Nat) (v : Stand) : (s.setStand st v).octets = s.octets := rfl
@[simp] theorem State.setStand_counters (s : State) (st : Nat) (v : Stand) : (s.setStand st v).counters = s.counters := rfl
@[simp] theorem State.setStand_time (s : State) (st : Nat) (v : Stand) : (s.setStand st v).time = s.time := rfl
@[simp] theorem State.setStand_cores (s : State) (st : Nat) (v : Stand) : (s.setStand st v).cores = s.cores := rfl
@[simp] theorem State.setStand_nodes (s : State) (st : Nat) (v : Stand) : (s.setStand st v).nodes = s.nodes := rfl
@[simp] theorem State.setStand_mesh (s : State) (st : Nat) (v : Stand) : (s.setStand st v).mesh = s.mesh := rfl
@[simp] theorem State.setStand_routers (s : State) (st : Nat) (v : Stand) : (s.setStand st v).routers = s.routers := rfl
@[simp] theorem State.setStand_links (s : State) (st : Nat) (v : Stand) : (s.setStand st v).links = s.links := rfl
@[simp] theorem State.setStand_seams (s : State) (st : Nat) (v : Stand) : (s.setStand st v).seams = s.seams := rfl
@[simp] theorem State.setStand_phases (s : State) (st : Nat) (v : Stand) : (s.setStand st v).phases = s.phases := rfl
@[simp] theorem State.setStand_serving (s : State) (st : Nat) (v : Stand) : (s.setStand st v).serving = s.serving := rfl
@[simp] theorem State.setStand_weights (s : State) (st : Nat) (v : Stand) : (s.setStand st v).weights = s.weights := rfl
@[simp] theorem State.setStand_binary (s : State) (st : Nat) (v : Stand) : (s.setStand st v).binary = s.binary := rfl
@[simp] theorem State.setStand_mem (s : State) (st : Nat) (v : Stand) : (s.setStand st v).mem = s.mem := rfl
@[simp] theorem State.setStand_grove (s : State) (st : Nat) (v : Stand) : (s.setStand st v).grove = s.grove := rfl
@[simp] theorem State.setStand_rel (s : State) (st : Nat) (v : Stand) : (s.setStand st v).rel = s.rel := rfl
@[simp] theorem State.setStand_sense (s : State) (st : Nat) (v : Stand) : (s.setStand st v).sense = s.sense := rfl
@[simp] theorem State.setStand_power (s : State) (st : Nat) (v : Stand) : (s.setStand st v).power = s.power := rfl
@[simp] theorem State.setStand_host (s : State) (st : Nat) (v : Stand) : (s.setStand st v).host = s.host := rfl

@[simp] theorem State.modStand_pending (s : State) (st : Nat) (f : Stand → Stand) : (s.modStand st f).pending = s.pending := rfl
@[simp] theorem State.modStand_outbox (s : State) (st : Nat) (f : Stand → Stand) : (s.modStand st f).outbox = s.outbox := rfl
@[simp] theorem State.modStand_freeCtr (s : State) (st : Nat) (f : Stand → Stand) : (s.modStand st f).freeCtr = s.freeCtr := rfl
@[simp] theorem State.modStand_settings (s : State) (st : Nat) (f : Stand → Stand) : (s.modStand st f).settings = s.settings := rfl
@[simp] theorem State.modStand_octets (s : State) (st : Nat) (f : Stand → Stand) : (s.modStand st f).octets = s.octets := rfl
@[simp] theorem State.modStand_counters (s : State) (st : Nat) (f : Stand → Stand) : (s.modStand st f).counters = s.counters := rfl
@[simp] theorem State.modStand_time (s : State) (st : Nat) (f : Stand → Stand) : (s.modStand st f).time = s.time := rfl
@[simp] theorem State.modStand_cores (s : State) (st : Nat) (f : Stand → Stand) : (s.modStand st f).cores = s.cores := rfl
@[simp] theorem State.modStand_nodes (s : State) (st : Nat) (f : Stand → Stand) : (s.modStand st f).nodes = s.nodes := rfl
@[simp] theorem State.modStand_mesh (s : State) (st : Nat) (f : Stand → Stand) : (s.modStand st f).mesh = s.mesh := rfl
@[simp] theorem State.modStand_routers (s : State) (st : Nat) (f : Stand → Stand) : (s.modStand st f).routers = s.routers := rfl
@[simp] theorem State.modStand_links (s : State) (st : Nat) (f : Stand → Stand) : (s.modStand st f).links = s.links := rfl
@[simp] theorem State.modStand_seams (s : State) (st : Nat) (f : Stand → Stand) : (s.modStand st f).seams = s.seams := rfl
@[simp] theorem State.modStand_phases (s : State) (st : Nat) (f : Stand → Stand) : (s.modStand st f).phases = s.phases := rfl
@[simp] theorem State.modStand_serving (s : State) (st : Nat) (f : Stand → Stand) : (s.modStand st f).serving = s.serving := rfl
@[simp] theorem State.modStand_weights (s : State) (st : Nat) (f : Stand → Stand) : (s.modStand st f).weights = s.weights := rfl
@[simp] theorem State.modStand_binary (s : State) (st : Nat) (f : Stand → Stand) : (s.modStand st f).binary = s.binary := rfl
@[simp] theorem State.modStand_mem (s : State) (st : Nat) (f : Stand → Stand) : (s.modStand st f).mem = s.mem := rfl
@[simp] theorem State.modStand_grove (s : State) (st : Nat) (f : Stand → Stand) : (s.modStand st f).grove = s.grove := rfl
@[simp] theorem State.modStand_rel (s : State) (st : Nat) (f : Stand → Stand) : (s.modStand st f).rel = s.rel := rfl
@[simp] theorem State.modStand_sense (s : State) (st : Nat) (f : Stand → Stand) : (s.modStand st f).sense = s.sense := rfl
@[simp] theorem State.modStand_power (s : State) (st : Nat) (f : Stand → Stand) : (s.modStand st f).power = s.power := rfl
@[simp] theorem State.modStand_host (s : State) (st : Nat) (f : Stand → Stand) : (s.modStand st f).host = s.host := rfl

@[simp] theorem State.modCore_pending (s : State) (st c : Nat) (f : Core → Core) : (s.modCore st c f).pending = s.pending := rfl
@[simp] theorem State.modCore_outbox (s : State) (st c : Nat) (f : Core → Core) : (s.modCore st c f).outbox = s.outbox := rfl
@[simp] theorem State.modCore_freeCtr (s : State) (st c : Nat) (f : Core → Core) : (s.modCore st c f).freeCtr = s.freeCtr := rfl
@[simp] theorem State.modCore_settings (s : State) (st c : Nat) (f : Core → Core) : (s.modCore st c f).settings = s.settings := rfl
@[simp] theorem State.modCore_octets (s : State) (st c : Nat) (f : Core → Core) : (s.modCore st c f).octets = s.octets := rfl
@[simp] theorem State.modCore_counters (s : State) (st c : Nat) (f : Core → Core) : (s.modCore st c f).counters = s.counters := rfl
@[simp] theorem State.modCore_time (s : State) (st c : Nat) (f : Core → Core) : (s.modCore st c f).time = s.time := rfl
@[simp] theorem State.modCore_stands (s : State) (st c : Nat) (f : Core → Core) : (s.modCore st c f).stands = s.stands := rfl
@[simp] theorem State.modCore_nodes (s : State) (st c : Nat) (f : Core → Core) : (s.modCore st c f).nodes = s.nodes := rfl
@[simp] theorem State.modCore_mesh (s : State) (st c : Nat) (f : Core → Core) : (s.modCore st c f).mesh = s.mesh := rfl
@[simp] theorem State.modCore_routers (s : State) (st c : Nat) (f : Core → Core) : (s.modCore st c f).routers = s.routers := rfl
@[simp] theorem State.modCore_links (s : State) (st c : Nat) (f : Core → Core) : (s.modCore st c f).links = s.links := rfl
@[simp] theorem State.modCore_seams (s : State) (st c : Nat) (f : Core → Core) : (s.modCore st c f).seams = s.seams := rfl
@[simp] theorem State.modCore_phases (s : State) (st c : Nat) (f : Core → Core) : (s.modCore st c f).phases = s.phases := rfl
@[simp] theorem State.modCore_serving (s : State) (st c : Nat) (f : Core → Core) : (s.modCore st c f).serving = s.serving := rfl
@[simp] theorem State.modCore_weights (s : State) (st c : Nat) (f : Core → Core) : (s.modCore st c f).weights = s.weights := rfl
@[simp] theorem State.modCore_binary (s : State) (st c : Nat) (f : Core → Core) : (s.modCore st c f).binary = s.binary := rfl
@[simp] theorem State.modCore_mem (s : State) (st c : Nat) (f : Core → Core) : (s.modCore st c f).mem = s.mem := rfl
@[simp] theorem State.modCore_grove (s : State) (st c : Nat) (f : Core → Core) : (s.modCore st c f).grove = s.grove := rfl
@[simp] theorem State.modCore_rel (s : State) (st c : Nat) (f : Core → Core) : (s.modCore st c f).rel = s.rel := rfl
@[simp] theorem State.modCore_sense (s : State) (st c : Nat) (f : Core → Core) : (s.modCore st c f).sense = s.sense := rfl
@[simp] theorem State.modCore_power (s : State) (st c : Nat) (f : Core → Core) : (s.modCore st c f).power = s.power := rfl
@[simp] theorem State.modCore_host (s : State) (st c : Nat) (f : Core → Core) : (s.modCore st c f).host = s.host := rfl

@[simp] theorem State.modNode_pending (s : State) (n : Nat) (f : NodeInfo → NodeInfo) : (s.modNode n f).pending = s.pending := rfl
@[simp] theorem State.modNode_outbox (s : State) (n : Nat) (f : NodeInfo → NodeInfo) : (s.modNode n f).outbox = s.outbox := rfl
@[simp] theorem State.modNode_freeCtr (s : State) (n : Nat) (f : NodeInfo → NodeInfo) : (s.modNode n f).freeCtr = s.freeCtr := rfl
@[simp] theorem State.modNode_settings (s : State) (n : Nat) (f : NodeInfo → NodeInfo) : (s.modNode n f).settings = s.settings := rfl
@[simp] theorem State.modNode_octets (s : State) (n : Nat) (f : NodeInfo → NodeInfo) : (s.modNode n f).octets = s.octets := rfl
@[simp] theorem State.modNode_counters (s : State) (n : Nat) (f : NodeInfo → NodeInfo) : (s.modNode n f).counters = s.counters := rfl
@[simp] theorem State.modNode_time (s : State) (n : Nat) (f : NodeInfo → NodeInfo) : (s.modNode n f).time = s.time := rfl
@[simp] theorem State.modNode_cores (s : State) (n : Nat) (f : NodeInfo → NodeInfo) : (s.modNode n f).cores = s.cores := rfl
@[simp] theorem State.modNode_stands (s : State) (n : Nat) (f : NodeInfo → NodeInfo) : (s.modNode n f).stands = s.stands := rfl
@[simp] theorem State.modNode_mesh (s : State) (n : Nat) (f : NodeInfo → NodeInfo) : (s.modNode n f).mesh = s.mesh := rfl
@[simp] theorem State.modNode_routers (s : State) (n : Nat) (f : NodeInfo → NodeInfo) : (s.modNode n f).routers = s.routers := rfl
@[simp] theorem State.modNode_links (s : State) (n : Nat) (f : NodeInfo → NodeInfo) : (s.modNode n f).links = s.links := rfl
@[simp] theorem State.modNode_seams (s : State) (n : Nat) (f : NodeInfo → NodeInfo) : (s.modNode n f).seams = s.seams := rfl
@[simp] theorem State.modNode_phases (s : State) (n : Nat) (f : NodeInfo → NodeInfo) : (s.modNode n f).phases = s.phases := rfl
@[simp] theorem State.modNode_serving (s : State) (n : Nat) (f : NodeInfo → NodeInfo) : (s.modNode n f).serving = s.serving := rfl
@[simp] theorem State.modNode_weights (s : State) (n : Nat) (f : NodeInfo → NodeInfo) : (s.modNode n f).weights = s.weights := rfl
@[simp] theorem State.modNode_binary (s : State) (n : Nat) (f : NodeInfo → NodeInfo) : (s.modNode n f).binary = s.binary := rfl
@[simp] theorem State.modNode_mem (s : State) (n : Nat) (f : NodeInfo → NodeInfo) : (s.modNode n f).mem = s.mem := rfl
@[simp] theorem State.modNode_grove (s : State) (n : Nat) (f : NodeInfo → NodeInfo) : (s.modNode n f).grove = s.grove := rfl
@[simp] theorem State.modNode_rel (s : State) (n : Nat) (f : NodeInfo → NodeInfo) : (s.modNode n f).rel = s.rel := rfl
@[simp] theorem State.modNode_sense (s : State) (n : Nat) (f : NodeInfo → NodeInfo) : (s.modNode n f).sense = s.sense := rfl
@[simp] theorem State.modNode_power (s : State) (n : Nat) (f : NodeInfo → NodeInfo) : (s.modNode n f).power = s.power := rfl
@[simp] theorem State.modNode_host (s : State) (n : Nat) (f : NodeInfo → NodeInfo) : (s.modNode n f).host = s.host := rfl

@[simp] theorem State.modRouter_pending (s : State) (n : Nat) (f : Router → Router) : (s.modRouter n f).pending = s.pending := rfl
@[simp] theorem State.modRouter_outbox (s : State) (n : Nat) (f : Router → Router) : (s.modRouter n f).outbox = s.outbox := rfl
@[simp] theorem State.modRouter_freeCtr (s : State) (n : Nat) (f : Router → Router) : (s.modRouter n f).freeCtr = s.freeCtr := rfl
@[simp] theorem State.modRouter_settings (s : State) (n : Nat) (f : Router → Router) : (s.modRouter n f).settings = s.settings := rfl
@[simp] theorem State.modRouter_octets (s : State) (n : Nat) (f : Router → Router) : (s.modRouter n f).octets = s.octets := rfl
@[simp] theorem State.modRouter_counters (s : State) (n : Nat) (f : Router → Router) : (s.modRouter n f).counters = s.counters := rfl
@[simp] theorem State.modRouter_time (s : State) (n : Nat) (f : Router → Router) : (s.modRouter n f).time = s.time := rfl
@[simp] theorem State.modRouter_cores (s : State) (n : Nat) (f : Router → Router) : (s.modRouter n f).cores = s.cores := rfl
@[simp] theorem State.modRouter_stands (s : State) (n : Nat) (f : Router → Router) : (s.modRouter n f).stands = s.stands := rfl
@[simp] theorem State.modRouter_nodes (s : State) (n : Nat) (f : Router → Router) : (s.modRouter n f).nodes = s.nodes := rfl
@[simp] theorem State.modRouter_mesh (s : State) (n : Nat) (f : Router → Router) : (s.modRouter n f).mesh = s.mesh := rfl
@[simp] theorem State.modRouter_links (s : State) (n : Nat) (f : Router → Router) : (s.modRouter n f).links = s.links := rfl
@[simp] theorem State.modRouter_seams (s : State) (n : Nat) (f : Router → Router) : (s.modRouter n f).seams = s.seams := rfl
@[simp] theorem State.modRouter_phases (s : State) (n : Nat) (f : Router → Router) : (s.modRouter n f).phases = s.phases := rfl
@[simp] theorem State.modRouter_serving (s : State) (n : Nat) (f : Router → Router) : (s.modRouter n f).serving = s.serving := rfl
@[simp] theorem State.modRouter_weights (s : State) (n : Nat) (f : Router → Router) : (s.modRouter n f).weights = s.weights := rfl
@[simp] theorem State.modRouter_binary (s : State) (n : Nat) (f : Router → Router) : (s.modRouter n f).binary = s.binary := rfl
@[simp] theorem State.modRouter_mem (s : State) (n : Nat) (f : Router → Router) : (s.modRouter n f).mem = s.mem := rfl
@[simp] theorem State.modRouter_grove (s : State) (n : Nat) (f : Router → Router) : (s.modRouter n f).grove = s.grove := rfl
@[simp] theorem State.modRouter_rel (s : State) (n : Nat) (f : Router → Router) : (s.modRouter n f).rel = s.rel := rfl
@[simp] theorem State.modRouter_sense (s : State) (n : Nat) (f : Router → Router) : (s.modRouter n f).sense = s.sense := rfl
@[simp] theorem State.modRouter_power (s : State) (n : Nat) (f : Router → Router) : (s.modRouter n f).power = s.power := rfl
@[simp] theorem State.modRouter_host (s : State) (n : Nat) (f : Router → Router) : (s.modRouter n f).host = s.host := rfl

@[simp] theorem State.modEndpoint_pending (s : State) (n : Nat) (f : Endpoint → Endpoint) : (s.modEndpoint n f).pending = s.pending := rfl
@[simp] theorem State.modEndpoint_outbox (s : State) (n : Nat) (f : Endpoint → Endpoint) : (s.modEndpoint n f).outbox = s.outbox := rfl
@[simp] theorem State.modEndpoint_freeCtr (s : State) (n : Nat) (f : Endpoint → Endpoint) : (s.modEndpoint n f).freeCtr = s.freeCtr := rfl
@[simp] theorem State.modEndpoint_settings (s : State) (n : Nat) (f : Endpoint → Endpoint) : (s.modEndpoint n f).settings = s.settings := rfl
@[simp] theorem State.modEndpoint_octets (s : State) (n : Nat) (f : Endpoint → Endpoint) : (s.modEndpoint n f).octets = s.octets := rfl
@[simp] theorem State.modEndpoint_counters (s : State) (n : Nat) (f : Endpoint → Endpoint) : (s.modEndpoint n f).counters = s.counters := rfl
@[simp] theorem State.modEndpoint_time (s : State) (n : Nat) (f : Endpoint → Endpoint) : (s.modEndpoint n f).time = s.time := rfl
@[simp] theorem State.modEndpoint_cores (s : State) (n : Nat) (f : Endpoint → Endpoint) : (s.modEndpoint n f).cores = s.cores := rfl
@[simp] theorem State.modEndpoint_stands (s : State) (n : Nat) (f : Endpoint → Endpoint) : (s.modEndpoint n f).stands = s.stands := rfl
@[simp] theorem State.modEndpoint_nodes (s : State) (n : Nat) (f : Endpoint → Endpoint) : (s.modEndpoint n f).nodes = s.nodes := rfl
@[simp] theorem State.modEndpoint_mesh (s : State) (n : Nat) (f : Endpoint → Endpoint) : (s.modEndpoint n f).mesh = s.mesh := rfl
@[simp] theorem State.modEndpoint_routers (s : State) (n : Nat) (f : Endpoint → Endpoint) : (s.modEndpoint n f).routers = s.routers := rfl
@[simp] theorem State.modEndpoint_links (s : State) (n : Nat) (f : Endpoint → Endpoint) : (s.modEndpoint n f).links = s.links := rfl
@[simp] theorem State.modEndpoint_seams (s : State) (n : Nat) (f : Endpoint → Endpoint) : (s.modEndpoint n f).seams = s.seams := rfl
@[simp] theorem State.modEndpoint_phases (s : State) (n : Nat) (f : Endpoint → Endpoint) : (s.modEndpoint n f).phases = s.phases := rfl
@[simp] theorem State.modEndpoint_serving (s : State) (n : Nat) (f : Endpoint → Endpoint) : (s.modEndpoint n f).serving = s.serving := rfl
@[simp] theorem State.modEndpoint_weights (s : State) (n : Nat) (f : Endpoint → Endpoint) : (s.modEndpoint n f).weights = s.weights := rfl
@[simp] theorem State.modEndpoint_binary (s : State) (n : Nat) (f : Endpoint → Endpoint) : (s.modEndpoint n f).binary = s.binary := rfl
@[simp] theorem State.modEndpoint_mem (s : State) (n : Nat) (f : Endpoint → Endpoint) : (s.modEndpoint n f).mem = s.mem := rfl
@[simp] theorem State.modEndpoint_rel (s : State) (n : Nat) (f : Endpoint → Endpoint) : (s.modEndpoint n f).rel = s.rel := rfl
@[simp] theorem State.modEndpoint_sense (s : State) (n : Nat) (f : Endpoint → Endpoint) : (s.modEndpoint n f).sense = s.sense := rfl
@[simp] theorem State.modEndpoint_power (s : State) (n : Nat) (f : Endpoint → Endpoint) : (s.modEndpoint n f).power = s.power := rfl
@[simp] theorem State.modEndpoint_host (s : State) (n : Nat) (f : Endpoint → Endpoint) : (s.modEndpoint n f).host = s.host := rfl

@[simp] theorem State.modPort_pending (s : State) (p : Nat) (f : Port → Port) : (s.modPort p f).pending = s.pending := rfl
@[simp] theorem State.modPort_outbox (s : State) (p : Nat) (f : Port → Port) : (s.modPort p f).outbox = s.outbox := rfl
@[simp] theorem State.modPort_freeCtr (s : State) (p : Nat) (f : Port → Port) : (s.modPort p f).freeCtr = s.freeCtr := rfl
@[simp] theorem State.modPort_settings (s : State) (p : Nat) (f : Port → Port) : (s.modPort p f).settings = s.settings := rfl
@[simp] theorem State.modPort_octets (s : State) (p : Nat) (f : Port → Port) : (s.modPort p f).octets = s.octets := rfl
@[simp] theorem State.modPort_counters (s : State) (p : Nat) (f : Port → Port) : (s.modPort p f).counters = s.counters := rfl
@[simp] theorem State.modPort_time (s : State) (p : Nat) (f : Port → Port) : (s.modPort p f).time = s.time := rfl
@[simp] theorem State.modPort_cores (s : State) (p : Nat) (f : Port → Port) : (s.modPort p f).cores = s.cores := rfl
@[simp] theorem State.modPort_stands (s : State) (p : Nat) (f : Port → Port) : (s.modPort p f).stands = s.stands := rfl
@[simp] theorem State.modPort_nodes (s : State) (p : Nat) (f : Port → Port) : (s.modPort p f).nodes = s.nodes := rfl
@[simp] theorem State.modPort_mesh (s : State) (p : Nat) (f : Port → Port) : (s.modPort p f).mesh = s.mesh := rfl
@[simp] theorem State.modPort_routers (s : State) (p : Nat) (f : Port → Port) : (s.modPort p f).routers = s.routers := rfl
@[simp] theorem State.modPort_links (s : State) (p : Nat) (f : Port → Port) : (s.modPort p f).links = s.links := rfl
@[simp] theorem State.modPort_seams (s : State) (p : Nat) (f : Port → Port) : (s.modPort p f).seams = s.seams := rfl
@[simp] theorem State.modPort_phases (s : State) (p : Nat) (f : Port → Port) : (s.modPort p f).phases = s.phases := rfl
@[simp] theorem State.modPort_serving (s : State) (p : Nat) (f : Port → Port) : (s.modPort p f).serving = s.serving := rfl
@[simp] theorem State.modPort_weights (s : State) (p : Nat) (f : Port → Port) : (s.modPort p f).weights = s.weights := rfl
@[simp] theorem State.modPort_binary (s : State) (p : Nat) (f : Port → Port) : (s.modPort p f).binary = s.binary := rfl
@[simp] theorem State.modPort_mem (s : State) (p : Nat) (f : Port → Port) : (s.modPort p f).mem = s.mem := rfl
@[simp] theorem State.modPort_rel (s : State) (p : Nat) (f : Port → Port) : (s.modPort p f).rel = s.rel := rfl
@[simp] theorem State.modPort_sense (s : State) (p : Nat) (f : Port → Port) : (s.modPort p f).sense = s.sense := rfl
@[simp] theorem State.modPort_power (s : State) (p : Nat) (f : Port → Port) : (s.modPort p f).power = s.power := rfl
@[simp] theorem State.modPort_host (s : State) (p : Nat) (f : Port → Port) : (s.modPort p f).host = s.host := rfl

@[simp] theorem State.modArb_pending (s : State) (n : Nat) (f : Arbiter → Arbiter) : (s.modArb n f).pending = s.pending := rfl
@[simp] theorem State.modArb_outbox (s : State) (n : Nat) (f : Arbiter → Arbiter) : (s.modArb n f).outbox = s.outbox := rfl
@[simp] theorem State.modArb_freeCtr (s : State) (n : Nat) (f : Arbiter → Arbiter) : (s.modArb n f).freeCtr = s.freeCtr := rfl
@[simp] theorem State.modArb_settings (s : State) (n : Nat) (f : Arbiter → Arbiter) : (s.modArb n f).settings = s.settings := rfl
@[simp] theorem State.modArb_octets (s : State) (n : Nat) (f : Arbiter → Arbiter) : (s.modArb n f).octets = s.octets := rfl
@[simp] theorem State.modArb_counters (s : State) (n : Nat) (f : Arbiter → Arbiter) : (s.modArb n f).counters = s.counters := rfl
@[simp] theorem State.modArb_time (s : State) (n : Nat) (f : Arbiter → Arbiter) : (s.modArb n f).time = s.time := rfl
@[simp] theorem State.modArb_cores (s : State) (n : Nat) (f : Arbiter → Arbiter) : (s.modArb n f).cores = s.cores := rfl
@[simp] theorem State.modArb_stands (s : State) (n : Nat) (f : Arbiter → Arbiter) : (s.modArb n f).stands = s.stands := rfl
@[simp] theorem State.modArb_nodes (s : State) (n : Nat) (f : Arbiter → Arbiter) : (s.modArb n f).nodes = s.nodes := rfl
@[simp] theorem State.modArb_mesh (s : State) (n : Nat) (f : Arbiter → Arbiter) : (s.modArb n f).mesh = s.mesh := rfl
@[simp] theorem State.modArb_routers (s : State) (n : Nat) (f : Arbiter → Arbiter) : (s.modArb n f).routers = s.routers := rfl
@[simp] theorem State.modArb_links (s : State) (n : Nat) (f : Arbiter → Arbiter) : (s.modArb n f).links = s.links := rfl
@[simp] theorem State.modArb_seams (s : State) (n : Nat) (f : Arbiter → Arbiter) : (s.modArb n f).seams = s.seams := rfl
@[simp] theorem State.modArb_phases (s : State) (n : Nat) (f : Arbiter → Arbiter) : (s.modArb n f).phases = s.phases := rfl
@[simp] theorem State.modArb_serving (s : State) (n : Nat) (f : Arbiter → Arbiter) : (s.modArb n f).serving = s.serving := rfl
@[simp] theorem State.modArb_weights (s : State) (n : Nat) (f : Arbiter → Arbiter) : (s.modArb n f).weights = s.weights := rfl
@[simp] theorem State.modArb_binary (s : State) (n : Nat) (f : Arbiter → Arbiter) : (s.modArb n f).binary = s.binary := rfl
@[simp] theorem State.modArb_grove (s : State) (n : Nat) (f : Arbiter → Arbiter) : (s.modArb n f).grove = s.grove := rfl
@[simp] theorem State.modArb_rel (s : State) (n : Nat) (f : Arbiter → Arbiter) : (s.modArb n f).rel = s.rel := rfl
@[simp] theorem State.modArb_sense (s : State) (n : Nat) (f : Arbiter → Arbiter) : (s.modArb n f).sense = s.sense := rfl
@[simp] theorem State.modArb_power (s : State) (n : Nat) (f : Arbiter → Arbiter) : (s.modArb n f).power = s.power := rfl
@[simp] theorem State.modArb_host (s : State) (n : Nat) (f : Arbiter → Arbiter) : (s.modArb n f).host = s.host := rfl

@[simp] theorem State.putSetting_pending (s : State) (k v : Nat) : (s.putSetting k v).pending = s.pending := rfl
@[simp] theorem State.putSetting_outbox (s : State) (k v : Nat) : (s.putSetting k v).outbox = s.outbox := rfl
@[simp] theorem State.putSetting_freeCtr (s : State) (k v : Nat) : (s.putSetting k v).freeCtr = s.freeCtr := rfl
@[simp] theorem State.putSetting_octets (s : State) (k v : Nat) : (s.putSetting k v).octets = s.octets := rfl
@[simp] theorem State.putSetting_counters (s : State) (k v : Nat) : (s.putSetting k v).counters = s.counters := rfl
@[simp] theorem State.putSetting_time (s : State) (k v : Nat) : (s.putSetting k v).time = s.time := rfl
@[simp] theorem State.putSetting_cores (s : State) (k v : Nat) : (s.putSetting k v).cores = s.cores := rfl
@[simp] theorem State.putSetting_stands (s : State) (k v : Nat) : (s.putSetting k v).stands = s.stands := rfl
@[simp] theorem State.putSetting_nodes (s : State) (k v : Nat) : (s.putSetting k v).nodes = s.nodes := rfl
@[simp] theorem State.putSetting_mesh (s : State) (k v : Nat) : (s.putSetting k v).mesh = s.mesh := rfl
@[simp] theorem State.putSetting_routers (s : State) (k v : Nat) : (s.putSetting k v).routers = s.routers := rfl
@[simp] theorem State.putSetting_links (s : State) (k v : Nat) : (s.putSetting k v).links = s.links := rfl
@[simp] theorem State.putSetting_seams (s : State) (k v : Nat) : (s.putSetting k v).seams = s.seams := rfl
@[simp] theorem State.putSetting_phases (s : State) (k v : Nat) : (s.putSetting k v).phases = s.phases := rfl
@[simp] theorem State.putSetting_serving (s : State) (k v : Nat) : (s.putSetting k v).serving = s.serving := rfl
@[simp] theorem State.putSetting_weights (s : State) (k v : Nat) : (s.putSetting k v).weights = s.weights := rfl
@[simp] theorem State.putSetting_binary (s : State) (k v : Nat) : (s.putSetting k v).binary = s.binary := rfl
@[simp] theorem State.putSetting_mem (s : State) (k v : Nat) : (s.putSetting k v).mem = s.mem := rfl
@[simp] theorem State.putSetting_grove (s : State) (k v : Nat) : (s.putSetting k v).grove = s.grove := rfl
@[simp] theorem State.putSetting_rel (s : State) (k v : Nat) : (s.putSetting k v).rel = s.rel := rfl
@[simp] theorem State.putSetting_sense (s : State) (k v : Nat) : (s.putSetting k v).sense = s.sense := rfl
@[simp] theorem State.putSetting_power (s : State) (k v : Nat) : (s.putSetting k v).power = s.power := rfl
@[simp] theorem State.putSetting_host (s : State) (k v : Nat) : (s.putSetting k v).host = s.host := rfl

@[simp] theorem State.putOctet_pending (s : State) (k : Nat) (v : List Byte) : (s.putOctet k v).pending = s.pending := rfl
@[simp] theorem State.putOctet_outbox (s : State) (k : Nat) (v : List Byte) : (s.putOctet k v).outbox = s.outbox := rfl
@[simp] theorem State.putOctet_freeCtr (s : State) (k : Nat) (v : List Byte) : (s.putOctet k v).freeCtr = s.freeCtr := rfl
@[simp] theorem State.putOctet_settings (s : State) (k : Nat) (v : List Byte) : (s.putOctet k v).settings = s.settings := rfl
@[simp] theorem State.putOctet_counters (s : State) (k : Nat) (v : List Byte) : (s.putOctet k v).counters = s.counters := rfl
@[simp] theorem State.putOctet_time (s : State) (k : Nat) (v : List Byte) : (s.putOctet k v).time = s.time := rfl
@[simp] theorem State.putOctet_cores (s : State) (k : Nat) (v : List Byte) : (s.putOctet k v).cores = s.cores := rfl
@[simp] theorem State.putOctet_stands (s : State) (k : Nat) (v : List Byte) : (s.putOctet k v).stands = s.stands := rfl
@[simp] theorem State.putOctet_nodes (s : State) (k : Nat) (v : List Byte) : (s.putOctet k v).nodes = s.nodes := rfl
@[simp] theorem State.putOctet_mesh (s : State) (k : Nat) (v : List Byte) : (s.putOctet k v).mesh = s.mesh := rfl
@[simp] theorem State.putOctet_routers (s : State) (k : Nat) (v : List Byte) : (s.putOctet k v).routers = s.routers := rfl
@[simp] theorem State.putOctet_links (s : State) (k : Nat) (v : List Byte) : (s.putOctet k v).links = s.links := rfl
@[simp] theorem State.putOctet_seams (s : State) (k : Nat) (v : List Byte) : (s.putOctet k v).seams = s.seams := rfl
@[simp] theorem State.putOctet_phases (s : State) (k : Nat) (v : List Byte) : (s.putOctet k v).phases = s.phases := rfl
@[simp] theorem State.putOctet_serving (s : State) (k : Nat) (v : List Byte) : (s.putOctet k v).serving = s.serving := rfl
@[simp] theorem State.putOctet_weights (s : State) (k : Nat) (v : List Byte) : (s.putOctet k v).weights = s.weights := rfl
@[simp] theorem State.putOctet_binary (s : State) (k : Nat) (v : List Byte) : (s.putOctet k v).binary = s.binary := rfl
@[simp] theorem State.putOctet_mem (s : State) (k : Nat) (v : List Byte) : (s.putOctet k v).mem = s.mem := rfl
@[simp] theorem State.putOctet_grove (s : State) (k : Nat) (v : List Byte) : (s.putOctet k v).grove = s.grove := rfl
@[simp] theorem State.putOctet_rel (s : State) (k : Nat) (v : List Byte) : (s.putOctet k v).rel = s.rel := rfl
@[simp] theorem State.putOctet_sense (s : State) (k : Nat) (v : List Byte) : (s.putOctet k v).sense = s.sense := rfl
@[simp] theorem State.putOctet_power (s : State) (k : Nat) (v : List Byte) : (s.putOctet k v).power = s.power := rfl
@[simp] theorem State.putOctet_host (s : State) (k : Nat) (v : List Byte) : (s.putOctet k v).host = s.host := rfl

@[simp] theorem State.count_pending (s : State) (k n : Nat) : (s.count k n).pending = s.pending := rfl
@[simp] theorem State.count_outbox (s : State) (k n : Nat) : (s.count k n).outbox = s.outbox := rfl
@[simp] theorem State.count_freeCtr (s : State) (k n : Nat) : (s.count k n).freeCtr = s.freeCtr := rfl
@[simp] theorem State.count_settings (s : State) (k n : Nat) : (s.count k n).settings = s.settings := rfl
@[simp] theorem State.count_octets (s : State) (k n : Nat) : (s.count k n).octets = s.octets := rfl
@[simp] theorem State.count_time (s : State) (k n : Nat) : (s.count k n).time = s.time := rfl
@[simp] theorem State.count_cores (s : State) (k n : Nat) : (s.count k n).cores = s.cores := rfl
@[simp] theorem State.count_stands (s : State) (k n : Nat) : (s.count k n).stands = s.stands := rfl
@[simp] theorem State.count_nodes (s : State) (k n : Nat) : (s.count k n).nodes = s.nodes := rfl
@[simp] theorem State.count_mesh (s : State) (k n : Nat) : (s.count k n).mesh = s.mesh := rfl
@[simp] theorem State.count_routers (s : State) (k n : Nat) : (s.count k n).routers = s.routers := rfl
@[simp] theorem State.count_links (s : State) (k n : Nat) : (s.count k n).links = s.links := rfl
@[simp] theorem State.count_seams (s : State) (k n : Nat) : (s.count k n).seams = s.seams := rfl
@[simp] theorem State.count_phases (s : State) (k n : Nat) : (s.count k n).phases = s.phases := rfl
@[simp] theorem State.count_serving (s : State) (k n : Nat) : (s.count k n).serving = s.serving := rfl
@[simp] theorem State.count_weights (s : State) (k n : Nat) : (s.count k n).weights = s.weights := rfl
@[simp] theorem State.count_binary (s : State) (k n : Nat) : (s.count k n).binary = s.binary := rfl
@[simp] theorem State.count_mem (s : State) (k n : Nat) : (s.count k n).mem = s.mem := rfl
@[simp] theorem State.count_grove (s : State) (k n : Nat) : (s.count k n).grove = s.grove := rfl
@[simp] theorem State.count_rel (s : State) (k n : Nat) : (s.count k n).rel = s.rel := rfl
@[simp] theorem State.count_sense (s : State) (k n : Nat) : (s.count k n).sense = s.sense := rfl
@[simp] theorem State.count_power (s : State) (k n : Nat) : (s.count k n).power = s.power := rfl
@[simp] theorem State.count_host (s : State) (k n : Nat) : (s.count k n).host = s.host := rfl

@[simp] theorem State.emit_pending (s : State) (o : Output) : (s.emit o).pending = s.pending := rfl
@[simp] theorem State.emit_freeCtr (s : State) (o : Output) : (s.emit o).freeCtr = s.freeCtr := rfl
@[simp] theorem State.emit_settings (s : State) (o : Output) : (s.emit o).settings = s.settings := rfl
@[simp] theorem State.emit_octets (s : State) (o : Output) : (s.emit o).octets = s.octets := rfl
@[simp] theorem State.emit_counters (s : State) (o : Output) : (s.emit o).counters = s.counters := rfl
@[simp] theorem State.emit_time (s : State) (o : Output) : (s.emit o).time = s.time := rfl
@[simp] theorem State.emit_cores (s : State) (o : Output) : (s.emit o).cores = s.cores := rfl
@[simp] theorem State.emit_stands (s : State) (o : Output) : (s.emit o).stands = s.stands := rfl
@[simp] theorem State.emit_nodes (s : State) (o : Output) : (s.emit o).nodes = s.nodes := rfl
@[simp] theorem State.emit_mesh (s : State) (o : Output) : (s.emit o).mesh = s.mesh := rfl
@[simp] theorem State.emit_routers (s : State) (o : Output) : (s.emit o).routers = s.routers := rfl
@[simp] theorem State.emit_links (s : State) (o : Output) : (s.emit o).links = s.links := rfl
@[simp] theorem State.emit_seams (s : State) (o : Output) : (s.emit o).seams = s.seams := rfl
@[simp] theorem State.emit_phases (s : State) (o : Output) : (s.emit o).phases = s.phases := rfl
@[simp] theorem State.emit_serving (s : State) (o : Output) : (s.emit o).serving = s.serving := rfl
@[simp] theorem State.emit_weights (s : State) (o : Output) : (s.emit o).weights = s.weights := rfl
@[simp] theorem State.emit_binary (s : State) (o : Output) : (s.emit o).binary = s.binary := rfl
@[simp] theorem State.emit_mem (s : State) (o : Output) : (s.emit o).mem = s.mem := rfl
@[simp] theorem State.emit_grove (s : State) (o : Output) : (s.emit o).grove = s.grove := rfl
@[simp] theorem State.emit_rel (s : State) (o : Output) : (s.emit o).rel = s.rel := rfl
@[simp] theorem State.emit_sense (s : State) (o : Output) : (s.emit o).sense = s.sense := rfl
@[simp] theorem State.emit_power (s : State) (o : Output) : (s.emit o).power = s.power := rfl
@[simp] theorem State.emit_host (s : State) (o : Output) : (s.emit o).host = s.host := rfl

@[simp] theorem State.send_pending (s : State) (p : Packet) : (s.send p).pending = s.pending := rfl
@[simp] theorem State.send_outbox (s : State) (p : Packet) : (s.send p).outbox = s.outbox := rfl
@[simp] theorem State.send_freeCtr (s : State) (p : Packet) : (s.send p).freeCtr = s.freeCtr := rfl
@[simp] theorem State.send_settings (s : State) (p : Packet) : (s.send p).settings = s.settings := rfl
@[simp] theorem State.send_octets (s : State) (p : Packet) : (s.send p).octets = s.octets := rfl
@[simp] theorem State.send_counters (s : State) (p : Packet) : (s.send p).counters = s.counters := rfl
@[simp] theorem State.send_time (s : State) (p : Packet) : (s.send p).time = s.time := rfl
@[simp] theorem State.send_cores (s : State) (p : Packet) : (s.send p).cores = s.cores := rfl
@[simp] theorem State.send_stands (s : State) (p : Packet) : (s.send p).stands = s.stands := rfl
@[simp] theorem State.send_nodes (s : State) (p : Packet) : (s.send p).nodes = s.nodes := rfl
@[simp] theorem State.send_routers (s : State) (p : Packet) : (s.send p).routers = s.routers := rfl
@[simp] theorem State.send_links (s : State) (p : Packet) : (s.send p).links = s.links := rfl
@[simp] theorem State.send_seams (s : State) (p : Packet) : (s.send p).seams = s.seams := rfl
@[simp] theorem State.send_phases (s : State) (p : Packet) : (s.send p).phases = s.phases := rfl
@[simp] theorem State.send_serving (s : State) (p : Packet) : (s.send p).serving = s.serving := rfl
@[simp] theorem State.send_weights (s : State) (p : Packet) : (s.send p).weights = s.weights := rfl
@[simp] theorem State.send_binary (s : State) (p : Packet) : (s.send p).binary = s.binary := rfl
@[simp] theorem State.send_mem (s : State) (p : Packet) : (s.send p).mem = s.mem := rfl
@[simp] theorem State.send_grove (s : State) (p : Packet) : (s.send p).grove = s.grove := rfl
@[simp] theorem State.send_rel (s : State) (p : Packet) : (s.send p).rel = s.rel := rfl
@[simp] theorem State.send_sense (s : State) (p : Packet) : (s.send p).sense = s.sense := rfl
@[simp] theorem State.send_power (s : State) (p : Packet) : (s.send p).power = s.power := rfl
@[simp] theorem State.send_host (s : State) (p : Packet) : (s.send p).host = s.host := rfl

@[simp] theorem State.take_pending (s : State) (p : Packet) : (s.take p).pending = s.pending := rfl
@[simp] theorem State.take_outbox (s : State) (p : Packet) : (s.take p).outbox = s.outbox := rfl
@[simp] theorem State.take_freeCtr (s : State) (p : Packet) : (s.take p).freeCtr = s.freeCtr := rfl
@[simp] theorem State.take_settings (s : State) (p : Packet) : (s.take p).settings = s.settings := rfl
@[simp] theorem State.take_octets (s : State) (p : Packet) : (s.take p).octets = s.octets := rfl
@[simp] theorem State.take_counters (s : State) (p : Packet) : (s.take p).counters = s.counters := rfl
@[simp] theorem State.take_time (s : State) (p : Packet) : (s.take p).time = s.time := rfl
@[simp] theorem State.take_cores (s : State) (p : Packet) : (s.take p).cores = s.cores := rfl
@[simp] theorem State.take_stands (s : State) (p : Packet) : (s.take p).stands = s.stands := rfl
@[simp] theorem State.take_nodes (s : State) (p : Packet) : (s.take p).nodes = s.nodes := rfl
@[simp] theorem State.take_routers (s : State) (p : Packet) : (s.take p).routers = s.routers := rfl
@[simp] theorem State.take_links (s : State) (p : Packet) : (s.take p).links = s.links := rfl
@[simp] theorem State.take_seams (s : State) (p : Packet) : (s.take p).seams = s.seams := rfl
@[simp] theorem State.take_phases (s : State) (p : Packet) : (s.take p).phases = s.phases := rfl
@[simp] theorem State.take_serving (s : State) (p : Packet) : (s.take p).serving = s.serving := rfl
@[simp] theorem State.take_weights (s : State) (p : Packet) : (s.take p).weights = s.weights := rfl
@[simp] theorem State.take_binary (s : State) (p : Packet) : (s.take p).binary = s.binary := rfl
@[simp] theorem State.take_mem (s : State) (p : Packet) : (s.take p).mem = s.mem := rfl
@[simp] theorem State.take_grove (s : State) (p : Packet) : (s.take p).grove = s.grove := rfl
@[simp] theorem State.take_rel (s : State) (p : Packet) : (s.take p).rel = s.rel := rfl
@[simp] theorem State.take_sense (s : State) (p : Packet) : (s.take p).sense = s.sense := rfl
@[simp] theorem State.take_power (s : State) (p : Packet) : (s.take p).power = s.power := rfl
@[simp] theorem State.take_host (s : State) (p : Packet) : (s.take p).host = s.host := rfl

@[simp] theorem State.due_pending (s : State) (v : Nat) : (s.due v).pending = s.pending := rfl
@[simp] theorem State.due_outbox (s : State) (v : Nat) : (s.due v).outbox = s.outbox := rfl
@[simp] theorem State.due_freeCtr (s : State) (v : Nat) : (s.due v).freeCtr = s.freeCtr := rfl
@[simp] theorem State.due_settings (s : State) (v : Nat) : (s.due v).settings = s.settings := rfl
@[simp] theorem State.due_octets (s : State) (v : Nat) : (s.due v).octets = s.octets := rfl
@[simp] theorem State.due_counters (s : State) (v : Nat) : (s.due v).counters = s.counters := rfl
@[simp] theorem State.due_time (s : State) (v : Nat) : (s.due v).time = s.time := rfl
@[simp] theorem State.due_cores (s : State) (v : Nat) : (s.due v).cores = s.cores := rfl
@[simp] theorem State.due_stands (s : State) (v : Nat) : (s.due v).stands = s.stands := rfl
@[simp] theorem State.due_nodes (s : State) (v : Nat) : (s.due v).nodes = s.nodes := rfl
@[simp] theorem State.due_mesh (s : State) (v : Nat) : (s.due v).mesh = s.mesh := rfl
@[simp] theorem State.due_routers (s : State) (v : Nat) : (s.due v).routers = s.routers := rfl
@[simp] theorem State.due_links (s : State) (v : Nat) : (s.due v).links = s.links := rfl
@[simp] theorem State.due_seams (s : State) (v : Nat) : (s.due v).seams = s.seams := rfl
@[simp] theorem State.due_phases (s : State) (v : Nat) : (s.due v).phases = s.phases := rfl
@[simp] theorem State.due_serving (s : State) (v : Nat) : (s.due v).serving = s.serving := rfl
@[simp] theorem State.due_weights (s : State) (v : Nat) : (s.due v).weights = s.weights := rfl
@[simp] theorem State.due_binary (s : State) (v : Nat) : (s.due v).binary = s.binary := rfl
@[simp] theorem State.due_mem (s : State) (v : Nat) : (s.due v).mem = s.mem := rfl
@[simp] theorem State.due_grove (s : State) (v : Nat) : (s.due v).grove = s.grove := rfl
@[simp] theorem State.due_rel (s : State) (v : Nat) : (s.due v).rel = s.rel := rfl
@[simp] theorem State.due_sense (s : State) (v : Nat) : (s.due v).sense = s.sense := rfl
@[simp] theorem State.due_power (s : State) (v : Nat) : (s.due v).power = s.power := rfl

@[simp] theorem State.modPower_pending (s : State) (f : Power → Power) : (s.modPower f).pending = s.pending := rfl
@[simp] theorem State.modPower_outbox (s : State) (f : Power → Power) : (s.modPower f).outbox = s.outbox := rfl
@[simp] theorem State.modPower_freeCtr (s : State) (f : Power → Power) : (s.modPower f).freeCtr = s.freeCtr := rfl
@[simp] theorem State.modPower_settings (s : State) (f : Power → Power) : (s.modPower f).settings = s.settings := rfl
@[simp] theorem State.modPower_octets (s : State) (f : Power → Power) : (s.modPower f).octets = s.octets := rfl
@[simp] theorem State.modPower_counters (s : State) (f : Power → Power) : (s.modPower f).counters = s.counters := rfl
@[simp] theorem State.modPower_time (s : State) (f : Power → Power) : (s.modPower f).time = s.time := rfl
@[simp] theorem State.modPower_cores (s : State) (f : Power → Power) : (s.modPower f).cores = s.cores := rfl
@[simp] theorem State.modPower_stands (s : State) (f : Power → Power) : (s.modPower f).stands = s.stands := rfl
@[simp] theorem State.modPower_nodes (s : State) (f : Power → Power) : (s.modPower f).nodes = s.nodes := rfl
@[simp] theorem State.modPower_mesh (s : State) (f : Power → Power) : (s.modPower f).mesh = s.mesh := rfl
@[simp] theorem State.modPower_routers (s : State) (f : Power → Power) : (s.modPower f).routers = s.routers := rfl
@[simp] theorem State.modPower_links (s : State) (f : Power → Power) : (s.modPower f).links = s.links := rfl
@[simp] theorem State.modPower_seams (s : State) (f : Power → Power) : (s.modPower f).seams = s.seams := rfl
@[simp] theorem State.modPower_phases (s : State) (f : Power → Power) : (s.modPower f).phases = s.phases := rfl
@[simp] theorem State.modPower_serving (s : State) (f : Power → Power) : (s.modPower f).serving = s.serving := rfl
@[simp] theorem State.modPower_weights (s : State) (f : Power → Power) : (s.modPower f).weights = s.weights := rfl
@[simp] theorem State.modPower_binary (s : State) (f : Power → Power) : (s.modPower f).binary = s.binary := rfl
@[simp] theorem State.modPower_mem (s : State) (f : Power → Power) : (s.modPower f).mem = s.mem := rfl
@[simp] theorem State.modPower_grove (s : State) (f : Power → Power) : (s.modPower f).grove = s.grove := rfl
@[simp] theorem State.modPower_rel (s : State) (f : Power → Power) : (s.modPower f).rel = s.rel := rfl
@[simp] theorem State.modPower_sense (s : State) (f : Power → Power) : (s.modPower f).sense = s.sense := rfl
@[simp] theorem State.modPower_host (s : State) (f : Power → Power) : (s.modPower f).host = s.host := rfl

@[simp] theorem State.modServing_pending (s : State) (f : Serving → Serving) : (s.modServing f).pending = s.pending := rfl
@[simp] theorem State.modServing_outbox (s : State) (f : Serving → Serving) : (s.modServing f).outbox = s.outbox := rfl
@[simp] theorem State.modServing_freeCtr (s : State) (f : Serving → Serving) : (s.modServing f).freeCtr = s.freeCtr := rfl
@[simp] theorem State.modServing_settings (s : State) (f : Serving → Serving) : (s.modServing f).settings = s.settings := rfl
@[simp] theorem State.modServing_octets (s : State) (f : Serving → Serving) : (s.modServing f).octets = s.octets := rfl
@[simp] theorem State.modServing_counters (s : State) (f : Serving → Serving) : (s.modServing f).counters = s.counters := rfl
@[simp] theorem State.modServing_time (s : State) (f : Serving → Serving) : (s.modServing f).time = s.time := rfl
@[simp] theorem State.modServing_cores (s : State) (f : Serving → Serving) : (s.modServing f).cores = s.cores := rfl
@[simp] theorem State.modServing_stands (s : State) (f : Serving → Serving) : (s.modServing f).stands = s.stands := rfl
@[simp] theorem State.modServing_nodes (s : State) (f : Serving → Serving) : (s.modServing f).nodes = s.nodes := rfl
@[simp] theorem State.modServing_mesh (s : State) (f : Serving → Serving) : (s.modServing f).mesh = s.mesh := rfl
@[simp] theorem State.modServing_routers (s : State) (f : Serving → Serving) : (s.modServing f).routers = s.routers := rfl
@[simp] theorem State.modServing_links (s : State) (f : Serving → Serving) : (s.modServing f).links = s.links := rfl
@[simp] theorem State.modServing_seams (s : State) (f : Serving → Serving) : (s.modServing f).seams = s.seams := rfl
@[simp] theorem State.modServing_phases (s : State) (f : Serving → Serving) : (s.modServing f).phases = s.phases := rfl
@[simp] theorem State.modServing_weights (s : State) (f : Serving → Serving) : (s.modServing f).weights = s.weights := rfl
@[simp] theorem State.modServing_binary (s : State) (f : Serving → Serving) : (s.modServing f).binary = s.binary := rfl
@[simp] theorem State.modServing_mem (s : State) (f : Serving → Serving) : (s.modServing f).mem = s.mem := rfl
@[simp] theorem State.modServing_grove (s : State) (f : Serving → Serving) : (s.modServing f).grove = s.grove := rfl
@[simp] theorem State.modServing_rel (s : State) (f : Serving → Serving) : (s.modServing f).rel = s.rel := rfl
@[simp] theorem State.modServing_sense (s : State) (f : Serving → Serving) : (s.modServing f).sense = s.sense := rfl
@[simp] theorem State.modServing_power (s : State) (f : Serving → Serving) : (s.modServing f).power = s.power := rfl
@[simp] theorem State.modServing_host (s : State) (f : Serving → Serving) : (s.modServing f).host = s.host := rfl

@[simp] theorem State.modWeights_pending (s : State) (f : Weights → Weights) : (s.modWeights f).pending = s.pending := rfl
@[simp] theorem State.modWeights_outbox (s : State) (f : Weights → Weights) : (s.modWeights f).outbox = s.outbox := rfl
@[simp] theorem State.modWeights_freeCtr (s : State) (f : Weights → Weights) : (s.modWeights f).freeCtr = s.freeCtr := rfl
@[simp] theorem State.modWeights_settings (s : State) (f : Weights → Weights) : (s.modWeights f).settings = s.settings := rfl
@[simp] theorem State.modWeights_octets (s : State) (f : Weights → Weights) : (s.modWeights f).octets = s.octets := rfl
@[simp] theorem State.modWeights_counters (s : State) (f : Weights → Weights) : (s.modWeights f).counters = s.counters := rfl
@[simp] theorem State.modWeights_time (s : State) (f : Weights → Weights) : (s.modWeights f).time = s.time := rfl
@[simp] theorem State.modWeights_cores (s : State) (f : Weights → Weights) : (s.modWeights f).cores = s.cores := rfl
@[simp] theorem State.modWeights_stands (s : State) (f : Weights → Weights) : (s.modWeights f).stands = s.stands := rfl
@[simp] theorem State.modWeights_nodes (s : State) (f : Weights → Weights) : (s.modWeights f).nodes = s.nodes := rfl
@[simp] theorem State.modWeights_mesh (s : State) (f : Weights → Weights) : (s.modWeights f).mesh = s.mesh := rfl
@[simp] theorem State.modWeights_routers (s : State) (f : Weights → Weights) : (s.modWeights f).routers = s.routers := rfl
@[simp] theorem State.modWeights_links (s : State) (f : Weights → Weights) : (s.modWeights f).links = s.links := rfl
@[simp] theorem State.modWeights_seams (s : State) (f : Weights → Weights) : (s.modWeights f).seams = s.seams := rfl
@[simp] theorem State.modWeights_phases (s : State) (f : Weights → Weights) : (s.modWeights f).phases = s.phases := rfl
@[simp] theorem State.modWeights_serving (s : State) (f : Weights → Weights) : (s.modWeights f).serving = s.serving := rfl
@[simp] theorem State.modWeights_binary (s : State) (f : Weights → Weights) : (s.modWeights f).binary = s.binary := rfl
@[simp] theorem State.modWeights_mem (s : State) (f : Weights → Weights) : (s.modWeights f).mem = s.mem := rfl
@[simp] theorem State.modWeights_grove (s : State) (f : Weights → Weights) : (s.modWeights f).grove = s.grove := rfl
@[simp] theorem State.modWeights_rel (s : State) (f : Weights → Weights) : (s.modWeights f).rel = s.rel := rfl
@[simp] theorem State.modWeights_sense (s : State) (f : Weights → Weights) : (s.modWeights f).sense = s.sense := rfl
@[simp] theorem State.modWeights_power (s : State) (f : Weights → Weights) : (s.modWeights f).power = s.power := rfl
@[simp] theorem State.modWeights_host (s : State) (f : Weights → Weights) : (s.modWeights f).host = s.host := rfl

@[simp] theorem State.modChan_pending (s : State) (c : Nat) (f : FlagChan → FlagChan) : (s.modChan c f).pending = s.pending := rfl
@[simp] theorem State.modChan_outbox (s : State) (c : Nat) (f : FlagChan → FlagChan) : (s.modChan c f).outbox = s.outbox := rfl
@[simp] theorem State.modChan_freeCtr (s : State) (c : Nat) (f : FlagChan → FlagChan) : (s.modChan c f).freeCtr = s.freeCtr := rfl
@[simp] theorem State.modChan_settings (s : State) (c : Nat) (f : FlagChan → FlagChan) : (s.modChan c f).settings = s.settings := rfl
@[simp] theorem State.modChan_octets (s : State) (c : Nat) (f : FlagChan → FlagChan) : (s.modChan c f).octets = s.octets := rfl
@[simp] theorem State.modChan_counters (s : State) (c : Nat) (f : FlagChan → FlagChan) : (s.modChan c f).counters = s.counters := rfl
@[simp] theorem State.modChan_time (s : State) (c : Nat) (f : FlagChan → FlagChan) : (s.modChan c f).time = s.time := rfl
@[simp] theorem State.modChan_cores (s : State) (c : Nat) (f : FlagChan → FlagChan) : (s.modChan c f).cores = s.cores := rfl
@[simp] theorem State.modChan_stands (s : State) (c : Nat) (f : FlagChan → FlagChan) : (s.modChan c f).stands = s.stands := rfl
@[simp] theorem State.modChan_nodes (s : State) (c : Nat) (f : FlagChan → FlagChan) : (s.modChan c f).nodes = s.nodes := rfl
@[simp] theorem State.modChan_mesh (s : State) (c : Nat) (f : FlagChan → FlagChan) : (s.modChan c f).mesh = s.mesh := rfl
@[simp] theorem State.modChan_routers (s : State) (c : Nat) (f : FlagChan → FlagChan) : (s.modChan c f).routers = s.routers := rfl
@[simp] theorem State.modChan_links (s : State) (c : Nat) (f : FlagChan → FlagChan) : (s.modChan c f).links = s.links := rfl
@[simp] theorem State.modChan_seams (s : State) (c : Nat) (f : FlagChan → FlagChan) : (s.modChan c f).seams = s.seams := rfl
@[simp] theorem State.modChan_phases (s : State) (c : Nat) (f : FlagChan → FlagChan) : (s.modChan c f).phases = s.phases := rfl
@[simp] theorem State.modChan_serving (s : State) (c : Nat) (f : FlagChan → FlagChan) : (s.modChan c f).serving = s.serving := rfl
@[simp] theorem State.modChan_weights (s : State) (c : Nat) (f : FlagChan → FlagChan) : (s.modChan c f).weights = s.weights := rfl
@[simp] theorem State.modChan_binary (s : State) (c : Nat) (f : FlagChan → FlagChan) : (s.modChan c f).binary = s.binary := rfl
@[simp] theorem State.modChan_mem (s : State) (c : Nat) (f : FlagChan → FlagChan) : (s.modChan c f).mem = s.mem := rfl
@[simp] theorem State.modChan_rel (s : State) (c : Nat) (f : FlagChan → FlagChan) : (s.modChan c f).rel = s.rel := rfl
@[simp] theorem State.modChan_sense (s : State) (c : Nat) (f : FlagChan → FlagChan) : (s.modChan c f).sense = s.sense := rfl
@[simp] theorem State.modChan_power (s : State) (c : Nat) (f : FlagChan → FlagChan) : (s.modChan c f).power = s.power := rfl
@[simp] theorem State.modChan_host (s : State) (c : Nat) (f : FlagChan → FlagChan) : (s.modChan c f).host = s.host := rfl

@[simp] theorem State.modPath_pending (s : State) (port peer : Nat) (f : Path → Path) : (s.modPath port peer f).pending = s.pending := rfl
@[simp] theorem State.modPath_outbox (s : State) (port peer : Nat) (f : Path → Path) : (s.modPath port peer f).outbox = s.outbox := rfl
@[simp] theorem State.modPath_freeCtr (s : State) (port peer : Nat) (f : Path → Path) : (s.modPath port peer f).freeCtr = s.freeCtr := rfl
@[simp] theorem State.modPath_settings (s : State) (port peer : Nat) (f : Path → Path) : (s.modPath port peer f).settings = s.settings := rfl
@[simp] theorem State.modPath_octets (s : State) (port peer : Nat) (f : Path → Path) : (s.modPath port peer f).octets = s.octets := rfl
@[simp] theorem State.modPath_counters (s : State) (port peer : Nat) (f : Path → Path) : (s.modPath port peer f).counters = s.counters := rfl
@[simp] theorem State.modPath_time (s : State) (port peer : Nat) (f : Path → Path) : (s.modPath port peer f).time = s.time := rfl
@[simp] theorem State.modPath_cores (s : State) (port peer : Nat) (f : Path → Path) : (s.modPath port peer f).cores = s.cores := rfl
@[simp] theorem State.modPath_stands (s : State) (port peer : Nat) (f : Path → Path) : (s.modPath port peer f).stands = s.stands := rfl
@[simp] theorem State.modPath_nodes (s : State) (port peer : Nat) (f : Path → Path) : (s.modPath port peer f).nodes = s.nodes := rfl
@[simp] theorem State.modPath_mesh (s : State) (port peer : Nat) (f : Path → Path) : (s.modPath port peer f).mesh = s.mesh := rfl
@[simp] theorem State.modPath_routers (s : State) (port peer : Nat) (f : Path → Path) : (s.modPath port peer f).routers = s.routers := rfl
@[simp] theorem State.modPath_links (s : State) (port peer : Nat) (f : Path → Path) : (s.modPath port peer f).links = s.links := rfl
@[simp] theorem State.modPath_seams (s : State) (port peer : Nat) (f : Path → Path) : (s.modPath port peer f).seams = s.seams := rfl
@[simp] theorem State.modPath_phases (s : State) (port peer : Nat) (f : Path → Path) : (s.modPath port peer f).phases = s.phases := rfl
@[simp] theorem State.modPath_serving (s : State) (port peer : Nat) (f : Path → Path) : (s.modPath port peer f).serving = s.serving := rfl
@[simp] theorem State.modPath_weights (s : State) (port peer : Nat) (f : Path → Path) : (s.modPath port peer f).weights = s.weights := rfl
@[simp] theorem State.modPath_binary (s : State) (port peer : Nat) (f : Path → Path) : (s.modPath port peer f).binary = s.binary := rfl
@[simp] theorem State.modPath_mem (s : State) (port peer : Nat) (f : Path → Path) : (s.modPath port peer f).mem = s.mem := rfl
@[simp] theorem State.modPath_rel (s : State) (port peer : Nat) (f : Path → Path) : (s.modPath port peer f).rel = s.rel := rfl
@[simp] theorem State.modPath_sense (s : State) (port peer : Nat) (f : Path → Path) : (s.modPath port peer f).sense = s.sense := rfl
@[simp] theorem State.modPath_power (s : State) (port peer : Nat) (f : Path → Path) : (s.modPath port peer f).power = s.power := rfl
@[simp] theorem State.modPath_host (s : State) (port peer : Nat) (f : Path → Path) : (s.modPath port peer f).host = s.host := rfl

@[simp] theorem State.modAdc_pending (s : State) (n : Nat) (f : Adc → Adc) : (s.modAdc n f).pending = s.pending := rfl
@[simp] theorem State.modAdc_outbox (s : State) (n : Nat) (f : Adc → Adc) : (s.modAdc n f).outbox = s.outbox := rfl
@[simp] theorem State.modAdc_freeCtr (s : State) (n : Nat) (f : Adc → Adc) : (s.modAdc n f).freeCtr = s.freeCtr := rfl
@[simp] theorem State.modAdc_settings (s : State) (n : Nat) (f : Adc → Adc) : (s.modAdc n f).settings = s.settings := rfl
@[simp] theorem State.modAdc_octets (s : State) (n : Nat) (f : Adc → Adc) : (s.modAdc n f).octets = s.octets := rfl
@[simp] theorem State.modAdc_counters (s : State) (n : Nat) (f : Adc → Adc) : (s.modAdc n f).counters = s.counters := rfl
@[simp] theorem State.modAdc_time (s : State) (n : Nat) (f : Adc → Adc) : (s.modAdc n f).time = s.time := rfl
@[simp] theorem State.modAdc_cores (s : State) (n : Nat) (f : Adc → Adc) : (s.modAdc n f).cores = s.cores := rfl
@[simp] theorem State.modAdc_stands (s : State) (n : Nat) (f : Adc → Adc) : (s.modAdc n f).stands = s.stands := rfl
@[simp] theorem State.modAdc_nodes (s : State) (n : Nat) (f : Adc → Adc) : (s.modAdc n f).nodes = s.nodes := rfl
@[simp] theorem State.modAdc_mesh (s : State) (n : Nat) (f : Adc → Adc) : (s.modAdc n f).mesh = s.mesh := rfl
@[simp] theorem State.modAdc_routers (s : State) (n : Nat) (f : Adc → Adc) : (s.modAdc n f).routers = s.routers := rfl
@[simp] theorem State.modAdc_links (s : State) (n : Nat) (f : Adc → Adc) : (s.modAdc n f).links = s.links := rfl
@[simp] theorem State.modAdc_seams (s : State) (n : Nat) (f : Adc → Adc) : (s.modAdc n f).seams = s.seams := rfl
@[simp] theorem State.modAdc_phases (s : State) (n : Nat) (f : Adc → Adc) : (s.modAdc n f).phases = s.phases := rfl
@[simp] theorem State.modAdc_serving (s : State) (n : Nat) (f : Adc → Adc) : (s.modAdc n f).serving = s.serving := rfl
@[simp] theorem State.modAdc_weights (s : State) (n : Nat) (f : Adc → Adc) : (s.modAdc n f).weights = s.weights := rfl
@[simp] theorem State.modAdc_binary (s : State) (n : Nat) (f : Adc → Adc) : (s.modAdc n f).binary = s.binary := rfl
@[simp] theorem State.modAdc_mem (s : State) (n : Nat) (f : Adc → Adc) : (s.modAdc n f).mem = s.mem := rfl
@[simp] theorem State.modAdc_grove (s : State) (n : Nat) (f : Adc → Adc) : (s.modAdc n f).grove = s.grove := rfl
@[simp] theorem State.modAdc_rel (s : State) (n : Nat) (f : Adc → Adc) : (s.modAdc n f).rel = s.rel := rfl
@[simp] theorem State.modAdc_power (s : State) (n : Nat) (f : Adc → Adc) : (s.modAdc n f).power = s.power := rfl
@[simp] theorem State.modAdc_host (s : State) (n : Nat) (f : Adc → Adc) : (s.modAdc n f).host = s.host := rfl

@[simp] theorem State.modDiode_pending (s : State) (d : Nat) (f : Sensor → Sensor) : (s.modDiode d f).pending = s.pending := rfl
@[simp] theorem State.modDiode_outbox (s : State) (d : Nat) (f : Sensor → Sensor) : (s.modDiode d f).outbox = s.outbox := rfl
@[simp] theorem State.modDiode_freeCtr (s : State) (d : Nat) (f : Sensor → Sensor) : (s.modDiode d f).freeCtr = s.freeCtr := rfl
@[simp] theorem State.modDiode_settings (s : State) (d : Nat) (f : Sensor → Sensor) : (s.modDiode d f).settings = s.settings := rfl
@[simp] theorem State.modDiode_octets (s : State) (d : Nat) (f : Sensor → Sensor) : (s.modDiode d f).octets = s.octets := rfl
@[simp] theorem State.modDiode_counters (s : State) (d : Nat) (f : Sensor → Sensor) : (s.modDiode d f).counters = s.counters := rfl
@[simp] theorem State.modDiode_time (s : State) (d : Nat) (f : Sensor → Sensor) : (s.modDiode d f).time = s.time := rfl
@[simp] theorem State.modDiode_cores (s : State) (d : Nat) (f : Sensor → Sensor) : (s.modDiode d f).cores = s.cores := rfl
@[simp] theorem State.modDiode_stands (s : State) (d : Nat) (f : Sensor → Sensor) : (s.modDiode d f).stands = s.stands := rfl
@[simp] theorem State.modDiode_nodes (s : State) (d : Nat) (f : Sensor → Sensor) : (s.modDiode d f).nodes = s.nodes := rfl
@[simp] theorem State.modDiode_mesh (s : State) (d : Nat) (f : Sensor → Sensor) : (s.modDiode d f).mesh = s.mesh := rfl
@[simp] theorem State.modDiode_routers (s : State) (d : Nat) (f : Sensor → Sensor) : (s.modDiode d f).routers = s.routers := rfl
@[simp] theorem State.modDiode_links (s : State) (d : Nat) (f : Sensor → Sensor) : (s.modDiode d f).links = s.links := rfl
@[simp] theorem State.modDiode_seams (s : State) (d : Nat) (f : Sensor → Sensor) : (s.modDiode d f).seams = s.seams := rfl
@[simp] theorem State.modDiode_phases (s : State) (d : Nat) (f : Sensor → Sensor) : (s.modDiode d f).phases = s.phases := rfl
@[simp] theorem State.modDiode_serving (s : State) (d : Nat) (f : Sensor → Sensor) : (s.modDiode d f).serving = s.serving := rfl
@[simp] theorem State.modDiode_weights (s : State) (d : Nat) (f : Sensor → Sensor) : (s.modDiode d f).weights = s.weights := rfl
@[simp] theorem State.modDiode_binary (s : State) (d : Nat) (f : Sensor → Sensor) : (s.modDiode d f).binary = s.binary := rfl
@[simp] theorem State.modDiode_mem (s : State) (d : Nat) (f : Sensor → Sensor) : (s.modDiode d f).mem = s.mem := rfl
@[simp] theorem State.modDiode_grove (s : State) (d : Nat) (f : Sensor → Sensor) : (s.modDiode d f).grove = s.grove := rfl
@[simp] theorem State.modDiode_rel (s : State) (d : Nat) (f : Sensor → Sensor) : (s.modDiode d f).rel = s.rel := rfl
@[simp] theorem State.modDiode_power (s : State) (d : Nat) (f : Sensor → Sensor) : (s.modDiode d f).power = s.power := rfl
@[simp] theorem State.modDiode_host (s : State) (d : Nat) (f : Sensor → Sensor) : (s.modDiode d f).host = s.host := rfl

@[simp] theorem State.modTherm_pending (s : State) (n : Nat) (f : Sensor → Sensor) : (s.modTherm n f).pending = s.pending := rfl
@[simp] theorem State.modTherm_outbox (s : State) (n : Nat) (f : Sensor → Sensor) : (s.modTherm n f).outbox = s.outbox := rfl
@[simp] theorem State.modTherm_freeCtr (s : State) (n : Nat) (f : Sensor → Sensor) : (s.modTherm n f).freeCtr = s.freeCtr := rfl
@[simp] theorem State.modTherm_settings (s : State) (n : Nat) (f : Sensor → Sensor) : (s.modTherm n f).settings = s.settings := rfl
@[simp] theorem State.modTherm_octets (s : State) (n : Nat) (f : Sensor → Sensor) : (s.modTherm n f).octets = s.octets := rfl
@[simp] theorem State.modTherm_counters (s : State) (n : Nat) (f : Sensor → Sensor) : (s.modTherm n f).counters = s.counters := rfl
@[simp] theorem State.modTherm_time (s : State) (n : Nat) (f : Sensor → Sensor) : (s.modTherm n f).time = s.time := rfl
@[simp] theorem State.modTherm_cores (s : State) (n : Nat) (f : Sensor → Sensor) : (s.modTherm n f).cores = s.cores := rfl
@[simp] theorem State.modTherm_stands (s : State) (n : Nat) (f : Sensor → Sensor) : (s.modTherm n f).stands = s.stands := rfl
@[simp] theorem State.modTherm_nodes (s : State) (n : Nat) (f : Sensor → Sensor) : (s.modTherm n f).nodes = s.nodes := rfl
@[simp] theorem State.modTherm_mesh (s : State) (n : Nat) (f : Sensor → Sensor) : (s.modTherm n f).mesh = s.mesh := rfl
@[simp] theorem State.modTherm_routers (s : State) (n : Nat) (f : Sensor → Sensor) : (s.modTherm n f).routers = s.routers := rfl
@[simp] theorem State.modTherm_links (s : State) (n : Nat) (f : Sensor → Sensor) : (s.modTherm n f).links = s.links := rfl
@[simp] theorem State.modTherm_seams (s : State) (n : Nat) (f : Sensor → Sensor) : (s.modTherm n f).seams = s.seams := rfl
@[simp] theorem State.modTherm_phases (s : State) (n : Nat) (f : Sensor → Sensor) : (s.modTherm n f).phases = s.phases := rfl
@[simp] theorem State.modTherm_serving (s : State) (n : Nat) (f : Sensor → Sensor) : (s.modTherm n f).serving = s.serving := rfl
@[simp] theorem State.modTherm_weights (s : State) (n : Nat) (f : Sensor → Sensor) : (s.modTherm n f).weights = s.weights := rfl
@[simp] theorem State.modTherm_binary (s : State) (n : Nat) (f : Sensor → Sensor) : (s.modTherm n f).binary = s.binary := rfl
@[simp] theorem State.modTherm_mem (s : State) (n : Nat) (f : Sensor → Sensor) : (s.modTherm n f).mem = s.mem := rfl
@[simp] theorem State.modTherm_grove (s : State) (n : Nat) (f : Sensor → Sensor) : (s.modTherm n f).grove = s.grove := rfl
@[simp] theorem State.modTherm_rel (s : State) (n : Nat) (f : Sensor → Sensor) : (s.modTherm n f).rel = s.rel := rfl
@[simp] theorem State.modTherm_power (s : State) (n : Nat) (f : Sensor → Sensor) : (s.modTherm n f).power = s.power := rfl
@[simp] theorem State.modTherm_host (s : State) (n : Nat) (f : Sensor → Sensor) : (s.modTherm n f).host = s.host := rfl

@[simp] theorem State.modLink_pending (s : State) (r d : Nat) (f : Link → Link) : (s.modLink r d f).pending = s.pending := rfl
@[simp] theorem State.modLink_outbox (s : State) (r d : Nat) (f : Link → Link) : (s.modLink r d f).outbox = s.outbox := rfl
@[simp] theorem State.modLink_freeCtr (s : State) (r d : Nat) (f : Link → Link) : (s.modLink r d f).freeCtr = s.freeCtr := rfl
@[simp] theorem State.modLink_settings (s : State) (r d : Nat) (f : Link → Link) : (s.modLink r d f).settings = s.settings := rfl
@[simp] theorem State.modLink_octets (s : State) (r d : Nat) (f : Link → Link) : (s.modLink r d f).octets = s.octets := rfl
@[simp] theorem State.modLink_counters (s : State) (r d : Nat) (f : Link → Link) : (s.modLink r d f).counters = s.counters := rfl
@[simp] theorem State.modLink_time (s : State) (r d : Nat) (f : Link → Link) : (s.modLink r d f).time = s.time := rfl
@[simp] theorem State.modLink_cores (s : State) (r d : Nat) (f : Link → Link) : (s.modLink r d f).cores = s.cores := rfl
@[simp] theorem State.modLink_stands (s : State) (r d : Nat) (f : Link → Link) : (s.modLink r d f).stands = s.stands := rfl
@[simp] theorem State.modLink_nodes (s : State) (r d : Nat) (f : Link → Link) : (s.modLink r d f).nodes = s.nodes := rfl
@[simp] theorem State.modLink_mesh (s : State) (r d : Nat) (f : Link → Link) : (s.modLink r d f).mesh = s.mesh := rfl
@[simp] theorem State.modLink_routers (s : State) (r d : Nat) (f : Link → Link) : (s.modLink r d f).routers = s.routers := rfl
@[simp] theorem State.modLink_seams (s : State) (r d : Nat) (f : Link → Link) : (s.modLink r d f).seams = s.seams := rfl
@[simp] theorem State.modLink_phases (s : State) (r d : Nat) (f : Link → Link) : (s.modLink r d f).phases = s.phases := rfl
@[simp] theorem State.modLink_serving (s : State) (r d : Nat) (f : Link → Link) : (s.modLink r d f).serving = s.serving := rfl
@[simp] theorem State.modLink_weights (s : State) (r d : Nat) (f : Link → Link) : (s.modLink r d f).weights = s.weights := rfl
@[simp] theorem State.modLink_binary (s : State) (r d : Nat) (f : Link → Link) : (s.modLink r d f).binary = s.binary := rfl
@[simp] theorem State.modLink_mem (s : State) (r d : Nat) (f : Link → Link) : (s.modLink r d f).mem = s.mem := rfl
@[simp] theorem State.modLink_grove (s : State) (r d : Nat) (f : Link → Link) : (s.modLink r d f).grove = s.grove := rfl
@[simp] theorem State.modLink_rel (s : State) (r d : Nat) (f : Link → Link) : (s.modLink r d f).rel = s.rel := rfl
@[simp] theorem State.modLink_sense (s : State) (r d : Nat) (f : Link → Link) : (s.modLink r d f).sense = s.sense := rfl
@[simp] theorem State.modLink_power (s : State) (r d : Nat) (f : Link → Link) : (s.modLink r d f).power = s.power := rfl
@[simp] theorem State.modLink_host (s : State) (r d : Nat) (f : Link → Link) : (s.modLink r d f).host = s.host := rfl

@[simp] theorem State.modSeam_pending (s : State) (y : Nat) (ew : Bool) (f : Seam → Seam) : (s.modSeam y ew f).pending = s.pending := rfl
@[simp] theorem State.modSeam_outbox (s : State) (y : Nat) (ew : Bool) (f : Seam → Seam) : (s.modSeam y ew f).outbox = s.outbox := rfl
@[simp] theorem State.modSeam_freeCtr (s : State) (y : Nat) (ew : Bool) (f : Seam → Seam) : (s.modSeam y ew f).freeCtr = s.freeCtr := rfl
@[simp] theorem State.modSeam_settings (s : State) (y : Nat) (ew : Bool) (f : Seam → Seam) : (s.modSeam y ew f).settings = s.settings := rfl
@[simp] theorem State.modSeam_octets (s : State) (y : Nat) (ew : Bool) (f : Seam → Seam) : (s.modSeam y ew f).octets = s.octets := rfl
@[simp] theorem State.modSeam_counters (s : State) (y : Nat) (ew : Bool) (f : Seam → Seam) : (s.modSeam y ew f).counters = s.counters := rfl
@[simp] theorem State.modSeam_time (s : State) (y : Nat) (ew : Bool) (f : Seam → Seam) : (s.modSeam y ew f).time = s.time := rfl
@[simp] theorem State.modSeam_cores (s : State) (y : Nat) (ew : Bool) (f : Seam → Seam) : (s.modSeam y ew f).cores = s.cores := rfl
@[simp] theorem State.modSeam_stands (s : State) (y : Nat) (ew : Bool) (f : Seam → Seam) : (s.modSeam y ew f).stands = s.stands := rfl
@[simp] theorem State.modSeam_nodes (s : State) (y : Nat) (ew : Bool) (f : Seam → Seam) : (s.modSeam y ew f).nodes = s.nodes := rfl
@[simp] theorem State.modSeam_mesh (s : State) (y : Nat) (ew : Bool) (f : Seam → Seam) : (s.modSeam y ew f).mesh = s.mesh := rfl
@[simp] theorem State.modSeam_routers (s : State) (y : Nat) (ew : Bool) (f : Seam → Seam) : (s.modSeam y ew f).routers = s.routers := rfl
@[simp] theorem State.modSeam_links (s : State) (y : Nat) (ew : Bool) (f : Seam → Seam) : (s.modSeam y ew f).links = s.links := rfl
@[simp] theorem State.modSeam_phases (s : State) (y : Nat) (ew : Bool) (f : Seam → Seam) : (s.modSeam y ew f).phases = s.phases := rfl
@[simp] theorem State.modSeam_serving (s : State) (y : Nat) (ew : Bool) (f : Seam → Seam) : (s.modSeam y ew f).serving = s.serving := rfl
@[simp] theorem State.modSeam_weights (s : State) (y : Nat) (ew : Bool) (f : Seam → Seam) : (s.modSeam y ew f).weights = s.weights := rfl
@[simp] theorem State.modSeam_binary (s : State) (y : Nat) (ew : Bool) (f : Seam → Seam) : (s.modSeam y ew f).binary = s.binary := rfl
@[simp] theorem State.modSeam_mem (s : State) (y : Nat) (ew : Bool) (f : Seam → Seam) : (s.modSeam y ew f).mem = s.mem := rfl
@[simp] theorem State.modSeam_grove (s : State) (y : Nat) (ew : Bool) (f : Seam → Seam) : (s.modSeam y ew f).grove = s.grove := rfl
@[simp] theorem State.modSeam_rel (s : State) (y : Nat) (ew : Bool) (f : Seam → Seam) : (s.modSeam y ew f).rel = s.rel := rfl
@[simp] theorem State.modSeam_sense (s : State) (y : Nat) (ew : Bool) (f : Seam → Seam) : (s.modSeam y ew f).sense = s.sense := rfl
@[simp] theorem State.modSeam_power (s : State) (y : Nat) (ew : Bool) (f : Seam → Seam) : (s.modSeam y ew f).power = s.power := rfl
@[simp] theorem State.modSeam_host (s : State) (y : Nat) (ew : Bool) (f : Seam → Seam) : (s.modSeam y ew f).host = s.host := rfl

@[simp] theorem State.modRemap_pending (s : State) (k : Nat) (f : Remap → Remap) : (s.modRemap k f).pending = s.pending := rfl
@[simp] theorem State.modRemap_outbox (s : State) (k : Nat) (f : Remap → Remap) : (s.modRemap k f).outbox = s.outbox := rfl
@[simp] theorem State.modRemap_freeCtr (s : State) (k : Nat) (f : Remap → Remap) : (s.modRemap k f).freeCtr = s.freeCtr := rfl
@[simp] theorem State.modRemap_settings (s : State) (k : Nat) (f : Remap → Remap) : (s.modRemap k f).settings = s.settings := rfl
@[simp] theorem State.modRemap_octets (s : State) (k : Nat) (f : Remap → Remap) : (s.modRemap k f).octets = s.octets := rfl
@[simp] theorem State.modRemap_counters (s : State) (k : Nat) (f : Remap → Remap) : (s.modRemap k f).counters = s.counters := rfl
@[simp] theorem State.modRemap_time (s : State) (k : Nat) (f : Remap → Remap) : (s.modRemap k f).time = s.time := rfl
@[simp] theorem State.modRemap_cores (s : State) (k : Nat) (f : Remap → Remap) : (s.modRemap k f).cores = s.cores := rfl
@[simp] theorem State.modRemap_stands (s : State) (k : Nat) (f : Remap → Remap) : (s.modRemap k f).stands = s.stands := rfl
@[simp] theorem State.modRemap_nodes (s : State) (k : Nat) (f : Remap → Remap) : (s.modRemap k f).nodes = s.nodes := rfl
@[simp] theorem State.modRemap_mesh (s : State) (k : Nat) (f : Remap → Remap) : (s.modRemap k f).mesh = s.mesh := rfl
@[simp] theorem State.modRemap_routers (s : State) (k : Nat) (f : Remap → Remap) : (s.modRemap k f).routers = s.routers := rfl
@[simp] theorem State.modRemap_links (s : State) (k : Nat) (f : Remap → Remap) : (s.modRemap k f).links = s.links := rfl
@[simp] theorem State.modRemap_seams (s : State) (k : Nat) (f : Remap → Remap) : (s.modRemap k f).seams = s.seams := rfl
@[simp] theorem State.modRemap_phases (s : State) (k : Nat) (f : Remap → Remap) : (s.modRemap k f).phases = s.phases := rfl
@[simp] theorem State.modRemap_serving (s : State) (k : Nat) (f : Remap → Remap) : (s.modRemap k f).serving = s.serving := rfl
@[simp] theorem State.modRemap_weights (s : State) (k : Nat) (f : Remap → Remap) : (s.modRemap k f).weights = s.weights := rfl
@[simp] theorem State.modRemap_binary (s : State) (k : Nat) (f : Remap → Remap) : (s.modRemap k f).binary = s.binary := rfl
@[simp] theorem State.modRemap_grove (s : State) (k : Nat) (f : Remap → Remap) : (s.modRemap k f).grove = s.grove := rfl
@[simp] theorem State.modRemap_rel (s : State) (k : Nat) (f : Remap → Remap) : (s.modRemap k f).rel = s.rel := rfl
@[simp] theorem State.modRemap_sense (s : State) (k : Nat) (f : Remap → Remap) : (s.modRemap k f).sense = s.sense := rfl
@[simp] theorem State.modRemap_power (s : State) (k : Nat) (f : Remap → Remap) : (s.modRemap k f).power = s.power := rfl
@[simp] theorem State.modRemap_host (s : State) (k : Nat) (f : Remap → Remap) : (s.modRemap k f).host = s.host := rfl

@[simp] theorem State.setWall_pending (s : State) (v : Nat) : (s.setWall v).pending = s.pending := rfl
@[simp] theorem State.setWall_outbox (s : State) (v : Nat) : (s.setWall v).outbox = s.outbox := rfl
@[simp] theorem State.setWall_freeCtr (s : State) (v : Nat) : (s.setWall v).freeCtr = s.freeCtr := rfl
@[simp] theorem State.setWall_settings (s : State) (v : Nat) : (s.setWall v).settings = s.settings := rfl
@[simp] theorem State.setWall_octets (s : State) (v : Nat) : (s.setWall v).octets = s.octets := rfl
@[simp] theorem State.setWall_counters (s : State) (v : Nat) : (s.setWall v).counters = s.counters := rfl
@[simp] theorem State.setWall_time (s : State) (v : Nat) : (s.setWall v).time = s.time := rfl
@[simp] theorem State.setWall_cores (s : State) (v : Nat) : (s.setWall v).cores = s.cores := rfl
@[simp] theorem State.setWall_stands (s : State) (v : Nat) : (s.setWall v).stands = s.stands := rfl
@[simp] theorem State.setWall_nodes (s : State) (v : Nat) : (s.setWall v).nodes = s.nodes := rfl
@[simp] theorem State.setWall_mesh (s : State) (v : Nat) : (s.setWall v).mesh = s.mesh := rfl
@[simp] theorem State.setWall_routers (s : State) (v : Nat) : (s.setWall v).routers = s.routers := rfl
@[simp] theorem State.setWall_links (s : State) (v : Nat) : (s.setWall v).links = s.links := rfl
@[simp] theorem State.setWall_seams (s : State) (v : Nat) : (s.setWall v).seams = s.seams := rfl
@[simp] theorem State.setWall_phases (s : State) (v : Nat) : (s.setWall v).phases = s.phases := rfl
@[simp] theorem State.setWall_serving (s : State) (v : Nat) : (s.setWall v).serving = s.serving := rfl
@[simp] theorem State.setWall_weights (s : State) (v : Nat) : (s.setWall v).weights = s.weights := rfl
@[simp] theorem State.setWall_binary (s : State) (v : Nat) : (s.setWall v).binary = s.binary := rfl
@[simp] theorem State.setWall_mem (s : State) (v : Nat) : (s.setWall v).mem = s.mem := rfl
@[simp] theorem State.setWall_grove (s : State) (v : Nat) : (s.setWall v).grove = s.grove := rfl
@[simp] theorem State.setWall_sense (s : State) (v : Nat) : (s.setWall v).sense = s.sense := rfl
@[simp] theorem State.setWall_power (s : State) (v : Nat) : (s.setWall v).power = s.power := rfl
@[simp] theorem State.setWall_host (s : State) (v : Nat) : (s.setWall v).host = s.host := rfl

/-! ## Reading a part after changing it -/

@[simp] theorem State.stand_modStand (s : State) (st : Nat) (f : Stand → Stand) : (s.modStand st f).stand st = f (s.stand st) := by
  simp [State.stand, State.modStand, State.setStand]
theorem State.stand_modStand_ne (s : State) {st m : Nat} (f : Stand → Stand) (h : m ≠ st) :
    (s.modStand st f).stand m = s.stand m := by
  simp [State.stand, State.modStand, State.setStand, Tab.get_set_ne _ _ _ h]
@[simp] theorem State.core_modCore (s : State) (st c : Nat) (f : Core → Core) : (s.modCore st c f).core st c = f (s.core st c) := by
  simp [State.core, State.modCore]
@[simp] theorem State.node_modNode (s : State) (n : Nat) (f : NodeInfo → NodeInfo) : (s.modNode n f).node n = f (s.node n) := by
  simp [State.node, State.modNode]
@[simp] theorem State.port_modPort (s : State) (p : Nat) (f : Port → Port) : (s.modPort p f).port p = f (s.port p) := by
  simp [State.port, State.modPort]
theorem State.port_modPort_ne (s : State) {p q : Nat} (f : Port → Port) (h : q ≠ p) : (s.modPort p f).port q = s.port q := by
  simp [State.port, State.modPort, Tab.get_set_ne _ _ _ h]
@[simp] theorem State.arb_modArb (s : State) (n : Nat) (f : Arbiter → Arbiter) : (s.modArb n f).arb n = f (s.arb n) := by
  simp [State.arb, State.modArb]
@[simp] theorem State.counter_count (s : State) (k n : Nat) : (s.count k n).counter k = (s.counter k + n) % 2 ^ 64 := by
  simp [State.counter, State.count]
theorem State.counter_count_ne (s : State) {k m : Nat} (n : Nat) (h : m ≠ k) : (s.count k n).counter m = s.counter m := by
  simp [State.counter, State.count, Tab.get_set_ne _ _ _ h]
@[simp] theorem State.adc_modAdc (s : State) (n : Nat) (f : Adc → Adc) : (s.modAdc n f).adc n = f (s.adc n) := by
  simp [State.adc, State.modAdc]
@[simp] theorem State.chan_modChan (s : State) (c : Nat) (f : FlagChan → FlagChan) : (s.modChan c f).chan c = f (s.chan c) := by
  simp [State.chan, State.modChan]

/-! ## Units through the simple updates -/

@[simp] theorem State.stand_count (s : State) (k n st : Nat) : (s.count k n).stand st = s.stand st := rfl
@[simp] theorem State.stand_emit (s : State) (o : Output) (st : Nat) : (s.emit o).stand st = s.stand st := rfl
@[simp] theorem State.stand_send (s : State) (p : Packet) (st : Nat) : (s.send p).stand st = s.stand st := rfl
@[simp] theorem State.stand_due (s : State) (v st : Nat) : (s.due v).stand st = s.stand st := rfl
@[simp] theorem State.counter_modStand (s : State) (st : Nat) (f : Stand → Stand) (k : Nat) :
    (s.modStand st f).counter k = s.counter k := rfl
@[simp] theorem State.counter_emit (s : State) (o : Output) (k : Nat) : (s.emit o).counter k = s.counter k := rfl
@[simp] theorem State.counter_due (s : State) (v k : Nat) : (s.due v).counter k = s.counter k := rfl
@[simp] theorem State.counter_modPower (s : State) (f : Power → Power) (k : Nat) : (s.modPower f).counter k = s.counter k := rfl

/-! ## Registers (R149) -/

/-- g0 reads 0. -/
@[simp] theorem Stand.reg_zero (x : Stand) : x.reg 0 = 0 := rfl
/-- A register just written. -/
theorem Stand.reg_putReg (x : Stand) (r : Nat) (v : Word) : (x.putReg r v).reg r = if r = 0 then 0 else v := by
  unfold Stand.reg Stand.putReg
  split <;> simp [*]
/-- Any other register. -/
theorem Stand.reg_putReg_ne (x : Stand) {r q : Nat} (v : Word) (h : q ≠ r) : (x.putReg r v).reg q = x.reg q := by
  unfold Stand.reg Stand.putReg
  split
  · rfl
  · split
    · rfl
    · simp [Tab.get_set_ne _ _ _ h]

/-! ## Issue (R149, R150) -/

/-- What `issue` does, whole: nothing, the effect, or the instruction is held back. -/
theorem State.issue_cases (s : State) (st : Nat) (i : Instr) (ready : Bool) (eff : State → State) :
    (s.canIssue st = false ∧ s.issue st i ready eff = s) ∨
    (s.canIssue st = true ∧ (s.stand st).backlog = [] ∧ ready = true ∧ s.issue st i ready eff = eff (s.issued st)) ∨
    (s.canIssue st = true ∧ ((s.stand st).backlog ≠ [] ∨ ready = false) ∧
      s.issue st i ready eff = s.modStand st fun x =>
        { x with backlog := x.backlog ++ [i], headSince := if x.backlog.isEmpty then s.time.tick else x.headSince }) := by
  unfold State.issue
  cases hc : s.canIssue st <;> cases hb : (s.stand st).backlog <;> cases hr : ready <;> simp

/-- An instruction that is ready at a free controller takes effect. -/
theorem State.issue_ready (s : State) (st : Nat) (i : Instr) (eff : State → State) (hc : s.canIssue st = true)
    (hb : (s.stand st).backlog = []) : s.issue st i true eff = eff (s.issued st) := by
  simp [State.issue, hc, hb]
/-- The state after the controller counted an issue. -/
theorem State.stand_issued (s : State) (st : Nat) : (s.issued st).stand st = { s.stand st with pc := (s.stand st).pc + 1 } := by
  simp [State.issued]

end Sys2Proof.Machine
end

