-- ==== Sys2Proof/Laws/Memory.lean ====
section
/-! SUPPORT. The tiers: reading after writing, and that every operation over them keeps the canonical form. -/

namespace Sys2Proof.Machine

theorem Mem.wf_iff (m : Mem) : m.wf = true ↔ Tab.wf 0 m.tierA = true ∧ Tab.wf 0 m.tierB = true := by
  simp [Mem.wf]

theorem reset_mem_wf : State.reset.mem.wf = true := by decide

/-- A store keeps the canonical form. -/
theorem State.putTier_wf (s : State) (b : Bool) (a : Nat) (bs : List Byte) (h : s.mem.wf = true) :
    (s.putTier b a bs).mem.wf = true := by
  rw [Mem.wf_iff] at h ⊢
  cases b
  · exact ⟨Tab.wf_setRun 0 _ _ _ h.1, h.2⟩
  · exact ⟨h.1, Tab.wf_setRun 0 _ _ _ h.2⟩

/-- Stored bytes inside the tier read back. -/
theorem State.tierByte_putTier_in (s : State) (b : Bool) (a : Nat) (bs : List Byte) {i : Nat} (hi : i < bs.length)
    (ht : a + i < tierSize b) : (s.putTier b a bs).tierByte b (a + i) = bs.getD i 0 := by
  have hl : i < (bs.take (tierSize b - a)).length := by simp only [List.length_take]; omega
  have hv : (bs.take (tierSize b - a)).getD i 0 = bs.getD i 0 := by
    simp only [List.getD_eq_getElem?_getD, List.getElem?_take]
    rw [if_pos (by omega)]
  cases b
  · exact (Tab.get_setRun_in 0 _ s.mem.tierA a i hl).trans hv
  · exact (Tab.get_setRun_in 0 _ s.mem.tierB a i hl).trans hv

/-- A store leaves every other byte of both tiers. -/
theorem State.tierByte_putTier_out (s : State) (b c : Bool) (a k : Nat) (bs : List Byte)
    (h : c ≠ b ∨ k < a ∨ a + bs.length ≤ k) : (s.putTier b a bs).tierByte c k = s.tierByte c k := by
  have hl : (bs.take (tierSize b - a)).length ≤ bs.length := by simp only [List.length_take]; omega
  cases b <;> cases c <;> first
    | rfl
    | exact Tab.get_setRun_out 0 _ _ a k (by
        rcases h with h | h | h
        · exact absurd rfl h
        · exact Or.inl h
        · exact Or.inr (by omega))

/-- Fresh check bits leave the bytes. -/
@[simp] theorem State.tierByte_freshBurst (s : State) (b c : Bool) (k a : Nat) : (s.freshBurst b k).tierByte c a = s.tierByte c a := by
  cases b <;> rfl
theorem State.freshBurst_wf (s : State) (b : Bool) (k : Nat) (h : s.mem.wf = true) : (s.freshBurst b k).mem.wf = true := by
  cases b <;> exact h
/-- Fresh check bits: the burst reads clean, every other as before. -/
theorem State.wrongBurst_freshBurst (s : State) (b c : Bool) (k j : Nat) :
    (s.freshBurst b k).wrongBurst c j = if c = b ∧ j = k then 0 else s.wrongBurst c j := by
  cases b <;> cases c <;> simp [State.wrongBurst, State.freshBurst, Tab.get_set]

@[simp] theorem State.log_mem (s : State) (r : ErrRec) : (s.log r).mem = s.mem := by
  unfold State.log
  dsimp only
  split <;> rfl
@[simp] theorem State.faultStop_mem (s : State) (c : Nat) : (s.faultStop c).mem = s.mem := by
  unfold State.faultStop
  split
  · rfl
  · simp
@[simp] theorem State.vacate_mem (s : State) (st p : Nat) : (s.vacate st p).mem = s.mem := by
  simp [State.vacate]
theorem State.foldl_mem {α : Type} {f : State → α → State} (h : ∀ s a, (f s a).mem = s.mem) (l : List α) (s : State) :
    (l.foldl f s).mem = s.mem := by
  induction l generalizing s with
  | nil => rfl
  | cons a l ih => rw [List.foldl_cons, ih, h]
@[simp] theorem State.quarantine_mem (s : State) (st c : Nat) : (s.quarantine st c).mem = s.mem := by
  unfold State.quarantine
  split
  · rfl
  · rw [State.log_mem, State.count_mem, State.modStand_mem]
    exact State.foldl_mem (fun s p => State.vacate_mem s st p) _ _

/-- A store does not touch the count of wrong symbols. -/
@[simp] theorem State.wrongBurst_putTier (s : State) (b c : Bool) (a j : Nat) (bs : List Byte) :
    (s.putTier b a bs).wrongBurst c j = s.wrongBurst c j := by cases b <;> rfl

/-- What the owner of a lost burst does keeps the canonical form. -/
theorem State.ownerUe_wf (s : State) (b : Bool) (a : Nat) (h : s.mem.wf = true) : (s.ownerUe b a).mem.wf = true := by
  unfold State.ownerUe
  split
  · exact h
  · split
    · repeat' split
      all_goals exact h
    · split
      · dsimp only
        split
        · exact State.putTier_wf _ _ _ _ h
        · exact h
      · simpa using h
/-- The history of a burst holds no byte. -/
theorem State.burstNote_wf (s : State) (b : Bool) (a w : Nat) (h : s.mem.wf = true) : (s.burstNote b a w).mem.wf = true := by
  have r : ∀ (t : State) (p : Nat), t.mem.wf = true → (t.retirePch p).mem.wf = true := by
    intro t p ht
    unfold State.retirePch
    split <;> exact ht
  unfold State.burstNote
  dsimp only
  repeat' split
  all_goals first | exact h | exact r _ _ h
theorem State.burstRead_wf (s : State) (b : Bool) (node k : Nat) (bound : Bool) (h : s.mem.wf = true) :
    (s.burstRead b node k bound).mem.wf = true := by
  have hn := s.burstNote_wf b (64 * k) (s.wrongBurst b k) h
  unfold State.burstRead
  dsimp only
  split
  · exact hn
  · split
    · simpa using hn
    · refine State.ownerUe_wf _ _ _ ?_
      split <;> simpa using hn
/-- Counting refusals leaves the tiers. -/
@[simp] theorem State.tierAsk_mem (s : State) (b : Bool) (a n node : Nat) : (s.tierAsk b a n node).mem = s.mem := by
  unfold State.tierAsk
  split <;> simp
/-- Folding an operation that keeps the canonical form keeps it. -/
theorem State.foldl_wf {α : Type} {f : State → α → State} (hf : ∀ s a, s.mem.wf = true → (f s a).mem.wf = true) (l : List α) (s : State)
    (h : s.mem.wf = true) : (l.foldl f s).mem.wf = true := by
  induction l generalizing s with
  | nil => exact h
  | cons a l ih => exact ih _ (hf _ _ h)
/-- Reading keeps the canonical form. -/
theorem State.tierRead_wf (s : State) (b : Bool) (a n node : Nat) (h : s.mem.wf = true) : (s.tierRead b a n node).2.mem.wf = true :=
  State.foldl_wf (fun s k hs => State.burstRead_wf s b node k true hs) _ _ (by simpa using h)
/-- A node's write keeps the canonical form. -/
theorem State.tierWrite_wf (s : State) (b : Bool) (a : Nat) (bs : List Byte) (node : Nat) (h : s.mem.wf = true) :
    (s.tierWrite b a bs node).mem.wf = true := by
  unfold State.tierWrite
  refine State.putTier_wf _ _ _ _ (State.foldl_wf (fun s k hs => State.freshBurst_wf _ _ _ ?_) _ _ (by simpa using h))
  split
  · exact hs
  · exact State.burstRead_wf s b node k false hs

/-- Reading a burst that is clean changes nothing. -/
theorem State.burstRead_clean (s : State) (b : Bool) (node k : Nat) (bound : Bool) (h : s.wrongBurst b k = 0) :
    s.burstRead b node k bound = s := by
  simp [State.burstRead, State.burstNote, h]
/-- Counting refusals leaves the count of wrong symbols. -/
@[simp] theorem State.wrongBurst_tierAsk (s : State) (b c : Bool) (a n node k : Nat) :
    (s.tierAsk b a n node).wrongBurst c k = s.wrongBurst c k := by
  simp [State.wrongBurst]
/-- Reading clean bursts counts the refusals met and changes nothing else. -/
theorem State.tierRead_clean (s : State) (b : Bool) (a n node : Nat) (h : ∀ k ∈ burstsOf a n, s.wrongBurst b k = 0) :
    s.tierRead b a n node = (s.tierBytes b a n, s.tierAsk b a n node) := by
  unfold State.tierRead
  have h' : ∀ k ∈ burstsOf a n, (s.tierAsk b a n node).wrongBurst b k = 0 := by simpa using h
  congr 1
  generalize burstsOf a n = l at h'
  induction l with
  | nil => rfl
  | cons k l ih =>
    rw [List.foldl_cons, State.burstRead_clean _ b node k true (h' k (by simp))]
    exact ih fun j hj => h' j (by simp [hj])
/-- A node's write over clean bursts is the store, and the check bits of its bursts are fresh. -/
theorem State.tierWrite_clean (s : State) (b : Bool) (a : Nat) (bs : List Byte) (node : Nat)
    (h : ∀ k ∈ burstsOf a bs.length, s.wrongBurst b k = 0) :
    s.tierWrite b a bs node =
      ((burstsOf a bs.length).foldl (fun s k => s.freshBurst b k) (s.tierAsk b a bs.length node)).putTier b a bs := by
  unfold State.tierWrite
  dsimp only
  congr 1
  have h' : ∀ k ∈ burstsOf a bs.length, (s.tierAsk b a bs.length node).wrongBurst b k = 0 := by simpa using h
  generalize burstsOf a bs.length = l at h' ⊢
  generalize s.tierAsk b a bs.length node = u at h' ⊢
  clear h
  induction l generalizing u with
  | nil => rfl
  | cons k l ih =>
    rw [List.foldl_cons, List.foldl_cons, State.burstRead_clean u b node k false (h' k (by simp)), ite_self]
    refine ih _ fun j hj => ?_
    rw [State.wrongBurst_freshBurst]
    split
    · rfl
    · exact h' j (by simp [hj])
/-- Fresh check bits of several bursts leave the bytes. -/
theorem State.tierByte_fresh (s : State) (b c : Bool) (l : List Nat) (a : Nat) :
    (l.foldl (fun s k => s.freshBurst b k) s).tierByte c a = s.tierByte c a := by
  induction l generalizing s with
  | nil => rfl
  | cons k l ih => rw [List.foldl_cons, ih, State.tierByte_freshBurst]

/-- Starting to serve keeps the canonical form. -/
theorem State.startServing_wf (s : State) (h : s.mem.wf = true) : s.startServing.mem.wf = true := by
  unfold State.startServing
  simp only [State.due_mem, State.modNode_mem, State.modServing_mem]
  refine State.tierWrite_wf _ _ _ _ _ ?_
  rw [Mem.wf_iff] at h ⊢
  exact ⟨h.1, Tab.wf_clear (α := Byte) 0 (Tab.clear s.mem.tierB fun a => decide (s.ringIn ≤ a ∧ a < s.ringIn + 8388608))
    (fun a => decide (s.ringOut ≤ a ∧ a < s.ringOut + 67108864)) (Tab.wf_clear 0 s.mem.tierB _ h.2)⟩

end Sys2Proof.Machine
end

