-- ==== Sys2Proof/Laws/Frames.lean ====
section
/-! SUPPORT. What each shared operation can change, once and for all: one equation per operation names the parts of the state that it
may touch, and what it does to the parts that statements speak of. -/

namespace Sys2Proof.Machine

/-! ## Records, health and the fault stop (R379, R382) -/

/-- A record reaches only the collector and one counter. -/
theorem State.log_frame (s : State) (r : ErrRec) :
    s.log r = { s with rel := { s.rel with collector := (s.log r).rel.collector }, counters := (s.log r).counters } := by
  unfold State.log
  dsimp only
  split <;> rfl
/-- Every counter but that of lost records stays. -/
theorem State.counter_log_ne (s : State) (r : ErrRec) {k : Nat} (h : k ≠ 0x540002) : (s.log r).counter k = s.counter k := by
  unfold State.log
  dsimp only
  split
  · rfl
  · exact State.counter_count_ne _ _ h
@[simp] theorem State.stand_log (s : State) (r : ErrRec) (n : Nat) : (s.log r).stand n = s.stand n := by rw [State.log_frame]; rfl
@[simp] theorem State.core_log (s : State) (r : ErrRec) (n c : Nat) : (s.log r).core n c = s.core n c := by rw [State.log_frame]; rfl
@[simp] theorem State.node_log (s : State) (r : ErrRec) (n : Nat) : (s.log r).node n = s.node n := by rw [State.log_frame]; rfl
@[simp] theorem State.stands_log (s : State) (r : ErrRec) : (s.log r).stands = s.stands := by rw [State.log_frame]
@[simp] theorem State.cores_log (s : State) (r : ErrRec) : (s.log r).cores = s.cores := by rw [State.log_frame]
@[simp] theorem State.time_log (s : State) (r : ErrRec) : (s.log r).time = s.time := by rw [State.log_frame]
@[simp] theorem State.health_log (s : State) (r : ErrRec) : (s.log r).rel.health = s.rel.health := by rw [State.log_frame]
/-- A record with room in the collector enters it. -/
theorem State.collector_log (s : State) (r : ErrRec) (h : s.rel.collector.length < 4096) :
    ∃ q, (s.log r).rel.collector = s.rel.collector ++ [q] ∧ q.cls = r.cls ∧ q.sev = r.sev ∧ q.detail = r.detail ∧
      (s.log r).counters = s.counters := by
  unfold State.log
  dsimp only
  rw [if_pos h]
  exact ⟨_, rfl, rfl, rfl, rfl, rfl⟩
/-- DEGRADED reaches only health and the interrupts. -/
theorem State.degrade_frame (s : State) : s.degrade = { s with rel := s.degrade.rel, host := s.degrade.host } := by
  unfold State.degrade
  split <;> rfl
/-- What DEGRADED leaves. -/
theorem State.degrade_health (s : State) :
    s.degrade.rel.degraded = true ∧ s.degrade.rel.health = if s.rel.health = 0 then 1 else s.rel.health := by
  unfold State.degrade
  split <;> exact ⟨rfl, rfl⟩
/-- The fault stop reaches only health, counters, records and the interrupts. -/
theorem State.faultStop_frame (s : State) (c : Nat) :
    s.faultStop c = { s with rel := (s.faultStop c).rel, counters := (s.faultStop c).counters, host := (s.faultStop c).host } := by
  unfold State.faultStop
  split
  · rfl
  · dsimp only
    rw [State.log_frame]
    rfl
/-- A fault stop already in force stays as it is. -/
theorem State.faultStop_again (s : State) (c : Nat) (h : 2 ≤ s.rel.health) : s.faultStop c = s := by
  unfold State.faultStop
  rw [if_pos h]
/-- The first fault stop takes its cause and the time. -/
theorem State.faultStop_first (s : State) (c : Nat) (h : s.rel.health < 2) :
    let t := s.faultStop c
    t.rel.health = 2 ∧ t.rel.fsCause = c ∧ t.rel.fsBeat = some s.time.beat ∧ t.rel.fsTick = s.time.tick ∧
      t.counter 0x540007 = (s.counter 0x540007 + 1) % 2 ^ 64 ∧ t.host = (s.due 20).host := by
  unfold State.faultStop
  rw [if_neg (by omega)]
  dsimp only
  refine ⟨?_, ?_, ?_, ?_, ?_, ?_⟩
  · rw [State.log_frame]; rfl
  · rw [State.log_frame]; rfl
  · rw [State.log_frame]; rfl
  · rw [State.log_frame]; rfl
  · rw [State.counter_log_ne _ _ (by decide), State.counter_due, State.counter_count]; rfl
  · rw [State.log_frame]; rfl

/-! ## Issue (R149) -/

/-- An issue counts itself and moves the program counter. -/
theorem State.issued_frame (s : State) (st : Nat) : s.issued st = { s with stands := (s.issued st).stands, counters := (s.issued st).counters } := rfl
@[simp] theorem State.stand_issued_ne (s : State) {st n : Nat} (h : n ≠ st) : (s.issued st).stand n = s.stand n := by
  rw [State.issued, State.stand_modStand_ne _ _ h]
  rfl
theorem State.countsOnly_issued (s : State) (st : Nat) : s.countsOnly (s.issued st) 0x525001 1 := by
  refine ⟨?_, fun j h => ?_⟩
  · simp [State.issued]
  · simp [State.issued, State.counter_count_ne _ _ h]
/-- An instruction held back changes its stand alone. -/
theorem State.onlyStand_modStand (s : State) (st : Nat) (f : Stand → Stand) : s.onlyStand (s.modStand st f) st :=
  ⟨rfl, fun _ h => State.stand_modStand_ne s f h⟩
/-- An effect on its own stand after an issue changes that stand alone. -/
theorem State.onlyStand_issued (s : State) (st : Nat) (f : Stand → Stand) : s.onlyStand ((s.issued st).modStand st f) st :=
  ⟨rfl, fun _ h => by rw [State.stand_modStand_ne _ f h, State.stand_issued_ne s h]⟩

end Sys2Proof.Machine
end

