-- ==== Sys2Proof/Laws/Scratchpad.lean ====
section
/-! SUPPORT. What an access to a scratchpad does: words read and written, and what stays (R98 to R101, R118). -/

namespace Sys2Proof.Machine

/-- The part of a stand that an access leaves as it is: everything but words, codes and banks. -/
def Stand.sameBut (x y : Stand) : Prop := y = { x with spad := y.spad, wrongBits := y.wrongBits, banks := y.banks }

/-! ## Banks -/

@[simp] theorem Stand.bank_modBank (x : Stand) (b : Nat) (f : SpadBank → SpadBank) : (x.modBank b f).bank b = f (x.bank b) := by
  simp [Stand.bank, Stand.modBank]
theorem Stand.bank_modBank_ne (x : Stand) {b k : Nat} (f : SpadBank → SpadBank) (h : k ≠ b) : (x.modBank b f).bank k = x.bank k := by
  simp [Stand.bank, Stand.modBank, Tab.get_set_ne _ _ _ h]
@[simp] theorem Stand.word_modBank (x : Stand) (b : Nat) (f : SpadBank → SpadBank) (a : Nat) : (x.modBank b f).word a = x.word a := rfl
/-- A grant is all that an access notes in a bank. -/
theorem Stand.power_grant (x : Stand) (b r k : Nat) : ((x.modBank b fun q => { q with lastGrant := r }).bank k).power = (x.bank k).power := by
  by_cases h : k = b
  · subst h; rw [Stand.bank_modBank]
  · rw [Stand.bank_modBank_ne _ _ h]
theorem Stand.clean_grant (x : Stand) (b r : Nat) (h : x.clean) : (x.modBank b fun q => { q with lastGrant := r }).clean :=
  ⟨fun k => by rw [Stand.power_grant]; exact h.1 k, h.2⟩

/-! ## Reads -/

theorem accessLen_le (a n : Nat) : accessLen a n ≤ n := Nat.min_le_left ..
theorem accessLen_pos (a : Nat) {n : Nat} (h : 0 < n) : 0 < accessLen a n := by
  have : wa a % 64 < 64 := Nat.mod_lt _ (by decide)
  unfold accessLen
  omega
/-- A run splits at an access. -/
theorem Stand.run_add (x : Stand) (a k n : Nat) : x.run a (k + n) = x.run a k ++ x.run (a + k) n := by
  simp [Stand.run, List.range_add, Nat.add_assoc, Function.comp_def]
@[simp] theorem Stand.length_run (x : Stand) (a n : Nat) : (x.run a n).length = n := by simp [Stand.run]

/-- Right words cost nothing to check. -/
theorem State.readCodes_clean (s : State) (st op a n : Nat) (h : ∀ k, Tab.get 0 (s.stand st).wrongBits k = 0) :
    s.readCodes st op a n = s := by
  induction n generalizing a with
  | zero => rfl
  | succ n ih => simp only [State.readCodes, h, if_true, ih]

/-- A read of a clean scratchpad: the words of the run; only the grants of its banks are noted. -/
theorem State.readAcc_clean (st req op fuel : Nat) : ∀ (s : State) (a n : Nat), n ≤ fuel → (s.stand st).clean →
    let r := s.readAcc st req op fuel a n
    r.1 = (s.stand st).run a n ∧ r.2 = { s with stands := r.2.stands } ∧ (∀ m, m ≠ st → r.2.stand m = s.stand m) ∧
      r.2.stand st = { s.stand st with banks := (r.2.stand st).banks } ∧ (r.2.stand st).clean ∧
      ∀ b, ((r.2.stand st).bank b).power = ((s.stand st).bank b).power := by
  induction fuel with
  | zero =>
    intro s a n hn hc
    obtain rfl : n = 0 := by omega
    exact ⟨rfl, rfl, fun _ _ => rfl, rfl, hc, fun _ => rfl⟩
  | succ fuel ih =>
    intro s a n hn hc
    by_cases h0 : n = 0
    · subst h0
      exact ⟨rfl, rfl, fun _ _ => rfl, rfl, hc, fun _ => rfl⟩
    · have hk := accessLen_le a n
      have hp := accessLen_pos a (Nat.pos_of_ne_zero h0)
      have hoff := hc.1 (Machine.bankOf a)
      obtain ⟨h1, h2, h3, h4, h5, h6⟩ :=
        ih (s.modStand st fun x => x.modBank (Machine.bankOf a) fun b => { b with lastGrant := req }) (a + accessLen a n) (n - accessLen a n)
          (by omega) (by rw [State.stand_modStand]; exact Stand.clean_grant _ _ _ hc)
      simp only [State.readAcc, if_neg h0, hoff, if_false, State.readCodes_clean s st op _ _ hc.2]
      refine ⟨?_, ?_, ?_, ?_, h5, ?_⟩
      · rw [h1, State.stand_modStand]
        have : n = accessLen a n + (n - accessLen a n) := by omega
        conv => rhs; rw [this, Stand.run_add]
        rfl
      · exact h2
      · intro m hm
        rw [h3 m hm, State.stand_modStand_ne _ _ hm]
      · rw [h4, State.stand_modStand]; rfl
      · intro b
        rw [h6 b, State.stand_modStand, Stand.power_grant]

/-- `readAcc_clean` for a whole read. -/
theorem State.readWords_clean (s : State) (st req op a n : Nat) (h : (s.stand st).clean) :
    let r := s.readWords st req op a n
    r.1 = (s.stand st).run a n ∧ r.2 = { s with stands := r.2.stands } ∧ (∀ m, m ≠ st → r.2.stand m = s.stand m) ∧
      r.2.stand st = { s.stand st with banks := (r.2.stand st).banks } ∧ (r.2.stand st).clean ∧
      ∀ b, ((r.2.stand st).bank b).power = ((s.stand st).bank b).power :=
  State.readAcc_clean st req op n s a n (Nat.le_refl n) h

/-- What any read may do to the state: stands, counters and records, and of the stands only its own, whose registers, words and credits
stay. -/
structure State.readsAt (s t : State) (st : Nat) : Prop where
  frame : t = { s with stands := t.stands, counters := t.counters, rel := t.rel }
  others : ∀ m, m ≠ st → t.stand m = s.stand m
  own : t.stand st = { s.stand st with banks := (t.stand st).banks, units := (t.stand st).units, quarantined := (t.stand st).quarantined }
  power : ∀ b, ((t.stand st).bank b).power = ((s.stand st).bank b).power
theorem State.readsAt_refl (s : State) (st : Nat) : s.readsAt s st := ⟨rfl, fun _ _ => rfl, rfl, fun _ => rfl⟩
theorem State.readsAt.trans {s t u : State} {st : Nat} (h : s.readsAt t st) (k : t.readsAt u st) : s.readsAt u st := by
  obtain ⟨h1, h2, h3, h4⟩ := h
  obtain ⟨k1, k2, k3, k4⟩ := k
  refine ⟨by rw [k1, h1], fun m hm => by rw [k2 m hm, h2 m hm], by rw [k3, h3], fun b => by rw [k4, h4]⟩
theorem State.readsAt_count (s : State) (st k n : Nat) : s.readsAt (s.count k n) st := ⟨rfl, fun _ _ => rfl, rfl, fun _ => rfl⟩
theorem State.readsAt_log (s : State) (st : Nat) (r : ErrRec) : s.readsAt (s.log r) st := by
  refine ⟨?_, fun m _ => State.stand_log s r m, by rw [State.stand_log], fun b => by rw [State.stand_log]⟩
  rw [State.log_frame]
/-- A change of one bank that keeps its power. -/
theorem State.readsAt_modBank (s : State) (st b : Nat) (f : SpadBank → SpadBank) (h : ∀ k, (f k).power = k.power) :
    s.readsAt (s.modStand st fun x => x.modBank b f) st := by
  refine ⟨rfl, fun m hm => State.stand_modStand_ne s _ hm, by rw [State.stand_modStand]; rfl, fun k => ?_⟩
  rw [State.stand_modStand]
  by_cases e : k = b
  · subst e; rw [Stand.bank_modBank, h]
  · rw [Stand.bank_modBank_ne _ _ e]
theorem State.readsAt_vacate (s : State) (st p : Nat) : s.readsAt (s.vacate st p) st := by
  refine ⟨rfl, fun m hm => ?_, ?_, fun b => ?_⟩
  · rw [State.vacate, State.stand_modStand_ne _ _ hm]; rfl
  · simp only [State.vacate, State.stand_modStand, State.stand_count]
  · simp only [State.vacate, State.stand_modStand, State.stand_count, Stand.bank]
theorem State.readsAt_foldl {α : Type} (st : Nat) (f : State → α → State) (h : ∀ (s : State) a, s.readsAt (f s a) st) :
    ∀ (l : List α) (s : State), s.readsAt (l.foldl f s) st
  | [], s => s.readsAt_refl st
  | a :: l, s => State.readsAt.trans (h s a) (State.readsAt_foldl st f h l (f s a))
/-- A stand marked as quarantined, counted and recorded. -/
theorem State.readsAt_mark (s : State) (st : Nat) (k : Nat) (r : ErrRec) :
    s.readsAt (((s.modStand st fun x => { x with quarantined := true }).count k).log r) st := by
  have h : s.readsAt (s.modStand st fun x => { x with quarantined := true }) st :=
    ⟨rfl, fun m hm => State.stand_modStand_ne s _ hm, by simp only [State.stand_modStand], fun b => by
      simp only [State.stand_modStand, Stand.bank]⟩
  exact (h.trans (State.readsAt_count _ st k 1)).trans (State.readsAt_log _ st r)
theorem State.readsAt_quarantine (s : State) (st c : Nat) : s.readsAt (s.quarantine st c) st := by
  unfold State.quarantine
  split
  · exact s.readsAt_refl st
  · exact (State.readsAt_foldl st _ (fun s p => s.readsAt_vacate st p) (List.range 16) s).trans (State.readsAt_mark _ st _ _)
theorem State.readsAt_rowDegraded (s : State) (st b r : Nat) : s.readsAt (s.rowDegraded st b r) st := by
  unfold State.rowDegraded
  exact (State.readsAt_modBank s st b (fun k => { k with degraded := true }) fun _ => rfl).trans (State.readsAt_log _ st _)
theorem State.readsAt_rowDue (s : State) (st b r : Nat) (ue : Bool) : s.readsAt (s.rowDue st b r ue) st := by
  unfold State.rowDue
  dsimp only
  split
  · exact State.readsAt_modBank s st b _ fun _ => rfl
  · have h := State.readsAt_modBank s st b (fun k => { k with due := k.due ++ [(r, ue, s.time.tick)] }) fun _ => rfl
    split
    · exact h.trans (State.readsAt_rowDegraded _ st b r)
    · exact h
theorem State.readsAt_spadUe (s : State) (st b r w op : Nat) : s.readsAt (s.spadUe st b r w op) st := by
  unfold State.spadUe
  exact (((State.readsAt_count s st _ 1).trans (State.readsAt_log _ st _)).trans (State.readsAt_quarantine _ st 0)).trans
    (State.readsAt_rowDue _ st b r true)
theorem State.readsAt_spadCorrected (s : State) (st b r : Nat) : s.readsAt (s.spadCorrected st b r) st := by
  have h := (State.readsAt_count s st 0x523001 1).trans
    (State.readsAt_modBank _ st b (fun k => { k with corr := Tab.set 0 k.corr r (Tab.get 0 k.corr r + 1) }) fun _ => rfl)
  unfold State.spadCorrected
  dsimp only
  split
  · exact h.trans (State.readsAt_rowDue _ st b r false)
  · exact h
theorem State.readsAt_readCodes (st op : Nat) : ∀ (n : Nat) (s : State) (a : Nat), s.readsAt (s.readCodes st op a n) st
  | 0, s, _ => s.readsAt_refl st
  | n + 1, s, a => by
    simp only [State.readCodes]
    refine State.readsAt.trans ?_ (State.readsAt_readCodes st op n _ (a + 1))
    split
    · exact s.readsAt_refl st
    · split
      · exact State.readsAt_spadCorrected ..
      · exact State.readsAt_spadUe ..
/-- Any read of a scratchpad. -/
theorem State.readsAt_readAcc (st req op : Nat) : ∀ (fuel : Nat) (s : State) (a n : Nat), s.readsAt (s.readAcc st req op fuel a n).2 st
  | 0, s, _, _ => s.readsAt_refl st
  | fuel + 1, s, a, n => by
    simp only [State.readAcc]
    split
    · exact s.readsAt_refl st
    · refine State.readsAt.trans ?_ (State.readsAt_readAcc st req op fuel _ _ _)
      refine State.readsAt.trans ?_ (State.readsAt_modBank _ st _ _ fun _ => rfl)
      split
      · exact State.readsAt_log ..
      · exact State.readsAt_readCodes ..
theorem State.readsAt_readWords (s : State) (st req op a n : Nat) : s.readsAt (s.readWords st req op a n).2 st :=
  State.readsAt_readAcc st req op n s a n

/-! ## Writes -/

/-- Offset of a word address from a, round the scratchpad. -/
def gap (a b : Nat) : Nat := (wa b + 65536 - wa a) % 65536

/-- One access stores its words in its row. -/
theorem Stand.word_setRun (x : Stand) (a : Nat) (ws : List Word) (hw : wa a + ws.length ≤ 65536) (w : Tab Nat) (b : Nat) :
    Stand.word { x with spad := Tab.setRun 0 x.spad (wa a) ws, wrongBits := w } b =
      if gap a b < ws.length then ws.getD (gap a b) 0 else x.word b := by
  have ha : wa a < 65536 := Nat.mod_lt _ (by decide)
  have hb : wa b < 65536 := Nat.mod_lt _ (by decide)
  simp only [Stand.word]
  by_cases h : gap a b < ws.length
  · rw [if_pos h]
    unfold gap at *
    have e : wa b = wa a + (wa b + 65536 - wa a) % 65536 := by omega
    conv => lhs; rw [e]
    exact Tab.get_setRun_in 0 ws x.spad (wa a) _ h
  · rw [if_neg h]
    unfold gap at h
    exact Tab.get_setRun_out 0 ws x.spad (wa a) (wa b) (by omega)

/-- A write while no bank is OFF: the words stand from a on, round the scratchpad; nothing else of the stand changes but codes and
grants. -/
theorem State.writeAcc_on (st req op fuel : Nat) : ∀ (s : State) (a : Nat) (ws : List Word), ws.length ≤ fuel → ws.length ≤ 65536 →
    (∀ b, ((s.stand st).bank b).power ≠ .off) →
    let t := s.writeAcc st req op fuel a ws
    t = { s with stands := t.stands } ∧ (∀ m, m ≠ st → t.stand m = s.stand m) ∧ (s.stand st).sameBut (t.stand st) ∧
      (∀ b, ((t.stand st).bank b).power = ((s.stand st).bank b).power) ∧
      ∀ b, (t.stand st).word b = if gap a b < ws.length then ws.getD (gap a b) 0 else (s.stand st).word b := by
  induction fuel with
  | zero =>
    intro s a ws hf hl hc
    obtain rfl : ws = [] := List.eq_nil_of_length_eq_zero (by omega)
    exact ⟨rfl, fun _ _ => rfl, rfl, fun _ => rfl, fun _ => by simp [State.writeAcc]⟩
  | succ fuel ih =>
    intro s a ws hf hl hc
    by_cases h0 : ws = []
    · subst h0
      exact ⟨rfl, fun _ _ => rfl, rfl, fun _ => rfl, fun _ => by simp [State.writeAcc]⟩
    · have hpos : 0 < ws.length := List.length_pos_of_ne_nil h0
      have hk := accessLen_le a ws.length
      have hp := accessLen_pos a hpos
      have hrow : accessLen a ws.length ≤ 64 - wa a % 64 := by unfold accessLen; omega
      have ha : wa a < 65536 := Nat.mod_lt _ (by decide)
      have htk : (ws.take (accessLen a ws.length)).length = accessLen a ws.length := by simp only [List.length_take]; omega
      simp only [State.writeAcc, if_neg h0, hc (Machine.bankOf a), if_false]
      generalize hs1 : (State.modStand (State.modStand s st _) st _) = s1
      have e1 : s1.stand st = ({ s.stand st with
          spad := Tab.setRun 0 (s.stand st).spad (wa a) (ws.take (accessLen a ws.length)),
          wrongBits := Tab.clear (s.stand st).wrongBits (fun i => decide (wa a ≤ i ∧ i < wa a + accessLen a ws.length)) } : Stand).modBank
            (Machine.bankOf a) (fun b => { b with lastGrant := req }) := by
        subst hs1; simp only [State.stand_modStand]
      have e2 : ∀ m, m ≠ st → s1.stand m = s.stand m := by
        intro m hm; subst hs1; rw [State.stand_modStand_ne _ _ hm, State.stand_modStand_ne _ _ hm]
      have e3 : s1 = { s with stands := s1.stands } := by subst hs1; rfl
      have e4 : ∀ b, ((s1.stand st).bank b).power = ((s.stand st).bank b).power := by
        intro b; rw [e1, Stand.power_grant]; rfl
      obtain ⟨h1, h2, h3, h4, h5⟩ := ih s1 (a + accessLen a ws.length) (ws.drop (accessLen a ws.length)) (by simp; omega) (by simp; omega)
        (fun b => by rw [e4]; exact hc b)
      refine ⟨?_, ?_, ?_, ?_, ?_⟩
      · rw [h1, e3]
      · intro m hm; rw [h2 m hm, e2 m hm]
      · unfold Stand.sameBut at h3 ⊢; rw [h3, e1]; rfl
      · intro b; rw [h4, e4]
      · intro b
        have hb : wa b < 65536 := Nat.mod_lt _ (by decide)
        have ea : wa (a + accessLen a ws.length) = (wa a + accessLen a ws.length) % 65536 := by unfold wa; omega
        rw [h5 b, e1, Stand.word_modBank, Stand.word_setRun _ _ _ (by omega), htk]
        simp only [List.length_drop, List.getD_eq_getElem?_getD, List.getElem?_drop, List.getElem?_take]
        have hg : gap (a + accessLen a ws.length) b = (wa b + 65536 - (wa a + accessLen a ws.length) % 65536) % 65536 := by
          unfold gap; rw [ea]
        by_cases c1 : gap a b < accessLen a ws.length
        · have : ¬ gap (a + accessLen a ws.length) b < ws.length - accessLen a ws.length := by rw [hg]; unfold gap at c1; omega
          simp [this, c1]; omega
        · by_cases c2 : gap a b < ws.length
          · have e : accessLen a ws.length + gap (a + accessLen a ws.length) b = gap a b := by rw [hg]; unfold gap at *; omega
            have : gap (a + accessLen a ws.length) b < ws.length - accessLen a ws.length := by omega
            simp [this, c2, e]
          · have : ¬ gap (a + accessLen a ws.length) b < ws.length - accessLen a ws.length := by
              rw [hg]; unfold gap at c1 c2; omega
            simp [this, c1, c2]

/-- `writeAcc_on` for a whole write. -/
theorem State.writeWords_on (s : State) (st req op a : Nat) (ws : List Word) (hl : ws.length ≤ 65536)
    (h : ∀ b, ((s.stand st).bank b).power ≠ .off) :
    let t := s.writeWords st req op a ws
    t = { s with stands := t.stands } ∧ (∀ m, m ≠ st → t.stand m = s.stand m) ∧ (s.stand st).sameBut (t.stand st) ∧
      (∀ b, ((t.stand st).bank b).power = ((s.stand st).bank b).power) ∧
      ∀ b, (t.stand st).word b = if gap a b < ws.length then ws.getD (gap a b) 0 else (s.stand st).word b :=
  State.writeAcc_on st req op ws.length s a ws (Nat.le_refl _) hl h

end Sys2Proof.Machine
end

