-- ==== Sys2Proof/Laws/Credits.lean ====
section
/-! SUPPORT. What credits and windows do to the state: which unit an answer, a grant or a close reaches, and what stays (R106 to R116). -/

namespace Sys2Proof.Machine

/-! ## Slots and rows -/

@[simp] theorem CreditUnit.win_modWin (u : CreditUnit) (k : Nat) (f : Window → Window) : (u.modWin k f).win k = f (u.win k) := by
  simp [CreditUnit.win, CreditUnit.modWin]
theorem CreditUnit.win_modWin_ne (u : CreditUnit) {k j : Nat} (f : Window → Window) (h : j ≠ k) : (u.modWin k f).win j = u.win j := by
  simp [CreditUnit.win, CreditUnit.modWin, Tab.get_set_ne _ _ _ h]
@[simp] theorem Window.row_putRow (w : Window) (r : Nat) (v : RowSt) : (w.putRow r v).row r = v := by
  simp [Window.row, Window.putRow]
theorem Window.row_putRow_ne (w : Window) {r q : Nat} (v : RowSt) (h : q ≠ r) : (w.putRow r v).row q = w.row q := by
  simp [Window.row, Window.putRow, Tab.get_set_ne _ _ _ h]
/-- One value put in several rows. -/
theorem Window.row_putRows (v : RowSt) (rows : List Nat) : ∀ (w : Window) (q : Nat),
    (rows.foldl (fun w r => w.putRow r v) w).row q = if q ∈ rows then v else w.row q := by
  induction rows with
  | nil => intro w q; simp
  | cons r rows ih =>
    intro w q
    rw [List.foldl_cons, ih]
    by_cases h : q ∈ rows
    · simp [h]
    · by_cases e : q = r
      · subst e; simp [h]
      · simp [h, e, Window.row_putRow_ne w v e]
/-- Rows apart, nothing of a window changes. -/
theorem Window.putRows_frame (v : RowSt) (rows : List Nat) : ∀ w : Window,
    rows.foldl (fun w r => w.putRow r v) w = { w with rows := (rows.foldl (fun w r => w.putRow r v) w).rows } := by
  induction rows with
  | nil => intro w; rfl
  | cons r rows ih => intro w; rw [List.foldl_cons, ih]; rfl

@[simp] theorem State.credit_modCredit (s : State) (n : Nat) (f : CreditUnit → CreditUnit) : (s.modCredit n f).credit n = f (s.credit n) := by
  unfold State.credit State.modCredit
  by_cases h : n < 5000
  · simp [h]
  · simp [h, State.endpoint, State.modEndpoint]
@[simp] theorem State.credit_send (s : State) (p : Packet) (n : Nat) : (s.send p).credit n = s.credit n := rfl
@[simp] theorem State.credit_count (s : State) (k m n : Nat) : (s.count k m).credit n = s.credit n := rfl
@[simp] theorem State.credit_sendGrant (s : State) (n d i w st g m t k : Nat) : (s.sendGrant n d i w st g m t).credit k = s.credit k := rfl

/-! ## What the credit unit of one node may change -/

/-- Packets sent, counters, and the credit unit of node n. -/
structure State.creditsAt (s t : State) (n : Nat) : Prop where
  frame : t = { s with stands := t.stands, grove := t.grove, counters := t.counters, mesh := t.mesh }
  stand : ∀ m, m ≠ n ∨ 5000 ≤ n → t.stand m = s.stand m
  own : t.stand n = { s.stand n with credit := (t.stand n).credit }
  endpoint : ∀ m, m ≠ n ∨ n < 5000 → t.endpoint m = s.endpoint m
  mesh : ∃ l, t.mesh = s.mesh ++ l

theorem State.creditsAt_refl (s : State) (n : Nat) : s.creditsAt s n := ⟨rfl, fun _ _ => rfl, rfl, fun _ _ => rfl, [], by simp⟩
theorem State.creditsAt.trans {s t u : State} {n : Nat} (h : s.creditsAt t n) (k : t.creditsAt u n) : s.creditsAt u n := by
  obtain ⟨h1, h2, h3, h4, l, h5⟩ := h
  obtain ⟨k1, k2, k3, k4, m, k5⟩ := k
  refine ⟨by rw [k1, h1], fun m hm => by rw [k2 m hm, h2 m hm], by rw [k3, h3], fun m hm => by rw [k4 m hm, h4 m hm], l ++ m, ?_⟩
  rw [k5, h5, List.append_assoc]
theorem State.creditsAt_count (s : State) (n k m : Nat) : s.creditsAt (s.count k m) n :=
  ⟨rfl, fun _ _ => rfl, rfl, fun _ _ => rfl, [], by simp [State.count]⟩
theorem State.creditsAt_send (s : State) (n : Nat) (p : Packet) : s.creditsAt (s.send p) n :=
  ⟨rfl, fun _ _ => rfl, rfl, fun _ _ => rfl, [p], rfl⟩
theorem State.creditsAt_modCredit (s : State) (n : Nat) (f : CreditUnit → CreditUnit) : s.creditsAt (s.modCredit n f) n := by
  unfold State.modCredit
  split
  · rename_i h
    refine ⟨rfl, fun m hm => State.stand_modStand_ne s _ (by omega), by simp only [State.stand_modStand], fun _ _ => rfl, [], by simp⟩
  · rename_i h
    refine ⟨rfl, fun _ _ => rfl, rfl, fun m hm => ?_, [], by simp⟩
    simp [State.endpoint, State.modEndpoint, Tab.get_set_ne _ _ _ (show m ≠ n by omega)]
theorem State.creditsAt_sendGrant (s : State) (n d i w st g m t : Nat) : s.creditsAt (s.sendGrant n d i w st g m t) n :=
  State.creditsAt_send s n _
/-- A grant (R107). -/
theorem State.creditsAt_grant (s : State) (n : Nat) (q : CreditReq) (rows : List Nat) : s.creditsAt (s.grant n q rows) n := by
  unfold State.grant
  exact ((State.creditsAt_modCredit s n _).trans (State.creditsAt_count _ n _ _)).trans (State.creditsAt_sendGrant ..)
/-- An answer to a CREQ (R108). -/
theorem State.creditsAt_answerCreq (s : State) (n : Nat) (q : CreditReq) : s.creditsAt (s.answerCreq n q) n := by
  unfold State.answerCreq
  dsimp only
  repeat' split
  · exact State.creditsAt_sendGrant ..
  · exact State.creditsAt_sendGrant ..
  · exact State.creditsAt_grant ..
  · exact State.creditsAt_modCredit ..
  · exact (State.creditsAt_count s n _ 1).trans (State.creditsAt_sendGrant ..)
theorem State.creditsAt_serveGo (n : Nat) : ∀ (l : List CreditReq) (bs : List Nat) (s : State), s.creditsAt (State.serveGo n l bs s) n
  | [], _, s => s.creditsAt_refl n
  | q :: l, bs, s => by
    unfold State.serveGo
    dsimp only
    repeat' split
    · exact ((State.creditsAt_modCredit s n _).trans (State.creditsAt_sendGrant ..)).trans (State.creditsAt_serveGo n l bs _)
    · exact State.creditsAt_serveGo n l bs s
    · exact ((State.creditsAt_modCredit s n _).trans (State.creditsAt_grant ..)).trans (State.creditsAt_serveGo n l bs _)
    · exact State.creditsAt_serveGo n l _ s
/-- Serving a credit queue (R108, R115). -/
theorem State.creditsAt_serveQueue (s : State) (n : Nat) : s.creditsAt (s.serveQueue n) n := State.creditsAt_serveGo n _ _ s
/-- An empty queue has nothing to serve. -/
theorem State.serveQueue_nil (s : State) (n : Nat) (h : (s.credit n).queue = []) : s.serveQueue n = s := by
  unfold State.serveQueue
  rw [h]
  rfl

/-! ## Settling (R115) -/

/-- What a stand keeps while its closing banks and windows finish. -/
def Stand.settled (x y : Stand) : Prop :=
  y = { x with credit := y.credit, spad := y.spad, wrongBits := y.wrongBits, banks := y.banks }
theorem Stand.settled_bankOff (x : Stand) (b : Nat) : x.settled (x.bankOff b) := rfl
theorem Stand.settled_foldl {α : Type} (f : Stand → α → Stand) (h : ∀ (x : Stand) a, x.settled (f x a)) :
    ∀ (l : List α) (x : Stand), x.settled (l.foldl f x)
  | [], _ => rfl
  | a :: l, x => by
    have k := Stand.settled_foldl f h l (f x a)
    unfold Stand.settled at *
    rw [List.foldl_cons, k, h x a]
theorem Stand.settled_settle (x : Stand) : x.settled x.settle := by
  unfold Stand.settle
  dsimp only
  have h := Stand.settled_foldl (fun (x : Stand) b =>
    if (x.bank b).power = .closing ∧ (x.credit.inBank b).all (fun k => (x.credit.win k).full) then x.bankOff b else x)
    (by intro x b; split
        · exact Stand.settled_bankOff x b
        · rfl) (List.range 32) x
  unfold Stand.settled at h ⊢
  rw [h]
/-- A change of a stand or of an endpoint reaches nothing else. -/
theorem State.modStand_frame (s : State) (st : Nat) (f : Stand → Stand) : s.modStand st f = { s with stands := (s.modStand st f).stands } := rfl
theorem State.modEndpoint_frame (s : State) (n : Nat) (f : Endpoint → Endpoint) :
    s.modEndpoint n f = { s with grove := (s.modEndpoint n f).grove } := rfl
theorem State.stand_modEndpoint (s : State) (n m : Nat) (f : Endpoint → Endpoint) : (s.modEndpoint n f).stand m = s.stand m := rfl
/-- Settling a stand changes its own credit unit, words and banks. -/
theorem State.settle_stand (s : State) (n : Nat) (h : n < 5000) :
    s.settle n = { s with stands := (s.settle n).stands } ∧ (∀ m, m ≠ n → (s.settle n).stand m = s.stand m) ∧
      (s.settle n).stand n = (s.stand n).settle := by
  unfold State.settle
  rw [if_pos h]
  exact ⟨State.modStand_frame s n _, fun m hm => State.stand_modStand_ne s _ hm, State.stand_modStand s n _⟩
/-- Settling a port endpoint leaves every stand. -/
theorem State.settle_endpoint (s : State) (n : Nat) (h : ¬ n < 5000) :
    s.settle n = { s with grove := (s.settle n).grove } ∧ ∀ m, (s.settle n).stand m = s.stand m := by
  unfold State.settle
  rw [if_neg h]
  exact ⟨State.modEndpoint_frame s n _, fun m => State.stand_modEndpoint s n m _⟩

end Sys2Proof.Machine
end

