-- ==== Sys2Proof/Laws/PerInstr.lean ====
section
/-! SUPPORT. The per-command family FieldChecks: only a Cotis-2 instruction can fail the field checks of R189. -/

namespace Sys2Proof.Laws.FieldChecks

/-- A command that fails the field checks is a Cotis-2 instruction. -/
def Statement (i : Instr) : Prop := i.wellFormed = false → i.isCotis = true

theorem nop : ∀ a0, Statement (.nop a0) := fun _ _ => rfl
theorem li : ∀ a0 a1 a2, Statement (.li a0 a1 a2) := fun _ _ _ _ => rfl
theorem alu : ∀ a0 a1 a2 a3 a4 a5 a6, Statement (.alu a0 a1 a2 a3 a4 a5 a6) := fun _ _ _ _ _ _ _ _ => rfl
theorem ldw : ∀ a0 a1 a2 a3, Statement (.ldw a0 a1 a2 a3) := fun _ _ _ _ _ => rfl
theorem stw : ∀ a0 a1 a2 a3, Statement (.stw a0 a1 a2 a3) := fun _ _ _ _ _ => rfl
theorem br : ∀ a0 a1 a2 a3 a4, Statement (.br a0 a1 a2 a3 a4) := fun _ _ _ _ _ _ => rfl
theorem bend : ∀ a0, Statement (.bend a0) := fun _ _ => rfl
theorem implicitBend : ∀ a0, Statement (.implicitBend a0) := fun _ h => h.symm
theorem wait : ∀ a0 a1 a2 a3 a4 a5 a6, Statement (.wait a0 a1 a2 a3 a4 a5 a6) := fun _ _ _ _ _ _ _ _ => rfl
theorem rdctl : ∀ a0 a1 a2 a3 a4, Statement (.rdctl a0 a1 a2 a3 a4) := fun _ _ _ _ _ _ => rfl
theorem vld : ∀ a0 a1 a2 a3 a4, Statement (.vld a0 a1 a2 a3 a4) := fun _ _ _ _ _ _ => rfl
theorem pass : ∀ a0 a1 a2 a3 a4 a5 a6 a7 a8 a9, Statement (.pass a0 a1 a2 a3 a4 a5 a6 a7 a8 a9) := fun _ _ _ _ _ _ _ _ _ _ _ => rfl
theorem passVerdict : ∀ a0 a1 a2, Statement (.passVerdict a0 a1 a2) := fun _ _ _ h => h.symm
theorem rqnt : ∀ a0 a1 a2 a3 a4 a5 a6 a7 a8, Statement (.rqnt a0 a1 a2 a3 a4 a5 a6 a7 a8) := fun _ _ _ _ _ _ _ _ _ _ => rfl
theorem requantizerOutput : ∀ a0 a1, Statement (.requantizerOutput a0 a1) := fun _ _ h => h.symm
theorem topen : ∀ a0 a1, Statement (.topen a0 a1) := fun _ _ _ => rfl
theorem tclose : ∀ a0, Statement (.tclose a0) := fun _ _ => rfl
theorem tileVerdict : ∀ a0 a1, Statement (.tileVerdict a0 a1) := fun _ _ h => h.symm
theorem interlockRelease : ∀ a0 a1, Statement (.interlockRelease a0 a1) := fun _ _ h => h.symm
theorem pendWaitRelease : ∀ a0 a1, Statement (.pendWaitRelease a0 a1) := fun _ _ h => h.symm
theorem wopen : ∀ a0 a1 a2 a3 a4, Statement (.wopen a0 a1 a2 a3 a4) := fun _ _ _ _ _ _ => rfl
theorem wclose : ∀ a0 a1, Statement (.wclose a0 a1) := fun _ _ _ => rfl
theorem wrel : ∀ a0 a1 a2, Statement (.wrel a0 a1 a2) := fun _ _ _ _ => rfl
theorem bpdn : ∀ a0 a1, Statement (.bpdn a0 a1) := fun _ _ _ => rfl
theorem bwake : ∀ a0 a1, Statement (.bwake a0 a1) := fun _ _ _ => rfl
theorem bankWakeDone : ∀ a0 a1, Statement (.bankWakeDone a0 a1) := fun _ _ h => h.symm
theorem gateWaitExpiry : ∀ a0 a1, Statement (.gateWaitExpiry a0 a1) := fun _ _ h => h.symm
theorem creq : ∀ a0 a1 a2 a3 a4 a5 a6, Statement (.creq a0 a1 a2 a3 a4 a5 a6) := fun _ _ _ _ _ _ _ _ => rfl
theorem creqReceive : ∀ a0 a1, Statement (.creqReceive a0 a1) := fun _ _ h => h.symm
theorem cgrantReceive : ∀ a0 a1, Statement (.cgrantReceive a0 a1) := fun _ _ h => h.symm
theorem creditVoidReceive : ∀ a0 a1, Statement (.creditVoidReceive a0 a1) := fun _ _ h => h.symm
theorem awayReceive : ∀ a0 a1, Statement (.awayReceive a0 a1) := fun _ _ h => h.symm
theorem rwr : ∀ a0 a1 a2 a3 a4 a5 a6 a7 a8 a9, Statement (.rwr a0 a1 a2 a3 a4 a5 a6 a7 a8 a9) := fun _ _ _ _ _ _ _ _ _ _ _ => rfl
theorem mwr : ∀ a0 a1 a2 a3 a4 a5 a6 a7 a8 a9, Statement (.mwr a0 a1 a2 a3 a4 a5 a6 a7 a8 a9) := fun _ _ _ _ _ _ _ _ _ _ _ => rfl
theorem remoteWriteReceive : ∀ a0 a1, Statement (.remoteWriteReceive a0 a1) := fun _ _ h => h.symm
theorem rowFilled : ∀ a0 a1 a2, Statement (.rowFilled a0 a1 a2) := fun _ _ _ h => h.symm
theorem red : ∀ a0 a1 a2 a3 a4 a5 a6, Statement (.red a0 a1 a2 a3 a4 a5 a6) := fun _ _ _ _ _ _ _ _ => rfl
theorem dma : ∀ a0 a1 a2 a3 a4 a5 a6 a7, Statement (.dma a0 a1 a2 a3 a4 a5 a6 a7) := fun _ _ _ _ _ _ _ _ _ => rfl
theorem barv : ∀ a0 a1, Statement (.barv a0 a1) := fun _ _ _ => rfl
theorem bwt : ∀ a0 a1, Statement (.bwt a0 a1) := fun _ _ _ => rfl
theorem barrierPhaseComplete : ∀ a0, Statement (.barrierPhaseComplete a0) := fun _ h => h.symm
theorem xld : ∀ a0 a1 a2 a3 a4 a5, Statement (.xld a0 a1 a2 a3 a4 a5) := fun _ _ _ _ _ _ _ => rfl
theorem mma : ∀ a0 a1 a2 a3 a4 a5 a6 a7 a8, Statement (.mma a0 a1 a2 a3 a4 a5 a6 a7 a8) := fun _ _ _ _ _ _ _ _ _ _ => rfl
theorem mwo : ∀ a0 a1 a2 a3 a4 a5 a6, Statement (.mwo a0 a1 a2 a3 a4 a5 a6) := fun _ _ _ _ _ _ _ _ => rfl
theorem ada : ∀ a0 a1 a2 a3 a4 a5, Statement (.ada a0 a1 a2 a3 a4 a5) := fun _ _ _ _ _ _ _ => rfl
theorem adb : ∀ a0 a1 a2 a3 a4 a5, Statement (.adb a0 a1 a2 a3 a4 a5) := fun _ _ _ _ _ _ _ => rfl
theorem vop : ∀ a0 a1 a2 a3 a4 a5 a6 a7, Statement (.vop a0 a1 a2 a3 a4 a5 a6 a7) := fun _ _ _ _ _ _ _ _ _ => rfl
theorem qnt : ∀ a0 a1 a2 a3 a4 a5 a6, Statement (.qnt a0 a1 a2 a3 a4 a5 a6) := fun _ _ _ _ _ _ _ _ => rfl
theorem vtopk : ∀ a0 a1 a2 a3 a4 a5 a6, Statement (.vtopk a0 a1 a2 a3 a4 a5 a6) := fun _ _ _ _ _ _ _ _ => rfl
theorem vsmp : ∀ a0 a1 a2 a3 a4, Statement (.vsmp a0 a1 a2 a3 a4) := fun _ _ _ _ _ _ => rfl
theorem vacc : ∀ a0 a1 a2 a3 a4, Statement (.vacc a0 a1 a2 a3 a4) := fun _ _ _ _ _ _ => rfl
theorem hazard : ∀ a0 a1 a2 a3 a4, Statement (.hazard a0 a1 a2 a3 a4) := fun _ _ _ _ _ h => h.symm
theorem beatBoundary : ∀ a0 a1, Statement (.beatBoundary a0 a1) := fun _ _ h => h.symm
theorem beatLaunch : Statement .beatLaunch := fun h => h.symm
theorem beatWatchdog : ∀ a0, Statement (.beatWatchdog a0) := fun _ h => h.symm
theorem standReset : ∀ a0, Statement (.standReset a0) := fun _ h => h.symm
theorem scratchpadUe : ∀ a0 a1 a2 a3 a4, Statement (.scratchpadUe a0 a1 a2 a3 a4) := fun _ _ _ _ _ h => h.symm
theorem rowRepair : ∀ a0 a1 a2, Statement (.rowRepair a0 a1 a2) := fun _ _ _ h => h.symm
theorem flitCrcFail : ∀ a0 a1 a2, Statement (.flitCrcFail a0 a1 a2) := fun _ _ _ h => h.symm
theorem packetReceive : ∀ a0 a1 a2, Statement (.packetReceive a0 a1 a2) := fun _ _ _ h => h.symm
theorem mcastForward : ∀ a0, Statement (.mcastForward a0) := fun _ h => h.symm
theorem reducePacketArrive : ∀ a0 a1, Statement (.reducePacketArrive a0 a1) := fun _ _ h => h.symm
theorem combiningWindowExpiry : ∀ a0 a1, Statement (.combiningWindowExpiry a0 a1) := fun _ _ h => h.symm
theorem reductionPartArrive : ∀ a0 a1, Statement (.reductionPartArrive a0 a1) := fun _ _ h => h.symm
theorem reductionTimeout : ∀ a0 a1, Statement (.reductionTimeout a0 a1) := fun _ _ h => h.symm
theorem seamWireTest : ∀ a0 a1 a2, Statement (.seamWireTest a0 a1 a2) := fun _ _ _ h => h.symm
theorem meshLinkWireTest : ∀ a0 a1 a2 a3, Statement (.meshLinkWireTest a0 a1 a2 a3) := fun _ _ _ _ h => h.symm
theorem descriptorTimeout : Statement .descriptorTimeout := fun h => h.symm
theorem stepTimeout : ∀ a0, Statement (.stepTimeout a0) := fun _ h => h.symm
theorem suspensionTimeout : ∀ a0, Statement (.suspensionTimeout a0) := fun _ h => h.symm
theorem servingStart : Statement .servingStart := fun h => h.symm
theorem servingDrain : Statement .servingDrain := fun h => h.symm
theorem servingStop : Statement .servingStop := fun h => h.symm
theorem stage : ∀ a0 a1 a2 a3 a4, Statement (.stage a0 a1 a2 a3 a4) := fun _ _ _ _ _ h => h.symm
theorem weightCancel : Statement .weightCancel := fun h => h.symm
theorem requestAgain : Statement .requestAgain := fun h => h.symm
theorem arm : ∀ a0 a1 a2, Statement (.arm a0 a1 a2) := fun _ _ _ h => h.symm
theorem disarm : Statement .disarm := fun h => h.symm
theorem weightActivate : ∀ a0, Statement (.weightActivate a0) := fun _ h => h.symm
theorem scrubNow : Statement .scrubNow := fun h => h.symm
theorem inboxPost : ∀ a0, Statement (.inboxPost a0) := fun _ h => h.symm
theorem shardArrive : ∀ a0, Statement (.shardArrive a0) := fun _ h => h.symm
theorem attemptTimeout : ∀ a0 a1, Statement (.attemptTimeout a0 a1) := fun _ _ h => h.symm
theorem arrayWriteVerifyDone : ∀ a0 a1 a2 a3, Statement (.arrayWriteVerifyDone a0 a1 a2 a3) := fun _ _ _ _ h => h.symm
theorem shardFinalCheck : ∀ a0 a1, Statement (.shardFinalCheck a0 a1) := fun _ _ h => h.symm
theorem scrubRead : ∀ a0 a1 a2, Statement (.scrubRead a0 a1 a2) := fun _ _ _ h => h.symm
theorem adapterLoad : ∀ a0 a1 a2 a3, Statement (.adapterLoad a0 a1 a2 a3) := fun _ _ _ _ h => h.symm
theorem adapterRemove : ∀ a0, Statement (.adapterRemove a0) := fun _ h => h.symm
theorem binaryLoad : ∀ a0 a1, Statement (.binaryLoad a0 a1) := fun _ _ h => h.symm
theorem binaryActivate : ∀ a0, Statement (.binaryActivate a0) := fun _ h => h.symm
theorem memreqReceive : ∀ a0 a1, Statement (.memreqReceive a0 a1) := fun _ _ h => h.symm
theorem memrspReceive : ∀ a0 a1, Statement (.memrspReceive a0 a1) := fun _ _ h => h.symm
theorem patrolRead : ∀ a0 a1, Statement (.patrolRead a0 a1) := fun _ _ h => h.symm
theorem pseudoChannelRemap : ∀ a0 a1, Statement (.pseudoChannelRemap a0 a1) := fun _ _ h => h.symm
theorem arbiterGrant : ∀ a0, Statement (.arbiterGrant a0) := fun _ h => h.symm
theorem arbiterPark : ∀ a0 a1 a2 a3 a4, Statement (.arbiterPark a0 a1 a2 a3 a4) := fun _ _ _ _ _ h => h.symm
theorem arbiterWatchdog : ∀ a0, Statement (.arbiterWatchdog a0) := fun _ h => h.symm
theorem clearArbiterCounters : ∀ a0, Statement (.clearArbiterCounters a0) := fun _ h => h.symm
theorem resendPoint : ∀ a0, Statement (.resendPoint a0) := fun _ h => h.symm
theorem hostWindowWrite : ∀ a0 a1, Statement (.hostWindowWrite a0 a1) := fun _ _ h => h.symm
theorem hostWindowRead : ∀ a0 a1, Statement (.hostWindowRead a0 a1) := fun _ _ h => h.symm
theorem cxlSnoop : ∀ a0, Statement (.cxlSnoop a0) := fun _ h => h.symm
theorem hostLinkTraining : ∀ a0 a1 a2, Statement (.hostLinkTraining a0 a1 a2) := fun _ _ _ h => h.symm
theorem portModeNegotiation : ∀ a0 a1, Statement (.portModeNegotiation a0 a1) := fun _ _ h => h.symm
theorem blockLockLoss : ∀ a0, Statement (.blockLockLoss a0) := fun _ h => h.symm
theorem helloSend : ∀ a0, Statement (.helloSend a0) := fun _ h => h.symm
theorem hello : ∀ a0 a1, Statement (.hello a0 a1) := fun _ _ h => h.symm
theorem helloLoss : ∀ a0, Statement (.helloLoss a0) := fun _ h => h.symm
theorem transportFrameReceive : ∀ a0 a1 a2, Statement (.transportFrameReceive a0 a1 a2) := fun _ _ _ h => h.symm
theorem ack : ∀ a0 a1 a2 a3, Statement (.ack a0 a1 a2 a3) := fun _ _ _ _ h => h.symm
theorem retransmitTimeout : ∀ a0 a1, Statement (.retransmitTimeout a0 a1) := fun _ _ h => h.symm
theorem relay : ∀ a0 a1, Statement (.relay a0 a1) := fun _ _ h => h.symm
theorem reduce : ∀ a0 a1, Statement (.reduce a0 a1) := fun _ _ h => h.symm
theorem reroute : ∀ a0, Statement (.reroute a0) := fun _ h => h.symm
theorem arrive : ∀ a0 a1 a2, Statement (.arrive a0 a1 a2) := fun _ _ _ h => h.symm
theorem complete : ∀ a0 a1, Statement (.complete a0 a1) := fun _ _ h => h.symm
theorem withdraw : ∀ a0 a1 a2, Statement (.withdraw a0 a1 a2) := fun _ _ _ h => h.symm
theorem withdrawn : ∀ a0 a1, Statement (.withdrawn a0 a1) := fun _ _ h => h.symm
theorem shardReq : ∀ a0 a1 a2 a3, Statement (.shardReq a0 a1 a2 a3) := fun _ _ _ _ h => h.symm
theorem shardData : ∀ a0 a1 a2 a3 a4, Statement (.shardData a0 a1 a2 a3 a4) := fun _ _ _ _ _ h => h.symm
theorem neighbourSolicitation : ∀ a0 a1 a2, Statement (.neighbourSolicitation a0 a1 a2) := fun _ _ _ h => h.symm
theorem cableInsert : ∀ a0 a1, Statement (.cableInsert a0 a1) := fun _ _ h => h.symm
theorem cableRemove : ∀ a0, Statement (.cableRemove a0) := fun _ h => h.symm
theorem coppicingStart : ∀ a0 a1 a2, Statement (.coppicingStart a0 a1 a2) := fun _ _ _ h => h.symm
theorem repairSequencerDone : ∀ a0, Statement (.repairSequencerDone a0) := fun _ h => h.symm
theorem selfTestStep : ∀ a0 a1 a2 a3 a4, Statement (.selfTestStep a0 a1 a2 a3 a4) := fun _ _ _ _ _ h => h.symm
theorem forcedClearing : ∀ a0 a1, Statement (.forcedClearing a0 a1) := fun _ _ h => h.symm
theorem voltageMarginCommand : ∀ a0, Statement (.voltageMarginCommand a0) := fun _ h => h.symm
theorem sliceCommand : ∀ a0 a1 a2 a3 a4, Statement (.sliceCommand a0 a1 a2 a3 a4) := fun _ _ _ _ _ h => h.symm
theorem groveFecFailure : ∀ a0, Statement (.groveFecFailure a0) := fun _ h => h.symm
theorem faultStop : ∀ a0, Statement (.faultStop a0) := fun _ h => h.symm
theorem foresterWatchdog : Statement .foresterWatchdog := fun h => h.symm
theorem foresterRestart : Statement .foresterRestart := fun h => h.symm
theorem errorRecordWrite : Statement .errorRecordWrite := fun h => h.symm
theorem cperRemove : ∀ a0, Statement (.cperRemove a0) := fun _ h => h.symm
theorem wallClockWrite : ∀ a0, Statement (.wallClockWrite a0) := fun _ h => h.symm
theorem adcResult : ∀ a0 a1, Statement (.adcResult a0 a1) := fun _ _ h => h.symm
theorem adcTrigger : ∀ a0, Statement (.adcTrigger a0) := fun _ h => h.symm
theorem diodeReading : ∀ a0 a1 a2, Statement (.diodeReading a0 a1 a2) := fun _ _ _ h => h.symm
theorem diodeReadingTimeout : ∀ a0, Statement (.diodeReadingTimeout a0) := fun _ h => h.symm
theorem thermistorReading : ∀ a0, Statement (.thermistorReading a0) := fun _ h => h.symm
theorem throttleRelease : Statement .throttleRelease := fun h => h.symm
theorem powerLevelRequest : ∀ a0, Statement (.powerLevelRequest a0) := fun _ h => h.symm
theorem orderlyStopClockStop : Statement .orderlyStopClockStop := fun h => h.symm
theorem immediateStop : Statement .immediateStop := fun h => h.symm
theorem thermalTrip : ∀ a0, Statement (.thermalTrip a0) := fun _ h => h.symm
theorem calibrationCommand : ∀ a0, Statement (.calibrationCommand a0) := fun _ h => h.symm
theorem adcCalibrationRun : ∀ a0 a1 a2, Statement (.adcCalibrationRun a0 a1 a2) := fun _ _ _ h => h.symm
theorem arrayCalibrationDue : ∀ a0, Statement (.arrayCalibrationDue a0) := fun _ h => h.symm
theorem vauxValid : ∀ a0, Statement (.vauxValid a0) := fun _ h => h.symm
theorem vauxLoss : ∀ a0, Statement (.vauxLoss a0) := fun _ h => h.symm
theorem railSequence : ∀ a0, Statement (.railSequence a0) := fun _ h => h.symm
theorem brownout : ∀ a0 a1, Statement (.brownout a0 a1) := fun _ _ h => h.symm
theorem phaseFailed : ∀ a0 a1, Statement (.phaseFailed a0 a1) := fun _ _ h => h.symm
theorem powerSample : ∀ a0, Statement (.powerSample a0) := fun _ h => h.symm
theorem coldReset : ∀ a0, Statement (.coldReset a0) := fun _ h => h.symm
theorem warmReset : ∀ a0, Statement (.warmReset a0) := fun _ h => h.symm
theorem unitResetCommand : ∀ a0, Statement (.unitResetCommand a0) := fun _ h => h.symm
theorem perstN : Statement .perstN := fun h => h.symm
theorem fatalReset : ∀ a0 a1, Statement (.fatalReset a0 a1) := fun _ _ h => h.symm
theorem fatalDelayExpiry : Statement .fatalDelayExpiry := fun h => h.symm
theorem escalatedWatchdog : Statement .escalatedWatchdog := fun h => h.symm
theorem coldExit : ∀ a0, Statement (.coldExit a0) := fun _ h => h.symm
theorem floorCommand : ∀ a0, Statement (.floorCommand a0) := fun _ h => h.symm
theorem ownerKeyCommand : ∀ a0, Statement (.ownerKeyCommand a0) := fun _ h => h.symm
theorem lifecycleCommand : ∀ a0 a1 a2, Statement (.lifecycleCommand a0 a1 a2) := fun _ _ _ h => h.symm
theorem debugFlagWrite : ∀ a0, Statement (.debugFlagWrite a0) := fun _ h => h.symm
theorem getVersion : ∀ a0 a1, Statement (.getVersion a0 a1) := fun _ _ h => h.symm
theorem getCapabilities : ∀ a0 a1, Statement (.getCapabilities a0 a1) := fun _ _ h => h.symm
theorem negotiateAlgorithms : ∀ a0 a1, Statement (.negotiateAlgorithms a0 a1) := fun _ _ h => h.symm
theorem getDigests : ∀ a0 a1, Statement (.getDigests a0 a1) := fun _ _ h => h.symm
theorem getCertificate : ∀ a0 a1, Statement (.getCertificate a0 a1) := fun _ _ h => h.symm
theorem challenge : ∀ a0 a1, Statement (.challenge a0 a1) := fun _ _ h => h.symm
theorem getMeasurements : ∀ a0 a1, Statement (.getMeasurements a0 a1) := fun _ _ h => h.symm
theorem spdmUnsupportedRequest : ∀ a0 a1, Statement (.spdmUnsupportedRequest a0 a1) := fun _ _ h => h.symm
theorem dictionaryRead : ∀ a0 a1 a2 a3 a4 a5, Statement (.dictionaryRead a0 a1 a2 a3 a4 a5) := fun _ _ _ _ _ _ h => h.symm
theorem dictionaryWrite : ∀ a0 a1 a2 a3 a4 a5 a6, Statement (.dictionaryWrite a0 a1 a2 a3 a4 a5 a6) := fun _ _ _ _ _ _ _ h => h.symm
theorem describe : ∀ a0 a1 a2 a3, Statement (.describe a0 a1 a2 a3) := fun _ _ _ _ h => h.symm
theorem segmentTimeout : ∀ a0 a1 a2, Statement (.segmentTimeout a0 a1 a2) := fun _ _ _ h => h.symm
theorem requestLimitTimeout : ∀ a0, Statement (.requestLimitTimeout a0) := fun _ h => h.symm
theorem mailboxCommand : ∀ a0, Statement (.mailboxCommand a0) := fun _ h => h.symm
theorem identifyMemoryDevice : Statement .identifyMemoryDevice := fun h => h.symm
theorem getTimestamp : Statement .getTimestamp := fun h => h.symm
theorem setTimestamp : ∀ a0, Statement (.setTimestamp a0) := fun _ h => h.symm
theorem mailboxUnsupported : ∀ a0, Statement (.mailboxUnsupported a0) := fun _ h => h.symm
theorem setEndpointId : ∀ a0, Statement (.setEndpointId a0) := fun _ h => h.symm
theorem getEndpointId : Statement .getEndpointId := fun h => h.symm
theorem getMctpVersionSupport : ∀ a0, Statement (.getMctpVersionSupport a0) := fun _ h => h.symm
theorem getMessageTypeSupport : Statement .getMessageTypeSupport := fun h => h.symm
theorem vlanDatagram : ∀ a0 a1 a2 a3 a4, Statement (.vlanDatagram a0 a1 a2 a3 a4) := fun _ _ _ _ _ h => h.symm
theorem recountSnapshot : ∀ a0, Statement (.recountSnapshot a0) := fun _ h => h.symm
theorem firmwareUpload : ∀ a0, Statement (.firmwareUpload a0) := fun _ h => h.symm
theorem msixEventVector : ∀ a0, Statement (.msixEventVector a0) := fun _ h => h.symm
theorem unitReturnsToService : ∀ a0, Statement (.unitReturnsToService a0) := fun _ h => h.symm
theorem recountSnapshotTimeout : ∀ a0, Statement (.recountSnapshotTimeout a0) := fun _ h => h.symm
theorem msixVectorUnmask : ∀ a0, Statement (.msixVectorUnmask a0) := fun _ h => h.symm
theorem hotReset : Statement .hotReset := fun h => h.symm

end Sys2Proof.Laws.FieldChecks
end

