-- ==== Sys2Proof/Tests/Slice0.lean ====
section
/-! SUPPORT. Tests: decided on small states, and for every statement with hypotheses a state that meets them. -/

namespace Sys2Proof.Tests

open Machine

-- The tests are checked one after another: together they would hold many stacks at once.
set_option Elab.async false

/-- A running module with one stand launched. -/
def runningAt (st : Nat) : State := { State.reset with power := { state := 3 }, stands := [(st, { running := true })] }
/-- The same with an instruction held back. -/
def heldAt (st : Nat) : State := { State.reset with power := { state := 3 }, stands := [(st, { running := true, backlog := [.nop 7] })] }
/-- A running module with stand st as given, launched. -/
def runningWith (st : Nat) (x : Stand) : State := { State.reset with power := { state := 3 }, stands := [(st, { x with running := true })] }
/-- The same with the queue of position 0 full. -/
def busyAt (st : Nat) : State := runningWith st { units := [(0, { queue := List.replicate 18 (.vld 0 0) })] }
/-- A vector of two A8 elements at 0 and a waiting one at 64. -/
def vectorAt (st : Nat) : State :=
  runningWith st { spad := [(0, encVec { pend := false, fmt := 4, signed := true, tile := 0, count := 2 }), (1, 0x0201),
    (64, encVec { pend := true, fmt := 4, signed := true, tile := 0, count := 2 })] }
/-- A pass of one row in two planes. -/
def jobAt (conflict : Bool) (again : Option Nat) : PassJob :=
  { op := { slot := 0, bsel := 0, first := 0, nrows := 1, width := 0, sign := false, dense := false, acc := false, tile := none },
    bankB := false, conflict := conflict, budget := 256, bits := 2, reexec := again }
/-- A stand with that pass in the pipeline of position 3. -/
def passedAt (st : Nat) (conflict : Bool) (again : Option Nat) : State :=
  runningWith st { units := [(3, { passes := [jobAt conflict again] })] }
/-- A requantize step of 126 INT32 outputs. -/
def rqAt : RqOp := { firsto := 0, nout := 126, mode := 1, fmt := 0, sign := true, gt := 0, gd := 2048, tile := none }
/-- A stand with that step at its last group. -/
def requantAt (st : Nat) : State := runningWith st { units := [(3, { rq := some { op := rqAt, next := 124 } })] }
/-- A stand whose program counter stands at pc under a binary without images. -/
def imagedAt (st pc : Nat) : State := { runningWith st { pc } with binary := { current := some [] } }
/-- A closed tile without outputs. -/
def tileA : Tile := { uid := 1, num := 0, word := 0, thresh := 16, mode := 1, fmt := 2 }
/-- A closed tile that fires at its ceiling. -/
def tileB : Tile := { uid := 1, num := 0, word := 0x41000000, thresh := 16, mode := 1, fmt := 2, outputs := 1, clips := 1 }
/-- A stand with a closed tile, and a binary whose tile table names tile 0. -/
def tiledAt (st : Nat) : State :=
  { runningWith st { tiles := [tileA] } with binary := { current := some (List.replicate 24 0 ++ [1] ++ List.replicate 87 0 ++ [200] ++ List.replicate 87 0 ++ [1]) } }
/-- A stand whose closed tile fires. -/
def firedAt (st : Nat) : State := runningWith st { tiles := [tileB] }
/-- Windows 2 (OPEN, rows 0 to 3 of bank 0: one granted, one filled) and 9 (CLOSING in bank 1, row 0 complete) and 10 (CLOSING in bank 8); bank 3 WAKING,
bank 5 OFF, bank 6 CLOSING at its deadline, bank 8 with a deadline to come. -/
def windowAt (st : Nat) : State :=
  runningWith st {
    banks := [(3, { power := .waking }), (5, { power := .off }), (6, { power := .closing }), (8, { power := .closing, deadline := 5 })],
    credit := { windows := [(2, { st := .opened, count := 4, gen := 3, rows := [(0, .granted 9 0 none), (1, .filled 9)] }),
      (9, { st := .closing, bank := 1, count := 1, rows := [(0, .granted 9 1 (some 1))] }),
      (10, { st := .closing, bank := 8, count := 1, rows := [(0, .granted 9 0 none)] })] } }
/-- One credit and one outstanding request; a route to stand 9 at word 0, a malformed one at word 1, a RAW48 vector at 64. -/
def sendingAt (st : Nat) : State :=
  runningWith st {
    sender := [{ dest := 9, window := 2, row := 1, gen := 3, writes := 0 }],
    creqs := [{ dest := 9, msg := { window := 2, count := 1, mode := true, row := 3, tag := 5 } }],
    spad := [(0, 0x09120000), (1, 0x09120001), (64, encVec { pend := false, fmt := 7, signed := true, tile := 0, count := 33 })] }
/-- A grant of row 3 from stand 9. -/
def grantOf (status : Nat) : Packet :=
  { src := 9, dst := 7, dincv := true, sinc := 1, dinc := 1, body := .cgrant { window := 2, status, gen := 3, mask := 8, tag := 5 } }
/-- A stand that holds the credit of row 1 of its own window 2. -/
def dmaAt (st : Nat) : State :=
  runningWith st { sender := [{ dest := st, window := 2, row := 1, gen := 3, writes := 0 }],
                   credit := { windows := [(2, { st := .opened, count := 4, gen := 3 })] } }
/-- A stand with a DMA under way and n behind it. -/
def dmaBusy (st n : Nat) : State :=
  runningWith st { dma := some { window := 0, rows := [], tags := [3] },
                   dmaQ := List.replicate n { idx := 0, dir := true, tierB := false, addr := 0, window := 0, row := 0, words := 1, src := 0 } }
/-- A binary whose channel 0 has the one participant 7, which has arrived. -/
def barrierAt (st : Nat) : State :=
  { runningWith st { arrivals := [(0, 1)], arrived := [(0, true)] } with binary := { current := some [0x80] } }
/-- A WAIT held back, and a load of slot 1 in the queue of position 3. -/
def waitingAt (st : Nat) : State :=
  runningWith st { backlog := [.wait 7 0 false false false false true], units := [(3, { queue := [.vld 1 64] })] }
/-- A stand whose beat is overdue, with an uncorrectable row of bank 2 due for repair. -/
def lateAt (st : Nat) : State :=
  { runningWith st { banks := [(2, { due := [(5, true, 0)] })], clearing := some (1000000, 1) } with time := { tick := 1000000 } }
/-- A binary whose image of stand 7 is the one instruction of an opcode. -/
def imageOf (opcode : Byte) (chan : Byte) : List Byte :=
  List.replicate 112 0 ++ [200] ++ List.replicate 87 0 ++ [1] ++ List.replicate 7 0 ++ [chan] ++ List.replicate 6 0 ++ [opcode]
/-- Debug mode under the image of one TCLOSE. -/
def hazardedAt : State := { runningAt 7 with power := { state := 3, debug := 1 }, binary := { current := some (imageOf 0x19 0) } }
/-- The same with one BARV. -/
def barvImage : State := { runningAt 7 with power := { state := 3, debug := 1 }, binary := { current := some (imageOf 0x30 2) } }
/-- A part of two contributions, with the lead. -/
def partMsg : PartMsg := { rid := 1, part := 0, nc := 2, carried := 1, lead := true, window := 0, row := 0, gen := 0, count := 1, elems := [5] }
/-- Its packet to stand 9. -/
def partPkt : Packet := { src := 3, dst := 9, dincv := false, sinc := 1, dinc := 0, body := .reduce partMsg }
/-- A suspended request past its time in slot k, and one with late work in the next. -/
def servingAt (k : Nat) : State :=
  let d : Desc :=
    { tag := 1, cls := 0, pin := false, spec := 0, nterm := false, ntok := false, nadm := false, msixv := 0, quota := 0, epoch := 0,
      adapter := 0, deadline := 0, maxlen := 10, poff := 0, plen := 4, topk := 1, temp := 0, topp := 0, seed := 0, stops := [] }
  let f : Flight := { step := 1, chunk := false, entry := 3, first := 4, count := 1, last := false, bankB := false }
  { State.reset with
    time := { beat := 200000, launchDue := true }, mem := { tierB := [(73, 0x80)] },
    serving :=
      { state := 1, sblock := some 3,
        rslots := [(k, some { d, rgen := 1, st := .suspended true, ng := 1, admNo := 1, epoch := 0, bankB := false }),
          (k + 1, some { d, rgen := 1, st := .generating, ng := 1, admNo := 2, epoch := 0, bankB := false, flight := [f] })] } }
/-- A staging of bank B: shard 7 late, shard 8 written, one array in WRITE, one array left to scrub, slot 4 posted. -/
def stagedState : State :=
  { State.reset with
    time := { tick := 9 },
    cores := [(arrayNo 8 2, { bankB := { st := .write } })],
    weights :=
      { staging := some { cap := false, peer := false, place := 0, epoch := 7, layoutId := 0 }, inboxFree := 0xFFEF, scrubLeft := [80115], scrubAsap := true,
        shards := [(5007, { st := .wanted, attempt := 1, deadline := 9 }), (5008, { st := .writing, done := 0xFFFF })] } }
/-- Every shard of bank B verified. -/
def verifiedB : Tab Shard := allStands.map fun n => (5000 + n, ({ st := .verified } : Shard))
/-- A version of epoch 7 in bank B, every shard verified. -/
def armable : State :=
  { State.reset with
    weights := { verB := { epoch := 7 }, shards := verifiedB } }
/-- Adapter slot 3 LIVE under identifier 9. -/
def loadedSlot : State := State.reset.putSlotHdr 3 { ident := 9, gen := 1, st := 2 }

/-- A shard listed for a stand of bank B reads back. -/
theorem get_listed (v : Shard) {n : Nat} {l : List Nat} (h : n ∈ l) :
    Tab.get {} (l.map fun m => (5000 + m, v)) (5000 + n) = v := by
  induction l with
  | nil => simp at h
  | cons a l ih =>
    simp only [List.map_cons, Tab.get]
    split
    · rfl
    · rename_i hne
      exact ih ((List.mem_cons.mp h).resolve_left fun e => hne (by rw [e]))
/-- A WRITE of one word to word a of tier A. -/
def memWrite (a : Nat) : MemReq := { op := 1, tierB := false, lock := false, tag := 0, wm1 := 0, waddr := a, data := [5], whdr := none }
/-- A MEMREQ packet to read one word, from stand 3 to endpoint n. -/
def readPkt (n : Nat) : Packet := { src := 3, dst := 5000 + n, dincv := false, sinc := 1, dinc := 0, body := .memreq { memWrite 0 with op := 0, data := [] } }
/-- The same behind an earlier packet of its channel. -/
def sentTwice (n : Nat) : State := { State.reset with mesh := [{ readPkt n with sinc := 2 }, readPkt n] }
/-- Arbiter n with one parked request of stand 3. -/
def patrolledAt (n : Nat) : State :=
  { State.reset with mem := { arbs := [(n, { queue := [{ requester := 0, node := 3, burst := 1, lock := false, since := 0 }] })] } }
/-- The same with 31 of them. -/
def fullAt (n : Nat) : State :=
  { State.reset with
    mem := { arbs := [(n, { queue := List.replicate 31 { requester := 0, node := 3, burst := 1, lock := false, since := 0 } })] } }
/-- Arbiter n with two parked requests and a holder past its watchdog. -/
def arbitratedAt (n : Nat) : State :=
  { State.reset with
    time := { tick := 1000 },
    mem := { arbs := [(n, { queue := [{ requester := 0, node := 7, burst := 1, lock := false, since := 0 },
                                      { requester := 16, node := 5104, burst := 1, lock := true, since := 0 }],
                            holder := some ({ requester := 0, node := 7, burst := 1, lock := false, since := 0 }, 0) })] } }
/-- Arbiter n with a locked sequence of stand 7 that is stuck. -/
def lockedAt (n : Nat) : State :=
  { State.reset with
    time := { tick := 1000 },
    mem := { arbs := [(n, { lock := some (0, 7, 1), holder := some ({ requester := 0, node := 7, burst := 1, lock := true, since := 0 }, 0) })] } }
/-- A beat shortened by slip, a scrub read due of an array in COMPUTE. -/
def scrubbed : State :=
  { State.reset with time := { slip := 5 }, weights := { scrubLeft := [115], scrubAsap := true }, cores := [(arrayNo 7 3, { bankA := { st := .compute } })] }
/-- RUNNING, the host link up and the window enabled; vector 3 due, vector 4 pending. -/
def hosted : State :=
  { State.reset with power := { state := 3 }, host := { linkSt := 2, memen := true, msixDue := 8, msixPend := 16 } }
/-- Port p in state v with a powered cable and its PCS up; tick 40,000. -/
def portedAt (p v : Nat) : State :=
  { State.reset with
    time := { tick := 40000 },
    grove := { ports := [(p, { st := v, cable := true, powered := true, pcs := true })], paths := [(p, { partner := 1 })] } }
/-- A relay frame for this module, from its partner's incarnation 1. -/
def relayFrame : Frame := { State.reset.frameHdr 2 0 2 0 with sinc := 1, info := 5, payload := [3] }
/-- A transport frame for grove port p, from address 7. -/
def groveEther (p : Nat) (b : List Byte) : Ether := { dst := portMac p, src := 7, vlan := none, etype := 0x88B5, data := b }
/-- A transport frame in an IPv6 packet to address 0, from the peer at address 7. -/
def canopyEther (b : List Byte) : Ether :=
  { dst := 0, src := 7, vlan := none, etype := 0x86DD,
    data := [0x60, 0, 0, 0, 0, 0, 17, 64] ++ beBytes 16 7 ++ List.replicate 16 0 ++ beBytes 2 51200 ++ beBytes 2 51200 ++ [0, 0, 0, 0] ++ b }
/-- Port p UP, with a relay frame to deliver and one frame sent and unacknowledged. -/
def deliveringAt (p : Nat) : State :=
  { portedAt p 3 with
    grove := { ports := [(p, { st := 3, cable := true, powered := true, pcs := true })],
               paths := [(p, { partner := 1, unacked := [(relayFrame, 0)], sent := 1 })],
               endpoints := [(portNode p, { delivering := [relayFrame] })] } }
/-- A grove map with serial number 9 at position 3, the neighbour on port 2; port 2 waits for its hello. -/
def mapped : State :=
  { portedAt 2 2 with octets := [(entryKey 0x2600 3, List.replicate 24 0 ++ [9] ++ List.replicate 103 0)] }
/-- The hello of that neighbour. -/
def mappedHello : Frame :=
  { State.reset.frameHdr 2 0 0 0 with
    payload := beBytes 8 9 ++ beBytes 1 3 ++ beBytes 1 (partnerPort 0 2) ++ List.replicate 6 0 ++ mapped.mapDigest }
/-- Shard 3 of epoch 7 in bank A, verified, asked for from a peer. -/
def heldShard : State :=
  { State.reset with
    weights := { verA := { epoch := 7, peer := true }, shards := [(3, { st := .verified })],
                 staging := some { cap := false, peer := true, place := 0, epoch := 7, layoutId := 0 } },
    grove := { requested := [(3, false)] } }
/-- A coppicing of position 3 of a stand, with nothing left to write. -/
def coppicedAt (st : Nat) : State :=
  { State.reset with stands := [(st, { coppice := some { pos := 3, old := 3, urgent := true, start := 0 } })] }
/-- A running module long after its last sweep, a forced clearing open on the stand, a calibration item queued, one record pending. -/
def testedAt (st : Nat) : State :=
  { State.reset with
    power := { state := 3 }, time := { tick := 60100000000 },
    stands := [(st, { clearing := some (60100000000, 1), maint := [{ kind := .trim 2, since := 0 }] })],
    rel := { collector := [{ cls := 0x0501, sev := 0 }] } }
/-- A running module long after its last sweep, in a shortened beat. -/
def withheld : State := { State.reset with power := { state := 3 }, time := { tick := 60100000000, slip := 5 } }
/-- Core 3 of a stand found faulty. -/
def suspectAt (st : Nat) : State := { State.reset with cores := [(arrayNo st 3, { suspect := true })] }
/-- Diode 1 at 25 degrees, diode 3 failed, channel 5 settling, channel 70 busy, level 1; a day has passed. -/
def sensed : State :=
  { State.reset with
    power := { state := 3 }, time := { tick := 8640000000000 },
    sense :=
      { adcs := [(5, { settle := 3 }), (70, { trigBusy := true })],
        diodes := [(1, { reading := 1600, valid := true }), (3, { failed := true })], tlevel := 1 } }
/-- STANDBY with the forester running. -/
def booted : State := { State.reset with power := { fwCheck := false } }
/-- RUNNING with every rail up. -/
def railed : State := { State.reset with power := { fwCheck := false, state := 3, railStep := 6, in48 := true } }
/-- STANDBY, an SPDM negotiation done. -/
def negotiated : State := { State.reset with power := { fwCheck := false, spdmVersion := true, spdmCaps := true, spdmAlgs := true } }
/-- One request waiting on I3C. -/
def queuedOn : State :=
  { booted with host := { queued := [{ path := .i3c, msg := request 1 5 0x1F00 1 0 0 1024 [], tick := 0, beat := 0 }] } }


theorem witness_stepRunsFront : ({ State.reset with pending := [.getEndpointId] } : State).pending = .getEndpointId :: [] ∧
    State.reset.pending = [] := by decide

theorem witness_safeKept : State.reset.safe ∧ (∃ t, step State.reset = .next t) := ⟨by unfold State.safe; decide, _, rfl⟩

theorem witness_scrappedFinal : ∃ s t : State, s.power.lifecycle = 4 ∧ step s = .next t :=
  ⟨{ State.reset with power := { lifecycle := 4 } }, _, rfl, rfl⟩

theorem witness_queueIsFifo : ∃ t, exec .getEndpointId State.reset = .next t := ⟨_, rfl⟩

theorem witness_issues : (runningAt 7).issues 7 := by unfold State.issues; decide

theorem witness_wordAccess : (runningAt 7).issues 7 ∧ ((runningAt 7).stand 7).word 5 = 0 := by unfold State.issues; decide

theorem witness_controlReads : (runningAt 7).issues 7 ∧ ((runningAt 7).stand 7).waitMet 0xFFFF true true true true true = true ∧
    ((runningWith 7 { units := [(3, { queue := [.vld 1 64] })] }).stand 7).waitMet 0xFFFF true true true true true = false ∧
    (imagedAt 7 5).inBeat 7 = true ∧ (imagedAt 7 5).pastImage 7 = true := by
  unfold State.issues; decide

theorem witness_idleController : State.reset.canIssue 3 = false ∧ (heldAt 7).canIssue 7 = true ∧ ((heldAt 7).stand 7).backlog ≠ [] := by
  decide

theorem witness_passGeometry : ∃ op : PassOp, op.first = 1023 ∧ op.nrows = 1024 ∧ passRows op = 1 ∧ groupRows op 256 0 = [1023] :=
  ⟨{ slot := 0, bsel := 0, first := 1023, nrows := 1024, width := 0, sign := false, dense := false, acc := false, tile := none },
    rfl, rfl, by decide, by decide⟩

theorem witness_requantFormula : requantV 25 6 2 0 = 38 ∧ clip (-8) 7 38 = 7 := by decide

theorem witness_coreIssue : (runningAt 7).issues 7 ∧ (runningAt 7).coresRoom 7 0xFFFF = true ∧ passFields 1024 5 = true ∧
    rqntFields 127 1 0 5 true = true ∧ (busyAt 7).issues 7 ∧ (busyAt 7).coresRoom 7 1 = false := by
  unfold State.issues; decide

theorem witness_loadAtIdle : (vectorAt 7).issues 7 ∧ (vectorAt 7).fill 7 3 = some 3 ∧ ((vectorAt 7).stand 7).pos 3 = {} ∧
    ((vectorAt 7).stand 7).paired 3 = false ∧ ((vectorAt 7).stand 7).repeatHolds 3 = false ∧ (((vectorAt 7).stand 7).vec 0).fmt = 4 ∧ (((vectorAt 7).stand 7).vec 0).count = 2 ∧
    (((vectorAt 7).stand 7).vec 0).pend = false ∧ (((vectorAt 7).stand 7).vec 64).pend = true := by
  unfold State.issues; decide

theorem witness_passAtIdle : (runningAt 7).issues 7 ∧ (runningAt 7).fill 7 15 = some 15 ∧ ((runningAt 7).stand 7).pos 15 = {} ∧
    ((runningAt 7).stand 7).tile = none ∧ ((runningAt 7).stand 7).units = [] ∧ ((runningAt 7).stand 7).repeatHolds 15 = false := by
  unfold State.issues; decide

theorem witness_passVerdicts : (passedAt 7 false none).fill 7 3 = some 3 ∧ (((passedAt 7 false none).stand 7).pos 3).queue = [] ∧
    (((passedAt 7 false none).stand 7).pos 3).passes = [jobAt false none] ∧ (((passedAt 7 true none).stand 7).pos 3).passes = [jobAt true none] ∧
    jobBad ((passedAt 7 false none).core 7 3) (jobAt false none) [] = none ∧
    jobBad ((passedAt 7 false none).core 7 3) (jobAt false none) [{ cycle := 1, column := 0, delta := 1 }] = some 1 ∧
    jobBad ((passedAt 7 false (some 0)).core 7 3) (jobAt false (some 0)) [{ cycle := 1, column := 0, delta := 1 }] = some 1 := by decide +kernel

theorem witness_requantizerOutput : (requantAt 7).fill 7 3 = some 3 ∧ (((requantAt 7).stand 7).pos 3).rq = some { op := rqAt, next := 124 } ∧
    (((requantAt 7).stand 7).pos 3).queue = [] ∧ ((requantAt 7).stand 7).wrongBits = [] := by decide

theorem witness_requantAtIdle : (runningAt 7).issues 7 ∧ (runningAt 7).fill 7 0 = some 0 ∧ rqntFields 0 128 2 0 false = true ∧
    ((runningAt 7).stand 7).repeatHolds 0 = false ∧ ((runningAt 7).stand 7).clean := by
  unfold State.issues Stand.clean
  refine ⟨by decide, by decide, by decide, by decide, fun b => ?_, fun a => rfl⟩
  show BankPower.on ≠ BankPower.off
  decide

theorem witness_tileCommands : (tiledAt 7).tileWord 0 = some 0 ∧ (tiledAt 7).issues 7 ∧ (runningAt 7).issues 7 ∧ ((runningAt 7).stand 7).tileRoom = true ∧
    (({ tiles := [tileA, tileA, tileA], tile := some tileA } : Stand).tileRoom = false) ∧
    ((tiledAt 7).stand 7).tiles.head? = some tileA ∧ ((tiledAt 7).stand 7).tileBusy 1 = false ∧ tileA.fires = false := by
  unfold State.issues; decide

theorem witness_tileFires : ((firedAt 7).stand 7).tiles.head? = some tileB ∧ ((firedAt 7).stand 7).tileBusy 1 = false ∧ tileB.fires = true ∧
    tileB.nextFmt = none ∧ tileB.deferred = false := by decide

theorem witness_windowCommands : (windowAt 7).issues 7 ∧ wopenFields 31 1 = true ∧ wopenFields 0 32 = true ∧
    (((windowAt 7).stand 7).bank 0).power = .on ∧ (((windowAt 7).stand 7).bank 3).power = .waking ∧ (((windowAt 7).stand 7).bank 5).power = .off ∧
    (((windowAt 7).stand 7).credit.win 2).st = .opened ∧ (((windowAt 7).stand 7).credit.win 2).full = false ∧
    (((windowAt 7).stand 7).credit.win 4).st = .closed ∧ ((windowAt 7).stand 7).credit.overlaps 0 31 1 = false ∧
    ((windowAt 7).stand 7).credit.overlaps 0 0 32 = true ∧ (((windowAt 7).stand 7).credit.win 2).row 1 = .filled 9 := by
  unfold State.issues; decide

theorem witness_bankPower : (windowAt 7).issues 7 ∧ (((windowAt 7).stand 7).credit.inBank 0).all (fun k => (((windowAt 7).stand 7).credit.win k).full) = false ∧
    (((windowAt 7).stand 7).bank 5).power = .off ∧ (((windowAt 7).stand 7).bank 6).power = .closing ∧ (((windowAt 7).stand 7).bank 6).deadline = 0 ∧
    (((windowAt 7).stand 7).bank 6).deadline ≤ (windowAt 7).time.tick ∧ (((windowAt 7).stand 7).credit.win 9).st = .closing ∧
    (((windowAt 7).stand 7).bank 8).deadline = 5 ∧ (((windowAt 7).stand 7).credit.win 10).st = .closing ∧
    (((windowAt 7).stand 7).credit.win 10).bank = 8 ∧ (((windowAt 7).stand 7).credit.win 10).deadline < 5 ∧
    ((windowAt 7).stand 7).credit.inBank 8 = [10] ∧ (((windowAt 7).stand 7).bank (((windowAt 7).stand 7).credit.win 9).bank).power ≠ .closing := by
  unfold State.issues; decide

theorem witness_creditRequests : (windowAt 7).isAway 7 = false ∧ (windowAt 7).inOrder (grantOf 0) = true ∧
    ({ State.reset with mesh := [grantOf 4] } : State).inOrder (grantOf 0) = false ∧ creqMalformed (((windowAt 7).credit 7).win 2) { window := 2, count := 2, mode := false, row := 0, tag := 5 } = false ∧
    creqRows (((windowAt 7).credit 7).win 2) { window := 2, count := 2, mode := false, row := 0, tag := 5 } = some [2, 3] ∧
    creqRows (((windowAt 7).credit 7).win 2) { window := 2, count := 1, mode := true, row := 0, tag := 5 } = none ∧
    creqMalformed (((windowAt 7).credit 7).win 2) { window := 2, count := 2, mode := true, row := 0, tag := 5 } = true ∧
    creqRows (((windowAt 7).credit 7).win 2) { window := 2, count := 1, mode := true, row := 3, tag := 5 } = some [3] := by decide

theorem witness_creditAnswers : (sendingAt 7).inOrder (grantOf 0) = true ∧ (sendingAt 7).staleGrant 7 (grantOf 0) = false ∧ ((sendingAt 7).stand 7).creqs = [{ dest := 9, msg := { window := 2, count := 1, mode := true, row := 3, tag := 5 } }] ∧
    (grantOf 0).src = 9 ∧ (sendingAt 7).staleGrant 7 { grantOf 4 with dinc := 2 } = true ∧
    BitVec.ofNat 32 (encCreq { window := 2, count := 1, mode := true, row := 3, tag := 5 }) = 0x20630005 + 0#32 := by decide

theorem witness_outboundSends : (windowAt 7).issues 7 ∧ ((sendingAt 7).stand 7).outQ = [] ∧ ((sendingAt 7).stand 7).clean ∧ (sendingAt 7).issues 7 ∧
    creqFields 9 1 true 3 = true ∧ ((sendingAt 7).stand 7).taken = 2 ∧ writeFields 0 64 true 1 = true ∧ destField 9 = true ∧
    (((sendingAt 7).stand 7).entry 9 2 1).isSome = true ∧ ((sendingAt 7).stand 7).entry 9 2 0 = none ∧
    routeMalformed (decRoute [((sendingAt 7).stand 7).word 0]) = false ∧ routeStands (decRoute [((sendingAt 7).stand 7).word 0]) = [9] ∧
    routeMalformed (decRoute [((sendingAt 7).stand 7).word 1]) = true ∧ (((sendingAt 7).stand 7).vec 64).fmt = 7 ∧
    (((sendingAt 7).stand 7).vec 64).count = 33 ∧ (((sendingAt 7).stand 7).vec 64).pend = false := by
  unfold State.issues Stand.clean
  refine ⟨by decide, by decide, ⟨fun b => ?_, fun a => rfl⟩, by decide, by decide, by decide, by decide, by decide, by decide, by decide,
    by decide, by decide, by decide, by decide, by decide, by decide⟩
  show BankPower.on ≠ BankPower.off
  decide

theorem witness_dmaCommand : (dmaAt 7).issues 7 ∧ ((dmaAt 7).stand 7).clean ∧ ((dmaAt 7).stand 7).dma = none ∧ ((dmaAt 7).stand 7).dmaQ = [] ∧
    (dmaAt 7).dmaStarts 7 true false 0 0 0 2048 = true ∧ dmaFields 2048 4 = true ∧
    (dmaAt 7).dmaStarts 7 false false 0 2 1 64 = true ∧ (dmaAt 7).dmaStarts 7 false false 0 2 2 64 = false ∧
    (dmaBusy 7 1).issues 7 ∧ ((dmaBusy 7 1).stand 7).dma.isSome = true ∧ ((dmaBusy 7 17).stand 7).dmaQ.length = 17 := by
  unfold State.issues Stand.clean
  refine ⟨by decide, ⟨fun b => ?_, fun a => rfl⟩, by decide, by decide, by decide, by decide, by decide, by decide, by decide, by decide, by decide⟩
  show BankPower.on ≠ BankPower.off
  decide

theorem witness_remoteWrites : (windowAt 7).isAway 7 = false ∧ (windowAt 7).inOrder (grantOf 0) = true ∧ (((windowAt 7).stand 7).credit.win 2).row 0 = .granted 9 0 none ∧
    (RowSt.granted 9 0 none).complete = false ∧ (((windowAt 7).stand 7).credit.win 2).gen = 3 ∧
    (((windowAt 7).stand 7).credit.win 9).row 0 = .granted 9 1 (some 1) := by decide

theorem witness_barriers : (barrierAt 7).issues 7 ∧ (barrierAt 7).participates 0 7 = true ∧ (barrierAt 7).participates 0 8 = false ∧ (barrierAt 7).extended 0 = false ∧
    (barrierAt 7).bwtWaits 7 0 = true ∧ (runningAt 7).bwtWaits 7 0 = false ∧ (barrierAt 7).allArrived 0 = true ∧
    ({ barrierAt 7 with phases := [(0, 1)] } : State).issues 7 ∧ ({ barrierAt 7 with phases := [(0, 1)] } : State).phase 0 = 1 ∧
    ((barrierAt 7).stand 7).arrivalsOn 0 = 1 ∧ ((barrierAt 7).stand 7).hasArrived 0 = true := by
  unfold State.issues; decide +kernel

theorem witness_matrixUnit : (vectorAt 7).issues 7 ∧ ((vectorAt 7).stand 7).dmuQ = [] ∧ ((vectorAt 7).stand 7).clean ∧ mmaFields 1 2047 = true ∧
    mmaFields 2 1023 = true ∧ (((vectorAt 7).stand 7).vec 0).pend = false ∧ (((vectorAt 7).stand 7).vec 64).pend = true := by
  unfold State.issues Stand.clean
  refine ⟨by decide, by decide, ⟨fun b => ?_, fun a => rfl⟩, by decide, by decide, by decide, by decide⟩
  show BankPower.on ≠ BankPower.off
  decide

theorem witness_matrixTerms : ({} : Dmu).wx = 8 ∧ ({ wx := 4, wy := 4 } : Dmu).wy = 4 ∧ fp8 false 0x7F = none := by decide

theorem witness_adapterSums : (runningAt 7).issues 7 ∧ ((runningAt 7).stand 7).dmuQ = [] ∧ ((runningAt 7).slotHdr 0).st = 0 ∧
    (((runningAt 7).stand 7).vec 0).pend = false ∧ (runningAt 7).wrongBurst false 5 = 0 := by
  unfold State.issues; decide

theorem witness_vectorUnit : (runningAt 7).issues 7 ∧ ((runningAt 7).stand 7).vecQ = [] ∧ ((runningAt 7).stand 7).clean ∧ vopFields 15 2 = true ∧ qntBad 0 1025 = true ∧ qntBad 13 1024 = false := by
  unfold State.issues Stand.clean
  refine ⟨by decide, by decide, ⟨fun b => ?_, fun a => rfl⟩, by decide, by decide, by decide⟩
  show BankPower.on ≠ BankPower.off
  decide

theorem witness_samplingUnit : (vectorAt 7).issues 7 ∧ ((vectorAt 7).stand 7).vecQ = [] ∧ ((vectorAt 7).stand 7).clean ∧ ((0 : Nat) + 1 = 2 * (0 + 1) ∨ true = true) := by
  unfold State.issues Stand.clean
  refine ⟨by decide, by decide, ⟨fun b => ?_, fun a => rfl⟩, by decide⟩
  show BankPower.on ≠ BankPower.off
  decide

theorem witness_interlockRelease : (waitingAt 7).canIssue 7 = true ∧ ((waitingAt 7).stand 7).backlog = [.wait 7 0 false false false false true] ∧
    ((waitingAt 7).stand 7).waitMet 0 false false false false true = true ∧ ((waitingAt 7).stand 7).repeatHolds 3 = false ∧ (waitingAt 7).fill 7 3 = some 3 ∧
    ((waitingAt 7).stand 7).pos 3 = { queue := [.vld 1 64] } ∧ ((waitingAt 7).stand 7).pendAt 64 = false := by decide

theorem witness_beatTiming : (heldAt 7).canOpen = false ∧ ({ State.reset with power := { state := 4 } } : State).canOpen = true ∧
    ({ State.reset with power := { state := 3 }, time := { launchDue := true } } : State).time.launchDue = true ∧
    ((({ State.reset with power := { state := 3 }, time := { launchDue := true } } : State).stand 9).tiles.any fun k => k.deferred) = false := by
  decide

theorem witness_standFaults : (lateAt 7).dogExpired 7 = true ∧ (runningAt 7).dogExpired 7 = false ∧
    (((lateAt 7).stand 7).bank 2).due.find? (fun e => e.1 = 5) = some (5, true, 0) ∧ (((lateAt 7).stand 7).bank 2).freeSpare = some 0 ∧
    (lateAt 7).repairStarts 7 2 true = true ∧ hazardedAt.hazardFound 7 14 0 0x19 = true ∧ State.reset.hazardFound 7 14 0 0x19 = false ∧
    barvImage.imageInstr 7 0 = some (0x30, .barv 7 2) := by decide +kernel

theorem witness_linkFaults : ({ State.reset with links := [(linkKey 53 1, { testDue := true })] } : State).link 53 1 = { testDue := true } ∧
    (State.reset.link 53 1).testDue = false ∧ hasPort 53 1 = true ∧ meshPort 53 1 = true ∧ hasPort 0 1 = false ∧ hasPort 49 6 = true ∧ hasPort 49 2 = false ∧ (({ State.reset with seams := [(2, { replays := 5 })] } : State).seam 1 false).replays = 5 ∧
    seamWidth 82 = 0 ∧ seamWidth 83 = 1 ∧ seamWidth 626 = 1 ∧ seamWidth 627 = 2 := by decide

theorem witness_packetCommands : decPacket 0 [] = none ∧ (∃ p, decPacket (BitVec.ofNat 128 (2 ^ 121 + 9 * 2 ^ 107 + 7 * 2 ^ 94)) [5] = some p ∧ p.src = 9 ∧ p.dst = 7) ∧
    (State.reset.router 7).entries = [] ∧ (State.reset.router 7).waiting = [] ∧ State.reset.isAway 7 = false := by
  refine ⟨by decide, ⟨_, rfl, by decide, by decide⟩, by decide, by decide, by decide⟩

theorem witness_reductions : partPkt.body = .reduce partMsg ∧ attach partPkt.dst ≠ 7 ∧ onPath 7 partPkt.src partPkt.dst = true ∧ onPath 60 partPkt.src partPkt.dst = false ∧ State.reset.combWindow = 16 ∧
    State.reset.combOpen 0 = true ∧ ({ State.reset with time := { tick := 2 } } : State).windowOver 0 = true ∧ (State.reset.router 7).combine.find? (fun e => sameKey e.1 partPkt) = none ∧
    ({ State.reset with routers := [(7, { combine := [(partPkt, 0)] })] } : State).router 7 = { combine := [(partPkt, 0)] } ∧
    ([(partPkt, 0)] : List (Packet × Nat)).find? (fun e => sameKey e.1 partPkt) = some (partPkt, 0) ∧
    ([(partPkt, 0)] : List (Packet × Nat))[0]? = some (partPkt, 0) ∧ 8 ≤ (List.replicate 8 ({ partPkt with dst := 8 }, 0)).length ∧
    (List.replicate 8 (({ partPkt with dst := 8 } : Packet), 0)).find? (fun e => sameKey e.1 partPkt) = none ∧
    ({ State.reset with routers := [(9, { entries := [{ pkt := partPkt, since := 0 }] })] } : State).router 9 =
      { entries := [{ pkt := partPkt, since := 0 }] } := by decide

theorem witness_servingControl : ({ State.reset with rel := { health := 2, stopNow := true } } : State).rel.healthNow = 2 ∧ State.reset.rel.healthNow = 0 ∧
    ({ State.reset with rel := { marginQ := some 1 } } : State).rel.marginQ.isSome = true ∧ State.reset.configMatches = false ∧
    ({ State.reset with binary := { current := some [] } } : State).configMatches = true ∧
    ({ State.reset with serving := { state := 2 } } : State).serving.state = 2 := by decide

theorem witness_servingTimeouts : ((servingAt 5).req 5).map (fun r => r.st) = some (.suspended true) ∧
    ((servingAt 5).req 5).map (fun r => decide (r.suspendedAt + (servingAt 5).setting 0x30000D 125000 < (servingAt 5).time.beat)) = some true ∧
    ((servingAt 5).req 6).map (fun r => ((servingAt 5).lateWork r).isSome) = some true ∧ (servingAt 5).req 9 = none ∧
    (servingAt 5).descLate = true ∧ (servingAt 5).time.launchDue = true ∧ (servingAt 5).wrongBurst true 3 = 0 ∧ (servingAt 5).descValid 0 = true ∧ 0 < (servingAt 5).recRoom := by decide +kernel
set_option maxRecDepth 1000000 in
/-- The check over 124 bytes that read 0 but for the one listed does not hold. -/
theorem witness_servingTimeouts_check : dchkOk ((servingAt 5).descBytes (servingAt 5).serving.scons) = false := by decide +kernel

theorem witness_stagingCommands : State.reset.weights.staging = none ∧ State.reset.weights.sw.st = 0 ∧ State.reset.weights.sw.graceOpen = false ∧
    State.reset.serving.state = 0 ∧ stagedState.weights.staging.isSome = true ∧ stagedState.stagingBanks = [true] ∧
    ({ State.reset with weights := { cmds := [[]] } } : State).weights.cmds = [] ++ [[]] := by decide

theorem witness_switchCommands : (armable.version (!armable.weights.ptrB)).epoch = 7 ∧ (armable.version (!armable.weights.ptrB)).layoutId.toNat = armable.layoutNow ∧
    (armable.version (!armable.weights.ptrB)).cap = false ∧ armable.weights.sw.graceOpen = false ∧
    armable.weights.sw.st = 0 ∧ armable.weights.capmode = false ∧ armable.serving.state = 0 ∧ armable.activeBanks 7 = [true] := by decide +kernel
/-- A complete version: every shard of bank B verified. -/
theorem witness_switchCommands_complete : (armable.activeBanks 7).all armable.bankComplete = true := by
  have h : armable.activeBanks 7 = [true] := by decide +kernel
  simp only [h, State.bankComplete, List.all_cons, List.all_nil, Bool.and_true, Bool.and_eq_true, decide_eq_true_eq, List.all_eq_true]
  refine ⟨by decide +kernel, fun n hn => ?_⟩
  have k : armable.shard true n = Tab.get {} verifiedB (shardKey true n) := by
    have e0 : armable.weights.shards = verifiedB := by simp only [armable]
    rw [State.shard, e0]
  have e : shardKey true n = 5000 + n := by simp [shardKey, b2n]
  rw [k, e, verifiedB, allStands, get_listed _ (by simpa [allStands] using hn)]

theorem witness_shardCommands : stagedState.weights.inboxFree.getLsbD 3 = true ∧ stagedState.weights.inboxFree.getLsbD 4 = false ∧
    (stagedState.shard true 7).st = .wanted ∧ (stagedState.shard true 7).deadline ≤ stagedState.time.tick ∧ (stagedState.shard true 8).st = .writing ∧
    (stagedState.shard true 8).done = 0xFFFF ∧ ((stagedState.core 8 2).bank true).st = .write ∧ stagedState.scrubDue (80000 + 7 * 16 + 3) = true := by
  decide +kernel
theorem witness_scrubWithheld : scrubbed.scrubDue (7 * 16 + 3) = true ∧ ((scrubbed.core 7 3).bank false).st = .compute ∧
    scrubbed.clearingCore 7 3 = true ∧ scrubbed.shortened = true ∧ scrubbed.forcedOpen 7 = false := by decide +kernel

theorem witness_adaptersAndBinaries : (∀ b k, State.reset.wrongBurst b k = 0) ∧ (State.reset.slotHdr 0).st = 0 ∧ imageOk [] = true ∧
    ({ State.reset with binary := { staged := some [] } } : State).layoutFits [] = true ∧ (loadedSlot.slotHdr 3).st = 2 ∧ (loadedSlot.slotHdr 3).ident = 9 :=
  ⟨fun b k => by cases b <;> rfl, by decide +kernel, by decide, by decide, by decide +kernel, by decide +kernel⟩

theorem witness_illFormedRefused : (Instr.red 0 8191 0 false 0 0 0).wellFormed = false ∧ (Instr.getEndpointId).wellFormed = true ∧
    State.reset.tileWord 5 = none ∧ (tiledAt 7).tileWord 0 = some 0 := by decide

theorem witness_memoryRequests : (∀ b k, State.reset.wrongBurst b k = 0) ∧ State.reset.isAway 5000 = false ∧
    memMalformed (memWrite 0) = false ∧ memInRange (memWrite 0) 5000 = true ∧ memInRange (memWrite 64) 5000 = false ∧
    memMalformed { memWrite 0 with op := 3 } = true ∧ memInRange { memWrite 0 with op := 0, data := [] } 5000 = true ∧
    memMalformed { memWrite 0 with op := 0, data := [] } = false ∧
    ({ State.reset with nodes := [(5000, { away := true })] } : State).isAway 5000 = true ∧
    ({ State.reset with time := { tick := 800 } } : State).time.len ≤ 800 ∧ State.reset.time.tick < State.reset.time.len ∧
    State.reset.time.start = 0 ∧ (State.reset.arb 0).queue = [] ∧ (State.reset.arb 0).lock = none ∧ State.reset.inOrder (readPkt 0) = true ∧
    (sentTwice 0).inOrder (readPkt 0) = false ∧ (patrolledAt 0).stuck 0 = none ∧
    (State.reset.arb 0).idle { requester := 0, node := 3, burst := 0, lock := false, since := 0 } = true :=
  ⟨fun b k => by cases b <;> rfl, by decide, by decide, by decide, by decide, by decide, by decide, by decide, by decide, by decide, by decide,
    by decide, by decide, by decide, by decide, by decide, by decide, by decide⟩
/-- A busy arbiter: with room, and full. -/
theorem witness_memoryRequests_busy : ((patrolledAt 0).arb 0).idle { requester := 0, node := 3, burst := 0, lock := false, since := 0 } = false ∧
    ((patrolledAt 0).arb 0).room { requester := 0, node := 3, burst := 0, lock := false, since := 0 } = true ∧
    (fullAt 0).stuck 0 = none ∧ ((fullAt 0).arb 0).idle { requester := 0, node := 3, burst := 0, lock := false, since := 0 } = false ∧
    ((fullAt 0).arb 0).room { requester := 0, node := 3, burst := 0, lock := false, since := 0 } = false := by decide

theorem witness_memoryUpkeep : State.reset.patrolDue 5000 0 = true ∧ State.reset.patrolDue 5000 1 = false ∧ State.reset.wrongBurst false 0 ≤ 1 ∧
    (State.reset.arb 0).queue = [] ∧ (State.reset.arb 0).lock = none ∧ (patrolledAt 0).patrolDue 5000 0 = true ∧ (patrolledAt 0).stuck 0 = none ∧
    ((patrolledAt 0).arb 0).idle { requester := 20, node := 5000, burst := 0, lock := false, since := 0, work := .patrol 0 } = false ∧
    2 ≤ ({ State.reset with mem := { wrongA := [(0, 2)] } } : State).wrongBurst false 0 ∧ 70 ∈ ({ State.reset with mem := { retire := [70] } } : State).mem.retire ∧
    (State.reset.remap 1).valid = false ∧ (({ State.reset with mem := { remaps := [(1, { copying := true })] } } : State).remap 1).copying = true ∧
    (State.reset.arb 3).queue.length < 31 ∧ requesterOk 3 0 7 = true ∧ requesterOk 3 0 3000 = false ∧ State.reset.stuck 3 = none := by decide +kernel
theorem witness_memoryUpkeep_grant : (arbitratedAt 3).arbPick 3 = some { requester := 16, node := 5104, burst := 1, lock := true, since := 0 } ∧
    State.reset.arbPick 3 = none ∧
    ((arbitratedAt 3).arb 3).holder = some ({ requester := 0, node := 7, burst := 1, lock := false, since := 0 }, 0) ∧
    ((arbitratedAt 90).arb 90).holder = some ({ requester := 0, node := 7, burst := 1, lock := false, since := 0 }, 0) ∧
    engineReq 3 0 = false ∧ engineReq 90 0 = true ∧ arbiterOf 7 = none ∧ arbiterOf 5003 = some 3 ∧
    0 + us ((arbitratedAt 3).setting 0x250007 10) ≤ (arbitratedAt 3).time.tick := by decide +kernel
/-- The owner of a locked sequence comes too late. -/
theorem witness_memoryUpkeep_late : ((lockedAt 3).arb 3).lock = some (0, 7, 1) ∧ (lockedAt 3).stuck 3 = some { requester := 0, node := 7, burst := 1, lock := true, since := 0 } ∧
    ((fullAt 3).arb 3).queue.length = 31 := by decide +kernel

theorem witness_hostLinkCommands : hosted.windowOpen 8 4 = true ∧ State.reset.windowOpen 8 4 = false ∧ hosted.windowOpen 63999999998 4 = true ∧
    (∀ b k, hosted.wrongBurst b k = 0) ∧ hosted.powered = true ∧ hosted.host.linkSt = 2 ∧ bit (hosted.setting 0x270008 63) 1 = true ∧
    (8 : Nat) ≤ hosted.setting 0x270007 8 ∧ hosted.noBoundary = false ∧
    ({ hosted with time := { frozen := true } } : State).noBoundary = true ∧ hosted.host.msixDue.getLsbD 3 = true ∧
    hosted.host.msixMask.getLsbD 3 = true ∧ hosted.host.msixPend.getLsbD 4 = true ∧
    ({ hosted with host := { hosted.host with msixen := true, msixMask := 0 } } : State).host.msixMask.getLsbD 3 = false :=
  ⟨by decide, by decide, by decide, fun b k => by cases b <;> rfl, by decide, by decide, by decide, by decide, by decide, by decide, by decide, by decide, by decide, by decide⟩

theorem witness_portCommands : (portedAt 2 3).port 2 = { st := 3, cable := true, powered := true, pcs := true } ∧ (State.reset.port 2).cable = false ∧
    bit (State.reset.ownModes 2) 0 = true ∧ (portedAt 2 3).helloDue 2 = true ∧ State.reset.helloDue 2 = false ∧
    (portedAt 2 3).portUp 2 = true ∧ (portedAt 2 4).portUp 2 = false ∧
    (portedAt 2 3).frameBad 2 (encFrame { State.reset.frameHdr 2 0 0 0 with ver := 2 }) = true ∧
    (portedAt 2 3).frameBad 2 (encFrame (State.reset.frameHdr 2 0 0 0)) = false ∧ decFrame (encFrame (State.reset.frameHdr 2 0 0 0)) = State.reset.frameHdr 2 0 0 0 ∧
    (portedAt 2 3).frameStale 2 (State.reset.frameHdr 2 0 0 0) = false ∧ (portedAt 2 3).frameStale 2 { State.reset.frameHdr 2 0 0 0 with dinc := 9 } = true ∧
    (portedAt 2 3).helloCheck 2 (State.reset.frameHdr 2 0 0 0) = some 6 ∧ 0 + State.reset.setting (entryKey 0x2600 6) 4 * State.reset.helloTicks ≤ 40000 ∧
    (portedAt 13 3).gateway 13 = List.replicate 16 0 := by decide +kernel
/-- A map under which a hello passes: its digest is the one sent. -/
theorem witness_portCommands_up : mapped.frameBad 2 (encFrame mappedHello) = false ∧ decFrame (encFrame mappedHello) = mappedHello ∧
    mapped.helloCheck 2 (mappedHello) = none := by decide +kernel

theorem witness_transportCommands : (portedAt 2 3).portUp 2 = true ∧ State.reset.portUp 2 = false ∧ relayFrame.kind = 2 ∧
    (portedAt 2 3).frameBad 2 (encFrame relayFrame) = false ∧ decFrame (encFrame relayFrame) = relayFrame ∧ relayFrame.kind ≠ 1 ∧ (portedAt 2 3).frameStale 2 relayFrame = false ∧ ((portedAt 2 3).path 2 0).partner = relayFrame.sinc ∧
    relayFrame.seq = ((portedAt 2 3).path 2 0).expect ∧ relayFrame.dplace = (portedAt 2 3).ownPlace ∧
    relayFrame ∈ ((deliveringAt 2).endpoint (portNode 2)).delivering ∧ (deliveringAt 2).fillNewer relayFrame = true ∧
    ((deliveringAt 2).recordFill relayFrame).fillNewer relayFrame = false ∧ (deliveringAt 2).retxDue 2 0 = true ∧ (portedAt 2 3).retxDue 2 0 = false ∧
    State.reset.root 64 = State.reset.ownPlace ∧ (State.reset.chan 64).done < 1 ∧ State.reset.members 64 = [] ∧
    ({ State.reset with weights := { sw := { st := 2, members := 1 } } } : State).members 64 = [0] ∧
    State.reset.peerBank 7 3 false = none ∧ (heldShard.peerBank 7 3 false).isSome = true ∧ heldShard.fragWanted 0 7 3 false 1024 = true ∧
    State.reset.fragWanted 0 7 3 false 1024 = false := by decide +kernel
/-- The frame on a grove port, and in an IPv6 packet on a canopy port. -/
theorem witness_transportCommands_carried : (portedAt 2 3).carries 2 (groveEther 2 (encFrame relayFrame)) 0 (encFrame relayFrame) ∧
    (portedAt 12 3).carries 12 (canopyEther (encFrame relayFrame)) 7 (encFrame relayFrame) :=
  ⟨.inl ⟨by decide, by decide, rfl, rfl, rfl, rfl, rfl⟩, .inr (by decide +kernel)⟩

theorem witness_reliabilityCommands : (State.reset.stand 7).coppice = none ∧ State.reset.spareState 7 = 0 ∧ (coppicedAt 7).spareState 7 = 4 ∧
    ((coppicedAt 7).stand 7).coppice = some { pos := 3, old := 3, urgent := true, start := 0 } ∧ (coppicedAt 7).spareLeft 7 = [] ∧
    (testedAt 7).arith = true ∧ (testedAt 7).itemDue 7 (.core 2) = true ∧ (testedAt 7).stepAllowed 7 (.core 2) = true ∧ (testedAt 7).stepRoom (.core 2) = true ∧
    (testedAt 7).itemDue 7 (.link 1) = true ∧ (testedAt 7).itemDue 7 (.trim 2) = true ∧ (testedAt 7).forcedOpen 7 = true ∧
    (testedAt 7).stepAllowed 7 .unit = true ∧ State.reset.arith = false ∧ ((testedAt 7).stand 7).clearing = some (60100000000, 1) ∧ ((testedAt 7).stand 7).tiles = [] ∧
    ((suspectAt 7).core 7 3).suspect = true ∧ (suspectAt 7).spareState 7 = 0 ∧ ((suspectAt 7).core 7 3).fenced = false ∧ State.reset.serving.state = 0 ∧
    sliceOf 0 5 = some (.core 5) ∧ sliceOf 4 0 = none ∧ (portedAt 2 3).port 2 = { st := 3, cable := true, powered := true, pcs := true } ∧
    State.reset.rel.health < 2 ∧ State.reset.errorLogAt + 67108864 ≤ tierSize true ∧ (testedAt 7).rel.collector = [{ cls := 0x0501, sev := 0 }] := by
  decide +kernel
/-- A step withheld in a shortened beat: no item is older. -/
theorem witness_selfTestWithheld : withheld.arith = true ∧ withheld.itemDue 7 (.core 2) = true ∧ withheld.stepAllowed 7 (.core 2) = true ∧
    withheld.stepRoom (.core 2) = true ∧ withheld.forcedOpen 7 = false ∧ withheld.stepClear 7 (.core 2) = true ∧ withheld.shortened = true ∧
    withheld.olderItem 7 (.core 2) = false := by
  refine ⟨by decide, by decide +kernel, by decide +kernel, by decide, by decide, by decide +kernel, by decide, ?_⟩
  have h : ∀ n, (withheld.stand n).maint = [] := fun n => rfl
  have hc : ∀ n c, withheld.core n c = {} := fun n c => rfl
  have hb : ∀ n b, (withheld.stand n).bank b = {} := fun n b => rfl
  have old : ∀ n, n ∈ allStands → ∀ q : MaintKind, ((∃ c, q = .core c) ∨ ∃ b, q = .spad b) →
      withheld.dueSince n q = withheld.dueSince 7 (.core 2) := by
    rintro n _ q (⟨c, rfl⟩ | ⟨b, rfl⟩) <;> simp only [State.dueSince, hc, hb]
  simp only [State.olderItem, h, List.map_nil, List.append_nil, List.any_eq_false, List.any_append, Bool.or_eq_true, List.any_eq_true,
    List.mem_map, not_or, not_exists, not_and]
  refine fun n hn => ⟨?_, ?_⟩
  · rintro q ⟨c, _, rfl⟩
    simp only [old n hn _ (.inl ⟨_, rfl⟩), Nat.lt_irrefl, decide_false, Bool.false_and, Bool.false_eq_true, not_false_eq_true]
  · rintro q ⟨b, _, rfl⟩
    simp only [old n hn _ (.inr ⟨_, rfl⟩), Nat.lt_irrefl, decide_false, Bool.false_and, Bool.false_eq_true, not_false_eq_true]

theorem witness_sensingCommands : hosted.powered = true ∧ hosted.trigSource 5 = 0 ∧ hosted.trigSource 70 = 1 ∧ (hosted.adc 5).settle ≤ 1 ∧
    1 < (sensed.adc 5).settle ∧ (sensed.adc 70).trigBusy = true ∧ (sensed.diode 3).failed = true ∧ (hosted.diode 3).failed = false ∧
    tempOut (diodeTemp 65536 0 1600000 1800000) = false ∧ tempOut (diodeTemp 65536 0 1600000 1600000) = true ∧ tempOut (hosted.thermNow 2) = true ∧
    tempOut (({ hosted with sense := { adcs := [(66, { code := 3200000 }), (92, { code := 6400000 })] } } : State).thermNow 2) = false ∧ sensed.neighbourReadings 0 = [1600] ∧ hosted.neighbourReadings 0 = [] ∧
    (1600 : Int) - median [1600] = 0 ∧ (0 : Nat) + 3 * cadenceTicks 0 ≤ sensed.time.tick ∧ (sensed.therm 2).failed = false ∧
    sensed.allBelow = true ∧ 0 < sensed.sense.tlevel ∧ sensed.sense.stop = 0 ∧
    max sensed.sense.lastChange sensed.sense.belowSince + ms (sensed.setting 0x130009 100) ≤ sensed.time.tick ∧
    ({ sensed with sense := { stop := 2, stopBoundary := some 1 } } : State).sense.stopBoundary.isSome = true ∧
    ({ sensed with sense := { stop := 2 } } : State).stopOverdue = true ∧ sensed.adcDue = true ∧ newGain 6400000 0 = some 4194304 ∧
    0 + sensed.calTicks ≤ sensed.time.tick ∧ 0 + 30000000 ≤ sensed.time.tick := by decide +kernel

theorem witness_powerAndResets : State.reset.power.vaux = true ∧ ({ State.reset with power := { vaux := false } } : State).power.vaux = false ∧
    State.reset.power.fwCheck = true ∧ booted.power.fwCheck = false ∧ booted.maySequence = true ∧ hosted.maySequence = false ∧ railStepOf 3 = some 3 ∧
    railStepOf 13 = none ∧ railed.power.railStep = 6 ∧ Tab.get 0 railed.power.phases 0 ≠ 2 ∧ (railed.setPhase 0 2).sparePhase 0 = some 16 ∧
    11 * railed.powerLimit < 10 * 1700000 ∧ railed.power.level < 7 ∧ railed.warmOk = true ∧ State.reset.warmOk = false ∧
    ({ State.reset with power := { state := 4 } } : State).power.state = 4 ∧ railed.powered = true ∧ railed.serving.state = 0 ∧
    ({ railed with settings := [(0x110009, 2)] } : State).setting 0x110009 0 = 2 ∧
    ({ railed with rel := { restartTicks := [0, 0, 0] } } : State).rel.restartTicks.length = 3 ∧
    ({ booted with power := { booted.power with railStep := 6, state := 1 } } : State).power.railStep = 6 ∧ booted.binary.current = none ∧
    booted.bootUncovered [(7, 2, 0), (7, 3, 1)] = [] ∧ booted.bootUncovered [(7, 2, 2)] = [(7, 2, 2)] := by decide +kernel

theorem witness_securityCommands : booted.power.fwCheck = false ∧ booted.power.recovery = false ∧ booted.power.running = booted.activeSlot ∧
    keyForm (slice [] 8 422) = true ∧ State.reset.power.lifecycle = 0 ∧ transition 0 1 = some (true, false) ∧ transition 0 2 = none ∧
    State.reset.lifecycleCode 2 Config.serialNumber = 1 ∧ fwFails [0] 0 = some 1 ∧ imageReserved [0] = false ∧ ownerReserved [] = false := by decide +kernel
/-- A transition that is accepted: SCRAPPED from DEPLOYED, with the power stages off. -/
theorem witness_securityCommands_scrap :
    ({ State.reset with power := { lifecycle := 2, in48 := true } } : State).lifecycleCode 4 Config.serialNumber = 0 := by
  simp [State.lifecycleCode, transition, State.reset]

theorem witness_debugFlag : State.reset.power.lifecycle = 0 ∧ ({ State.reset with power := { lifecycle := 2 } } : State).power.lifecycle = 2 ∧
    State.reset.power.vaux = true := by decide

theorem witness_spdmCommands : booted.spdmUp .i3c = true ∧ booted.spdmUp .mailbox = false ∧ field [0x12, 0x81] 0 1 = 0x12 ∧ field [0x10, 0x81] 0 1 ≠ 0x12 ∧
    booted.spdmReady [0x12, 0x81] = some 4 ∧ negotiated.spdmReady [0x12, 0x81] = none ∧ negotiated.spdmUp .i3c = true ∧
    measWanted 2 = some [2] ∧ measWanted 9 = none ∧ spdmChain.length ≠ 0 := by
  refine ⟨by decide, by decide, by decide, by decide, by decide, by decide, by decide, by decide, by decide, ?_⟩
  simp [spdmChain, leBytes]

theorem witness_managementCommands : booted.pathUp .i3c = true ∧ booted.pathUp .mailbox = false ∧ booted.waiting .i3c = [] ∧
    booted.status .i3c (request 1 5 0x1000 1 0 0 4 []) = 0 ∧ booted.status .i3c (request 1 5 0x1001 1 0 0 4 []) = 1 ∧
    mOp (request 3 5 0x1000 1 0 0 0 []) = 3 ∧ booted.status .i3c (request 3 5 0x1000 1 0 0 0 []) = 0 ∧
    railed.status .i3c (request 2 5 0x2300 3 1 0 1 [7]) = 0 ∧ (queuedOn.inExecution .i3c).length = 1 ∧
    ({ railed with host := { linkSt := 2 } } : State).pathUp .mailbox = true ∧ wrapperOk [2, 0, 0, 0] = false ∧
    booted.snapNow = true ∧ railed.snapNow = false ∧ railed.status .i3c (request 1 5 0x1F00 1 0 0 1024 []) = 0 ∧
    field (request 3 5 0x1000 1 0 0 0 []) 0 1 = 3 := by decide +kernel

/-! ## Field checks: one ill-formed command for each (06, "Illegal instruction word") -/

theorem test_ill_alu : (Instr.alu 7 1 2 3 false 11 0).wellFormed = false := by decide
theorem test_ill_br : (Instr.br 7 7 1 2 0).wellFormed = false := by decide
theorem test_ill_pass_nrows : (Instr.pass 7 1 0 0 0 0 4 true false false).wellFormed = false := by decide
theorem test_ill_pass_width : (Instr.pass 7 1 0 0 0 1 6 true false false).wellFormed = false := by decide
theorem test_ill_rqnt_outputs : (Instr.rqnt 7 0 100 29 1 0 true 1 2).wellFormed = false := by decide
theorem test_ill_rqnt_format : (Instr.rqnt 7 0 0 1 0 5 false 1 2).wellFormed = false := by decide
theorem test_ill_wopen : (Instr.wopen 7 0 0 31 2).wellFormed = false := by decide
theorem test_ill_creq_count : (Instr.creq 7 9 0 2 true 0 0).wellFormed = false := by decide
theorem test_ill_creq_row : (Instr.creq 7 9 0 1 false 1 0).wellFormed = false := by decide
theorem test_ill_rwr : (Instr.rwr 7 9 0 0 60 5 false 0 1 false).wellFormed = false := by decide
theorem test_ill_mwr : (Instr.mwr 7 1 0 0 0 1 true 0 1 false).wellFormed = false := by decide
theorem test_ill_red : (Instr.red 7 8191 0 false 0 0 0).wellFormed = false := by decide
theorem test_ill_dma : (Instr.dma 7 false false 3 0 0 1 1).wellFormed = false := by decide
theorem test_ill_xld : (Instr.xld 7 false 1 2 0 0).wellFormed = false := by decide
theorem test_ill_mma : (Instr.mma 7 0 0 0 1024 false false false 1).wellFormed = false := by decide
theorem test_ill_mwo : (Instr.mwo 7 3 0 0 0 1 2).wellFormed = false := by decide
theorem test_ill_qnt : (Instr.qnt 7 2 1 2 3 4 0).wellFormed = false := by decide
theorem test_ill_vop : (Instr.vop 7 8 2 1 2 3 4 0).wellFormed = false := by decide
theorem test_ill_vtopk : (Instr.vtopk 7 3 1 2 3 6 true).wellFormed = false := by decide
theorem test_ill_vacc : (Instr.vacc 7 1 2 3 5).wellFormed = false := by decide
/-- An ill-formed command is refused by name. -/
theorem test_ill_refused : exec (.vacc 7 1 2 3 5) State.reset = .refused .illFormed := rfl
/-- The boundary values that the checks let pass. -/
theorem test_well_formed : (Instr.wopen 7 0 0 31 1).wellFormed = true ∧ (Instr.rwr 7 5106 0 0 0 64 true 64 1 true).wellFormed = true ∧
    (Instr.pass 7 1 0 0 1023 1024 5 true true true).wellFormed = true ∧ (Instr.mma 7 1 0 0 2047 false false false 1).wellFormed = true := by decide

/-! ## The worked examples of the spec -/

/-- The bank of Table 2.12: output 0 in columns 0 to 3, output 1 in columns 4 to 7, the residues in columns 256 to 263. -/
def tableBank : ABank := { st := .compute, rows := [(0, 0xF3 ||| (2#268 <<< 256)), (1, 0x4E ||| (2#268 <<< 256)), (2, 0x68 ||| (254#268 <<< 256))] }
/-- A pass over rows 0 to 2 at WIDTH w. -/
def tableOp (w : Nat) : PassOp := { slot := 0, bsel := 0, first := 0, nrows := 3, width := w, sign := true, dense := false, acc := false, tile := none }
/-- The activations 5, −3 and 7. -/
def tableSlot : InSlot := { elems := [(0, 5), (1, 0xFFFD), (2, 7)] }
/-- 02 2.8, Table 2.12: the weights. -/
theorem test_weights : [0, 1, 2].map (fun r => (tableBank.weight r 0, tableBank.weight r 1)) = [(3, -1), (-2, 4), (-8, 6)] := by decide +kernel
/-- 02 2.8: the pass sums. -/
theorem test_pass_sums : [0, 1, 2].map (passSum (tableOp 2) tableSlot tableBank 256 4 []) = [-35, 25, 0] := by decide +kernel
/-- 02 2.8: every cycle matches; with the cell of row 1, column 2 stuck at 0 the first one does not. -/
theorem test_pass_check : firstBad (tableOp 2) tableSlot tableBank 256 4 [] = none ∧
    firstBad (tableOp 2) tableSlot { tableBank with stuck0 := [(1, 4)] } 256 4 [] = some 0 := by decide +kernel
/-- 02 2.8, the second example: ternary over four rows. -/
theorem test_ternary : passSum { tableOp 2 with nrows := 4 } { elems := [(0, 6), (1, 0xFFFC), (2, 3), (3, 1)] }
    { st := .compute, layout := .ternary, rows := [(0, 1), (1, 2), (3, 2)] } 256 4 [] 0 = 9 := by decide +kernel
/-- 03 3.6, Table 3.15: the heartwood sums of the same weights at A16. -/
theorem test_heartwood : [0, 1].map (passSum (tableOp 5) { elems := [(0, 20000), (1, 0x8000), (2, 12345)] } tableBank 256 16 []) =
    [26776, -77002] := by decide +kernel
/-- 03 Table 3.15: the two RAW48 words of output 1. -/
theorem test_raw48 : rawWords (BitVec.ofInt 48 (-77002)) = [0xFFFED336, 0xFFFFFFFF] := by decide
/-- 03 Table 3.7: the rounding examples. -/
theorem test_rounding : requantV (-35) 3 2 0 = -26 ∧ requantV 25 6 2 0 = 38 ∧ requantV 18 1 2 0 = 4 ∧ requantV (-18) 1 2 0 = -4 ∧
    requantV 7 1 0 0 = 7 ∧ requantV 1000 1717986918 33 0 = 200 := by decide
/-- 03 3.6: the same accumulators through an ACT-mode step. -/
theorem test_act : requantV 26776 1 8 0 = 105 ∧ requantV (-77002) 1 8 0 = -301 ∧ clip (fmtLo 4 true) (fmtHi 4 true) (-301) = -128 := by decide
/-- 03 R66: element 7 of an A6 vector lies in the second element word at bits 17 to 12; 1,024 elements take 205 words. -/
theorem test_a6 : elemInt 3 true [0, 0x3D000] 7 = -3 ∧ elemWords 3 1024 = 205 := by decide
/-- 03 Table 3.14: 2 clips in 1,024 outputs fire a tile of threshold 16; the repeat costs 57 cycles and runs at A6. -/
theorem test_sentinel :
    let t : Tile :=
      { uid := 1, num := 0x12, word := 0x00C8FFFF8B000012#64, thresh := 16, mode := 1, fmt := 2, outputs := 1024, clips := 2,
        steps := [.pass 3 { tableOp 4 with nrows := 1024 } none none 32, .rqnt 3 { rqAt with nout := 64 }] }
    t.fires = true ∧ t.nextFmt = some 3 ∧ t.repeatCost = 57 := by decide
/-- 06 Table 6.4: the two encodings decode to their instructions. -/
theorem test_encodings : opInstr 7 0x11 0x11FFFF0004009000 = some (.pass 7 0xFFFF 0 0 0 1024 4 true false false) ∧
    opInstr 7 0x28 0x2806998400000041 = some (.creq 7 211 3 2 false 0 0x41) := by decide
/-- 00 and 10: the stand (E, 7, 12), and stack 0, endpoint 5, pseudo-channel 3 of tier-A address 100,000,000,000. -/
theorem test_numbers : standAt 57 12 = 3107 ∧ endpointOf false 100000000000 = 5005 ∧ pchOf 100000000000 = 43 := by decide
/-- 13 13.2: the corrections of channel 73 and its rail in millivolts. -/
theorem test_rail :
    let a : Adc := { offset := -1250, gain := 4193885 }
    a.correct 6401890 = 6400001 ∧ a.correct 1410500 = 1409109 ∧
      ({ State.reset with sense := { adcs := [(73, { a with code := 1409109 })] } } : State).railMv 1 = 550 := by decide
/-- 16 16.3: a board sensor at 85 degrees; an unused pin, a resistor of 10,000 ohm, reads 25 degrees; open and shorted pins fail. -/
theorem test_thermistor : (5440 ≤ thermTemp 3435 10000 810970 6400000 ∧ thermTemp 3435 10000 810970 6400000 ≤ 5441) ∧ thermTemp 3435 10000 3200000 6400000 = 1600 ∧
    tempOut (thermTemp 3435 10000 6400000 6400000) = true ∧ tempOut (thermTemp 3435 10000 0 6400000) = true := by decide +kernel
/-- 13 R392: at 25 degrees and unity ideality 71.235 mV lie between the two currents. -/
theorem test_diode : diodeTemp 65536 0 1600000 1782361 = 1600 := by decide +kernel
/-- 11 Table 11.8: the neighbours of positions 5, 6 and 14, and the ports that meet. -/
theorem test_neighbours : neighbours 5 = [4, 6, 7, 1, 9, 13] ∧ neighbours 6 = [4, 5, 7, 2, 10, 14] ∧
    neighbours 14 = [12, 13, 15, 2, 6, 10] ∧ neighbourIdx 6 14 = some 5 ∧ neighbourIdx 14 6 = some 4 := by decide

end Sys2Proof.Tests
end

section
/-! Weight arrays (02): the geometry of a pass, a pass issued at an idle position, and the verdict of a pass. -/

namespace Sys2Proof.Machine

/-! ## Rows, groups and activation weights (R40, R45, R46) -/

/-- The driven rows end at the first undriven one, the smaller of FIRST + NROWS and 1,024 (R45). -/
theorem first_add_passRows (op : PassOp) (h : op.first < 1024) :
    op.first + passRows op = min (op.first + op.nrows) 1024 := by
  unfold passRows
  omega

/-- A row group holds the driven rows of its span of `budget` rows (R46). -/
theorem mem_groupRows (op : PassOp) (budget q r : Nat) :
    r ∈ groupRows op budget q ↔
      op.first + q * budget ≤ r ∧ r < op.first + (q + 1) * budget ∧ r < op.first + passRows op := by
  simp only [groupRows, List.mem_map, List.mem_range, Nat.succ_mul]
  constructor
  · rintro ⟨i, hi, rfl⟩
    omega
  · intro h
    exact ⟨r - op.first - q * budget, by omega, by omega⟩

/-- A driven row lies in the group that its distance from the first row names, and in no other. -/
theorem mem_groupRows_iff_div (op : PassOp) {budget q r : Nat} (hb : 0 < budget) (h₁ : op.first ≤ r)
    (h₂ : r < op.first + passRows op) : r ∈ groupRows op budget q ↔ (r - op.first) / budget = q := by
  rw [mem_groupRows, Nat.div_eq_iff hb, Nat.succ_mul]
  omega

/-- The group of the n-th of N driven rows is one of the groups of the pass. -/
theorem div_lt_groups {n N budget : Nat} (hb : 0 < budget) (h : n < N) : n / budget < groups N budget :=
  calc n / budget < n / budget + 1 := Nat.lt_succ_self _
    _ = (n + budget) / budget := (Nat.add_div_right n hb).symm
    _ ≤ (N + budget - 1) / budget := Nat.div_le_div_right (by omega)

/-- Settles O13, from the span of a row group and the group number of a driven row. -/
theorem passGeometry : Obligations.PassGeometry := by
  unfold Obligations.PassGeometry
  intro op budget hf hn hb
  have hend := first_add_passRows op hf
  refine ⟨by omega, fun r q => ?_, fun r h₁ h₂ => ?_, fun b j _ => ⟨by simp [aw], by simp [aw]⟩⟩
  · rw [mem_groupRows, hend]
  · rw [← hend] at h₂
    refine ⟨(r - op.first) / budget, div_lt_groups hb (by omega), (mem_groupRows_iff_div op hb h₁ h₂).2 rfl, fun q' h => ?_⟩
    exact ((mem_groupRows_iff_div op hb h₁ h₂).1 h).symm

/-! ## Positions, cores and the core that fills a position (R97, R364) -/

@[simp] theorem Stand.pos_modPos (x : Stand) (p : Nat) (f : PosUnit → PosUnit) : (x.modPos p f).pos p = f (x.pos p) := by
  simp [Stand.pos, Stand.modPos]
theorem Stand.pos_modPos_ne (x : Stand) {p q : Nat} (f : PosUnit → PosUnit) (h : q ≠ p) : (x.modPos p f).pos q = x.pos q := by
  simp [Stand.pos, Stand.modPos, Tab.get_set_ne _ _ _ h]
@[simp] theorem Stand.repeatHolds_modPos (x : Stand) (p q : Nat) (f : PosUnit → PosUnit) :
    (x.modPos p f).repeatHolds q = x.repeatHolds q := rfl

@[simp] theorem State.core_modStand (s : State) (st m c : Nat) (f : Stand → Stand) : (s.modStand st f).core m c = s.core m c := rfl
@[simp] theorem State.core_count (s : State) (k n m c : Nat) : (s.count k n).core m c = s.core m c := rfl
theorem State.core_modCore_ne (s : State) {st c d : Nat} (f : Core → Core) (h : d ≠ c) : (s.modCore st c f).core st d = s.core st d :=
  Tab.get_set_ne _ _ _ (by simpa [arrayNo] using h)
@[simp] theorem State.stand_modCore (s : State) (st c m : Nat) (f : Core → Core) : (s.modCore st c f).stand m = s.stand m := rfl
@[simp] theorem State.counter_modCore (s : State) (st c k : Nat) (f : Core → Core) : (s.modCore st c f).counter k = s.counter k := rfl
/-- A change of one core leaves every other array of the table. -/
theorem State.cores_modCore_ne (s : State) {st c n : Nat} (f : Core → Core) (h : n ≠ arrayNo st c) :
    Tab.get {} (s.modCore st c f).cores n = Tab.get {} s.cores n := Tab.get_set_ne _ _ _ h

/-- What decides which core fills a position: the stand's quarantine, service map and pairings, and the fences of its cores. -/
theorem State.fill_congr {s t : State} {st p : Nat} (hq : (t.stand st).quarantined = (s.stand st).quarantined)
    (hs : (t.stand st).svc = (s.stand st).svc) (hp : (t.stand st).paired p = (s.stand st).paired p)
    (hc : ∀ d, (t.core st d).fenced = (s.core st d).fenced) : t.fill st p = s.fill st p := by
  simp only [State.fill, hq, hs, hp, hc]
@[simp] theorem State.fill_count (s : State) (k n st p : Nat) : (s.count k n).fill st p = s.fill st p := rfl
@[simp] theorem State.fill_log (s : State) (r : ErrRec) (st p : Nat) : (s.log r).fill st p = s.fill st p :=
  State.fill_congr (by rw [State.stand_log]) (by rw [State.stand_log]) (by rw [State.stand_log]) fun d => by rw [State.core_log]
/-- The queues and engines of a stand decide nothing about which core fills a position. -/
@[simp] theorem State.fill_units (s : State) (st p : Nat) (g : Stand → Tab PosUnit) :
    (s.modStand st fun x => { x with units := g x }).fill st p = s.fill st p :=
  State.fill_congr (by rw [State.stand_modStand]) (by rw [State.stand_modStand])
    (by rw [State.stand_modStand]; rfl) fun _ => rfl
@[simp] theorem State.fill_modPos (s : State) (st p q : Nat) (f : PosUnit → PosUnit) :
    (s.modStand st fun x => x.modPos q f).fill st p = s.fill st p := s.fill_units st p _
@[simp] theorem State.fill_issued (s : State) (st p : Nat) : (s.issued st).fill st p = s.fill st p :=
  State.fill_congr (by rw [State.stand_issued]) (by rw [State.stand_issued]) (by rw [State.stand_issued]; rfl) fun _ => rfl
/-- A change of a core that keeps its fence keeps the core that fills a position. -/
theorem State.fill_modCore (s : State) (st c p : Nat) {f : Core → Core} (hf : ∀ x, (f x).fenced = x.fenced) :
    (s.modCore st c f).fill st p = s.fill st p := by
  refine State.fill_congr rfl rfl rfl fun d => ?_
  by_cases h : d = c
  · rw [h, State.core_modCore, hf]
  · rw [State.core_modCore_ne s f h]
/-- The core that fills a position is the one that the service map names. -/
theorem State.eq_of_fill {s : State} {st p c : Nat} (h : s.fill st p = some c) :
    c = if (s.stand st).svc.valid ∧ (s.stand st).svc.spos = p then 16 else p := by
  simp only [State.fill, Option.ite_none_left_eq_some] at h
  obtain ⟨-, -, -, h⟩ := h
  exact (Option.some.inj h).symm
/-- The core that fills a position is not fenced (R364). -/
theorem State.open_of_fill {s : State} {st p c : Nat} (h : s.fill st p = some c) : (s.core st c).fenced = false := by
  have hc := State.eq_of_fill h
  simp only [State.fill, Option.ite_none_left_eq_some] at h
  obtain ⟨-, hopen, -, -⟩ := h
  rw [← hc] at hopen
  exact Bool.eq_false_iff.2 hopen
/-- A position whose core was fenced has none (R364). -/
theorem State.fill_fenced {s : State} {st p c : Nat} (h : s.fill st p = some c) {f : Core → Core} (hf : ∀ x, (f x).fenced = true) :
    (s.modCore st c f).fill st p = none := by
  rw [Option.eq_none_iff_forall_ne_some]
  intro d hd
  have hdc : d = c := (State.eq_of_fill hd).trans (State.eq_of_fill h).symm
  have hopen := State.open_of_fill hd
  rw [hdc, State.core_modCore, hf] at hopen
  cases hopen

end Sys2Proof.Machine
end

section
/-! The verdict of a pass (02 R35, R42, R52 to R57; 12 R364). -/

namespace Sys2Proof.Machine

/-! ## Settling the oldest pass -/

/-- The pipeline of a position when its oldest pass has settled: a requantize step waits for one pass less (R57, R171). -/
def PosUnit.settle (u : PosUnit) : PosUnit :=
  { u with passes := u.passes.drop 1, rq := u.rq.map fun j => { j with earlier := j.earlier - 1 } }

/-- A filled position with an empty queue has nothing to begin. -/
theorem State.pumpPos_of_empty {s : State} {st p c : Nat} (hf : s.fill st p = some c) (hq : ((s.stand st).pos p).queue = []) :
    s.pumpPos st p = s := by
  simp [State.pumpPos, hf, hq, State.pumpCore]
/-- With an empty queue a settled pass leaves the pipeline, and nothing begins. -/
theorem State.popPass_of_empty {s : State} {st p c : Nat} (hf : s.fill st p = some c) (hq : ((s.stand st).pos p).queue = []) :
    s.popPass st p = s.modStand st fun x => x.modPos p PosUnit.settle := by
  have hf' : (s.modStand st fun x => x.modPos p PosUnit.settle).fill st p = some c := by rw [State.fill_modPos, hf]
  exact State.pumpPos_of_empty hf' (by simpa using hq)

theorem State.popPass_frame {s : State} {st p c : Nat} (hf : s.fill st p = some c) (hq : ((s.stand st).pos p).queue = []) :
    (s.popPass st p).cores = s.cores ∧ (s.popPass st p).stand st = (s.stand st).modPos p PosUnit.settle := by
  rw [State.popPass_of_empty hf hq]
  exact ⟨rfl, State.stand_modStand ..⟩

/-- A bank-select conflict reaches the pipeline of its position, its counter and the records. -/
theorem State.settleConflict_frame {s : State} {st p c : Nat} (j : PassJob) (hf : s.fill st p = some c)
    (hq : ((s.stand st).pos p).queue = []) :
    (s.settleConflict st p c j).cores = s.cores ∧ (s.settleConflict st p c j).stand st = (s.stand st).modPos p PosUnit.settle ∧
      (s.settleConflict st p c j).counter 0x522007 = (s.counter 0x522007 + 1) % 2 ^ 64 ∧ s.standWork (s.settleConflict st p c j) st := by
  unfold State.settleConflict
  rw [State.popPass_of_empty (c := c) (by simpa using hf) (by simpa using hq)]
  refine ⟨by simp, by simp, by simp [State.counter_log_ne], ?_, by simp [Stand.modPos], fun m hm => ?_⟩
  · rw [State.log_frame]
    rfl
  · simp [State.stand_modStand_ne _ _ hm]

/-! ## Commit (R41, R42) -/

@[simp] theorem Core.putSums_acc (x : Core) (v : List Int) : (x.putSums v).acc = x.acc := by
  unfold Core.putSums
  split <;> rfl
@[simp] theorem Core.putSums_fenced (x : Core) (v : List Int) : (x.putSums v).fenced = x.fenced := by
  unfold Core.putSums
  split <;> rfl

/-- A committed accumulator is the pass sum, on top of its old value under ADD. -/
theorem get_commitAcc (acc : Tab Acc) (add : Bool) (sums : List Int) {o : Nat} (h : o < sums.length) :
    Tab.get 0 (commitAcc acc add sums) o = (if add then Tab.get 0 acc o else 0) + BitVec.ofInt 48 sums[o] := by
  unfold commitAcc
  have hget := Tab.get_setRun_in 0 (sums.zipIdx.map fun e => (if add then Tab.get 0 acc e.2 else 0) + BitVec.ofInt 48 e.1)
    acc 0 o (by simpa using h)
  rw [Nat.zero_add] at hget
  rw [hget]
  simp [List.getD_eq_getElem?_getD, h]
/-- Accumulators beyond the outputs of the layout stay. -/
theorem get_commitAcc_beyond (acc : Tab Acc) (add : Bool) (sums : List Int) {o : Nat} (h : sums.length ≤ o) :
    Tab.get 0 (commitAcc acc add sums) o = Tab.get 0 acc o :=
  Tab.get_setRun_out _ _ _ _ _ (Or.inr (by simpa using h))
@[simp] theorem length_jobSums (x : Core) (j : PassJob) (ds : List Disturb) :
    (jobSums x j ds).length = outputsOf (x.bank j.bankB).layout := by
  simp [jobSums]
theorem getElem_jobSums (x : Core) (j : PassJob) (ds : List Disturb) {o : Nat} (h : o < (jobSums x j ds).length) :
    (jobSums x j ds)[o] = passSum j.op (x.slot j.op.slot) (x.bank j.bankB) j.budget j.bits ds o := by
  simp [jobSums]

/-- A core after the commit of a pass: the sums of the execution are latched and committed (R42). -/
def Core.commit (j : PassJob) (ds : List Disturb) (x : Core) : Core :=
  { x.putSums (jobSums x j ds) with acc := commitAcc x.acc j.op.acc (jobSums x j ds) }

/-- The commit of an unpaired pass reaches its core, and at its stand the pipeline of its position. -/
theorem State.commitPass_frame {s : State} {st p c : Nat} {j : PassJob} (ds : List Disturb) (hf : s.fill st p = some c)
    (hq : ((s.stand st).pos p).queue = []) (hp : j.paired = false) :
    (s.commitPass st p c j ds).cores = (s.modCore st c (Core.commit j ds)).cores ∧
      (s.commitPass st p c j ds).stand st = (s.stand st).modPos p PosUnit.settle := by
  have hf' : (s.modCore st c (Core.commit j ds)).fill st p = some c := by
    rw [State.fill_modCore s st c p fun x => by simp [Core.commit], hf]
  unfold State.commitPass
  rw [hp]
  cases j.reexec with
  | none => exact State.popPass_frame hf' hq
  | some k =>
    have hpop := fun rec => State.popPass_frame (s := ((s.modCore st c (Core.commit j ds)).count 0x522005).log rec)
      ((State.fill_log ..).trans hf') (by rw [State.stand_log]; exact hq)
    simp only [State.stand_log, State.cores_log] at hpop
    exact hpop _

/-! ## Mismatch, repeat and fence (R54, R364) -/

/-- A core after a mismatching execution: its sums are latched, the mismatch is dated. -/
def Core.mismatched (j : PassJob) (ds : List Disturb) (beat : Nat) (x : Core) : Core :=
  { x.putSums (jobSums x j ds) with lastMismatch := beat }

theorem State.noteMismatch_eq (s : State) (st c : Nat) (j : PassJob) (ds : List Disturb) :
    s.noteMismatch st c j ds = (s.count 0x522004).modCore st c (Core.mismatched j ds s.time.beat) := rfl
theorem State.fill_noteMismatch (s : State) (st c p : Nat) (j : PassJob) (ds : List Disturb) :
    (s.noteMismatch st c j ds).fill st p = s.fill st p := by
  rw [State.noteMismatch_eq, State.fill_modCore _ st c p fun x => by simp [Core.mismatched], State.fill_count]

/-- A repeat marks the oldest pass with the cycle that mismatched; every array and every counter but that of split cycles stays. -/
theorem State.reexecute_frame (s : State) (st p k : Nat) {j : PassJob} {r : List PassJob}
    (hj : ((s.stand st).pos p).passes = j :: r) :
    (∀ d, (s.reexecute st p k).core st d = s.core st d) ∧
      (((s.reexecute st p k).stand st).pos p).passes = { j with reexec := some k } :: r ∧
      ∀ n, n ≠ 0x522001 → (s.reexecute st p k).counter n = s.counter n := by
  refine ⟨fun d => rfl, by simp [State.reexecute, hj], fun n hn => ?_⟩
  exact State.counter_count_ne _ _ hn

/-- A fence leaves the sums of its core, and its position vacant and without a core. -/
theorem State.fence_frame {s : State} {st p c : Nat} (bankB : Bool) (hf : s.fill st p = some c) :
    (s.fence st p c bankB).core st c = { s.core st c with fenced := true } ∧
      ((s.fence st p c bankB).stand st).pos p = {} ∧ (s.fence st p c bankB).fill st p = none ∧
      (s.fence st p c bankB).counter 0x522006 = (s.counter 0x522006 + 1) % 2 ^ 64 ∧
      ∀ k, k ≠ 0x522006 → k ≠ 0x540002 → k ≠ 0x525004 → (s.fence st p c bankB).counter k = s.counter k := by
  refine ⟨?_, ?_, ?_, ?_, fun k h₁ h₂ h₃ => ?_⟩
  · simp [State.fence, State.vacate]
  · simp [State.fence, State.vacate, Stand.pos]
  · have hf' : (s.count 0x522006).fill st p = some c := hf
    simp [State.fence, State.vacate, State.fill_fenced hf']
  · simp [State.fence, State.vacate, State.counter_count_ne, State.counter_log_ne]
  · simp [State.fence, State.vacate, State.counter_count_ne, State.counter_log_ne, h₁, h₂, h₃]

/-! ## The verdict of an unpaired pass -/

section
variable {s : State} {st p c : Nat} {j : PassJob} {r : List PassJob} {ds : List Disturb}
  (hf : s.fill st p = some c) (hj : ((s.stand st).pos p).passes = j :: r)
include hf hj

theorem State.verdict_conflict (hc : j.conflict = true) : s.verdict st p ds = s.settleConflict st p c j := by
  simp [State.verdict, hf, hj, hc]
theorem State.verdict_match (hc : j.conflict = false) (hp : j.paired = false) (hb : jobBad (s.core st c) j ds = none) :
    s.verdict st p ds = s.commitPass st p c j ds := by
  simp [State.verdict, hf, hj, hc, hp, hb]
theorem State.verdict_first_mismatch (hc : j.conflict = false) (hp : j.paired = false) {k : Nat}
    (hb : jobBad (s.core st c) j ds = some k) (hr : j.reexec = none) :
    s.verdict st p ds = (s.noteMismatch st c j ds).reexecute st p k := by
  simp [State.verdict, hf, hj, hc, hp, hb, hr]
theorem State.verdict_second_mismatch (hc : j.conflict = false) (hp : j.paired = false) {k : Nat}
    (hb : jobBad (s.core st c) j ds = some k) (hr : j.reexec.isSome = true) :
    s.verdict st p ds = (s.noteMismatch st c j ds).fence st p c j.bankB := by
  simp [State.verdict, hf, hj, hc, hp, hb, hr]

end

/-- PASS_VERDICT answers the state after the verdict. -/
theorem gives_passVerdict {s : State} {st : StandId} {p : Pos} {ds : List Disturb} {P : State → Prop} (h : P (s.verdict st p ds)) :
    s.gives (.passVerdict st p ds) P := ⟨_, rfl, h⟩

/-- Settles O18, by the four verdicts of an unpaired pass and what each settles. -/
theorem passVerdicts : Obligations.PassVerdicts := by
  unfold Obligations.PassVerdicts
  intro s st p ds c j r x y hf hj hq
  refine ⟨fun hc => gives_passVerdict ?conflict, fun hc hp hb => gives_passVerdict ?commit,
    fun hc hp k hb hr => gives_passVerdict ?again, fun hc hp k hb hr => gives_passVerdict ?fence⟩
  case conflict =>
    rw [State.verdict_conflict hf hj hc]
    obtain ⟨hcores, hstand, hcount, hwork⟩ := State.settleConflict_frame j hf hq
    exact ⟨hcores, by rw [hstand]; simp [PosUnit.settle, x, hj], hcount, hwork⟩
  case commit =>
    rw [State.verdict_match hf hj hc hp hb]
    obtain ⟨hcores, hstand⟩ := State.commitPass_frame ds hf hq hp
    have hcore : (s.commitPass st p c j ds).core st c = Core.commit j ds y := by
      rw [State.core, hcores]
      exact State.core_modCore s st c _
    rw [hcore, hstand, hcores]
    refine ⟨fun o ho => ?_, fun o ho => ?_, by simp [PosUnit.settle, x, hj], fun n => State.cores_modCore_ne s _, rfl, rfl⟩
    · rw [Core.commit, get_commitAcc _ _ _ (by simpa using ho), getElem_jobSums]
    · exact get_commitAcc_beyond _ _ _ (by simpa using ho)
  case again =>
    rw [State.verdict_first_mismatch hf hj hc hp hb hr]
    obtain ⟨hcore, hpasses, hcount⟩ := State.reexecute_frame (s.noteMismatch st c j ds) st p k hj
    rw [hcore, hpasses, hcount _ (by decide), State.noteMismatch_eq]
    simp [Core.mismatched, y]
  case fence =>
    rw [State.verdict_second_mismatch hf hj hc hp hb hr]
    have hf' : (s.noteMismatch st c j ds).fill st p = some c := by rw [State.fill_noteMismatch, hf]
    obtain ⟨hcore, hpos, hfill, hfenced, hcount⟩ := State.fence_frame j.bankB hf'
    rw [hcore, hpos, hfill, hfenced, hcount _ (by decide) (by decide) (by decide), State.noteMismatch_eq]
    simp [Core.mismatched, y, State.counter_count_ne]

end Sys2Proof.Machine
end

section
/-! A pass issued at an idle position (02 R33, R35, R43, R44; 03 R70; 06 R150, R151, R157). -/

namespace Sys2Proof.Machine

/-! ## What a pass latches when it issues -/

/-- A dense request is granted when the budgets of the stand's other positions leave room for 512 rows (R44). -/
def State.denseGranted (s : State) (st p : Nat) (op : PassOp) : Bool :=
  op.dense && decide ((s.stand st).budgets p + 512 ≤ s.setting 0x220003 4096)

/-- The pass as it enters the pipeline: bank, conflict, budget and width latched (R33, R35, R43, R44, R70). -/
def State.latched (s : State) (st p c : Nat) (op : PassOp) : PassJob :=
  let y := s.core st c
  let bankB := op.bankFix.getD (y.select op.bsel)
  { op, bankB, conflict := !(y.bank bankB).usable, budget := if s.denseGranted st p op then 512 else 256,
    bits := passBits op (y.slot op.slot), paired := decide (if bankB then (s.stand st).pairB = some p else (s.stand st).pairA = some p) }

theorem State.budget_latched (s : State) (st p c : Nat) (op : PassOp) :
    (s.latched st p c op).budget = if s.denseGranted st p op then 512 else 256 := rfl

theorem State.budget_latched_or (s : State) (st p c : Nat) (op : PassOp) :
    (s.latched st p c op).budget = 256 ∨ (s.latched st p c op).budget = 512 := by
  rw [State.budget_latched]
  split
  · exact Or.inr rfl
  · exact Or.inl rfl
theorem State.budget_latched_normal (s : State) {st p c : Nat} {op : PassOp} (hd : op.dense = false) :
    (s.latched st p c op).budget = 256 := by
  simp [State.budget_latched, State.denseGranted, hd]
/-- A dense pass latches 512 when the allowance permits it (R44). -/
theorem State.budget_latched_dense (s : State) {st p c : Nat} {op : PassOp} (hd : op.dense = true) :
    (s.latched st p c op).budget = 512 ↔ (s.stand st).budgets p + 512 ≤ s.setting 0x220003 4096 := by
  simp [State.budget_latched, State.denseGranted, hd]
/-- A pass latches the bank that its select names (R33). -/
theorem State.bankB_latched (s : State) (st p c : Nat) {op : PassOp} (h : op.bankFix = none) :
    (s.latched st p c op).bankB = (s.core st c).select op.bsel := by
  rw [State.latched, h]
  rfl
/-- The activation width of a pass is the larger of its own and that of the slot, when the slot has one (R70). -/
theorem State.bits_latched (s : State) (st p c : Nat) (op : PassOp) : (s.latched st p c op).bits =
    max (fmtBits op.width) ((((s.core st c).slot op.slot).width.map fmtBits).getD 0) := by
  simp only [State.latched, passBits]
  cases ((s.core st c).slot op.slot).width <;> simp
/-- A pass notes a conflict when its bank is not in COMPUTE (R35). -/
theorem State.conflict_latched (s : State) (st p c : Nat) (op : PassOp) :
    (s.latched st p c op).conflict = true ↔ ((s.core st c).bank (s.latched st p c op).bankB).st ≠ .compute := by
  simp [State.latched, ABank.usable]
/-- A pass is paired when its bank's pairing names its position (R287). -/
theorem State.paired_latched (s : State) (st p c : Nat) (op : PassOp) :
    (s.latched st p c op).paired = true ↔
      (if (s.latched st p c op).bankB then (s.stand st).pairB else (s.stand st).pairA) = some p := by
  rw [State.latched]
  cases op.bankFix.getD ((s.core st c).select op.bsel) <;> simp

/-- Outside a tile a pass that issues enters the pipeline of its position; no array changes. -/
theorem State.beginPass_frame (s : State) (st p c : Nat) {op : PassOp} (ht : op.tile = none) :
    (s.beginPass st p c op).cores = s.cores ∧
      (s.beginPass st p c op).stand st =
        (s.stand st).modPos p fun u => { u with passes := u.passes ++ [s.latched st p c op] } := by
  unfold State.beginPass
  rw [ht]
  constructor
  · dsimp only
    split <;> [rfl; split <;> rfl]
  · rw [State.stand_modStand]
    refine congrArg (fun x : Stand => x.modPos p fun u => { u with passes := u.passes ++ [s.latched st p c op] }) ?_
    split <;> [rfl; split <;> rfl]

/-! ## Handing a pass to an idle position -/

/-- Nothing holds back a pass at the head of an empty pipeline (R151). -/
theorem State.coreReady_pass {s : State} {st p : Nat} (op : PassOp) (h : ((s.stand st).pos p).passes = []) :
    s.coreReady st p [] (.pass op) = true := by
  simp [State.coreReady, PosUnit.inEngines, handed, PosUnit.seqFree, h]

/-- A position that holds one operation in its queue and runs nothing. -/
def PosUnit.holding (o : CoreOp) : PosUnit := { queue := [o] }

theorem State.pumpPos_pass {s : State} {st p c : Nat} {op : PassOp} (hf : s.fill st p = some c)
    (hu : (s.stand st).pos p = .holding (.pass op)) (hr : (s.stand st).repeatHolds p = false) :
    s.pumpPos st p = s.beginCore st p c [] (.pass op) := by
  have hready : s.coreReady st p [] (.pass op) = true := State.coreReady_pass op (by rw [hu]; rfl)
  simp [State.pumpPos, hf, hu, PosUnit.holding, State.pumpCore, Stand.mayBegin, hr, State.firstReady, hready]

/-- The state in which a pass handed to an idle position begins: it went through the queue, which is empty again. -/
def State.passThrough (s : State) (st p : Nat) (op : PassOp) : State :=
  (s.modStand st fun x => x.modPos p fun u => { u with queue := u.queue ++ [.pass op] }).modStand st fun x => x.modPos p fun u =>
    { u with queue := u.queue.eraseIdx 0, nrep := if 0 < u.nrep then u.nrep - 1 else u.nrep }

/-- A pass handed to an idle position begins at once. -/
theorem State.handOver_pass {s : State} {st p c : Nat} {op : PassOp} (hf : s.fill st p = some c) (hu : (s.stand st).pos p = {})
    (hr : (s.stand st).repeatHolds p = false) :
    s.handOver st p (.pass op) = (s.passThrough st p op).beginPass st p c op := by
  unfold State.handOver
  rw [if_neg (by simp [hf]), State.pumpPos_pass (c := c) (op := op) (by rw [State.fill_modPos, hf])
    (by simp [hu, PosUnit.holding]) (by simpa using hr)]
  rfl

/-- An idle position is idle again after a pass went through its queue. -/
theorem State.pos_passThrough (s : State) {st p : Nat} (op : PassOp) (hu : (s.stand st).pos p = {}) :
    ((s.passThrough st p op).stand st).pos p = {} := by
  simp [State.passThrough, hu]
theorem State.pos_passThrough_ne (s : State) {st p q : Nat} (op : PassOp) (h : q ≠ p) :
    ((s.passThrough st p op).stand st).pos q = (s.stand st).pos q := by
  simp [State.passThrough, Stand.pos_modPos_ne _ _ h]
theorem State.core_passThrough (s : State) (st p m c : Nat) (op : PassOp) : (s.passThrough st p op).core m c = s.core m c := by
  rw [State.passThrough, State.core_modStand, State.core_modStand]
theorem State.setting_passThrough (s : State) (st p k d : Nat) (op : PassOp) : (s.passThrough st p op).setting k d = s.setting k d := rfl
theorem State.pairA_passThrough (s : State) (st p : Nat) (op : PassOp) :
    ((s.passThrough st p op).stand st).pairA = (s.stand st).pairA := by
  simp [State.passThrough, Stand.modPos]
theorem State.pairB_passThrough (s : State) (st p : Nat) (op : PassOp) :
    ((s.passThrough st p op).stand st).pairB = (s.stand st).pairB := by
  simp [State.passThrough, Stand.modPos]
/-- Where nothing runs in the stand, no budget stands beside a pass (R44). -/
theorem State.budgets_passThrough (s : State) {st : Nat} (p : Nat) (op : PassOp) (h : (s.stand st).units = []) :
    ((s.passThrough st p op).stand st).budgets p = 0 := by
  simp [State.passThrough, Stand.modPos, h, Stand.budgets, Stand.pos, Tab.set, Tab.put, Tab.get]

/-- Outside a tile a pass handed to an idle position joins that position's pipeline; no array and no other position changes. -/
theorem State.handOver_pass_frame {s : State} {st p c : Nat} {op : PassOp} (hf : s.fill st p = some c) (hu : (s.stand st).pos p = {})
    (hr : (s.stand st).repeatHolds p = false) (ht : op.tile = none) :
    let t := s.handOver st p (.pass op)
    t.cores = s.cores ∧ (∀ q, q ≠ p → (t.stand st).pos q = (s.stand st).pos q) ∧
      (t.stand st).pos p = { passes := [(s.passThrough st p op).latched st p c op] } := by
  intro t
  obtain ⟨hcores, hstand⟩ := (s.passThrough st p op).beginPass_frame st p c ht
  rw [← State.handOver_pass hf hu hr] at hcores hstand
  refine ⟨hcores, fun q hq => ?_, ?_⟩
  · rw [hstand, Stand.pos_modPos_ne _ _ hq, State.pos_passThrough_ne _ _ hq]
  · rw [hstand, Stand.pos_modPos, State.pos_passThrough _ _ hu]
    rfl

/-! ## PASS for one position -/

/-- The mask with bit p alone names position p alone. -/
theorem posOf_single (p : Pos) : posOf (BitVec.ofNat 16 (2 ^ p.val)) = [p.val] := by
  revert p
  decide
/-- An idle position has room in its queue. -/
theorem State.coresRoom_single {s : State} {st : Nat} {p : Pos} (hu : (s.stand st).pos p = {}) :
    s.coresRoom st (BitVec.ofNat 16 (2 ^ p.val)) = true := by
  rw [State.coresRoom, posOf_single]
  simp [hu, PosUnit.room]
/-- Outside a tile a PASS for one position hands the pass to it. -/
theorem effPass_single {s : State} {st : Nat} (p : Pos) {op : PassOp} (hs : (s.stand st).tile = none) (ht : op.tile = none) :
    effPass st (BitVec.ofNat 16 (2 ^ p.val)) op s = s.handOver st p (.pass op) := by
  have hop : { op with tile := none } = op := by rw [← ht]
  rw [effPass, posOf_single, hs]
  simp [hop]

theorem State.core_issued (s : State) (st m c : Nat) : (s.issued st).core m c = s.core m c := by
  rw [State.issued, State.core_modStand, State.core_count]
theorem State.pos_issued (s : State) (st q : Nat) : ((s.issued st).stand st).pos q = (s.stand st).pos q := by
  rw [State.stand_issued]
  rfl
/-- Outside a tile a PASS for one idle position issues, and the pass is handed to that position (R150, R157). -/
theorem exec_pass_single {s : State} {st : StandId} {p : Pos} {slot : Fin 2} {bsel : Fin 4} {first : Fin 1024} {nrows : Fin 2048}
    {width : Fin 8} {sign dense acc : Bool} (hi : s.issues st) (hu : (s.stand st).pos p = {}) (ht : (s.stand st).tile = none)
    (hw : passFields nrows width = true) :
    exec (.pass st (BitVec.ofNat 16 (2 ^ p.val)) slot bsel first nrows width sign dense acc) s =
      .next ((s.issued st).handOver st p (.pass { slot, bsel, first, nrows, width, sign, dense, acc, tile := none })) := by
  obtain ⟨hissue, hfree⟩ := hi
  change execPass _ _ _ _ _ _ _ _ _ _ _ = _
  rw [execPass, if_pos hw, State.coresRoom_single hu, State.issue_ready s st _ _ hissue hfree,
    effPass_single p (by rw [State.stand_issued]; exact ht) rfl]

/-- Settles O17, by what the pass latches in the state in which it issues. -/
theorem passAtIdle : Obligations.PassAtIdle := by
  unfold Obligations.PassAtIdle
  intro s st p slot bsel first nrows width sign dense acc c x hi hf hu hr ht hw
  obtain ⟨hcores, hother, hpos⟩ := State.handOver_pass_frame (s := s.issued st) (st := st) (p := p) (c := c)
    (op := { slot, bsel, first, nrows, width, sign, dense, acc, tile := none })
    (by rw [State.fill_issued, hf]) (by rw [State.pos_issued]; exact hu) (by rw [State.stand_issued]; exact hr) rfl
  refine ⟨_, exec_pass_single hi hu ht hw, hcores, fun q hq => (hother q hq).trans (State.pos_issued ..), congrArg PosUnit.queue hpos,
    _, congrArg PosUnit.passes hpos, rfl, rfl, ?bank, ?conflict, ?bits,
    fun hd => State.budget_latched_normal _ hd,
    State.budget_latched_or .., fun hunits hd => ?dense, ?paired⟩
  case bank =>
    rw [State.bankB_latched _ _ _ _ rfl, State.core_passThrough, State.core_issued]
    rfl
  case conflict => rw [State.conflict_latched, State.core_passThrough, State.core_issued]
  case bits => rw [State.bits_latched, State.core_passThrough, State.core_issued]
  case dense =>
    rw [State.budget_latched_dense _ hd, State.budgets_passThrough _ _ _ (by rw [State.stand_issued]; exact hunits), Nat.zero_add,
      State.setting_passThrough]
    rfl
  case paired =>
    rw [State.paired_latched, State.pairA_passThrough, State.pairB_passThrough, State.stand_issued]

end Sys2Proof.Machine
end

section
/-! Formats (03): the requantizer's arithmetic (R73). -/

namespace Sys2Proof.Machine

/-! ## Rounding and clipping (R73) -/

/-- A fraction rounded to the nearest integer: within half of the divisor, and even when exactly half away (R73). -/
theorem roundHalfEven_nearest (n : Int) {d : Nat} (hd : 0 < d) :
    let q := roundHalfEven n d
    2 * (q * d - n) ≤ d ∧ -(d : Int) ≤ 2 * (q * d - n) ∧
      (2 * (q * d - n) = d ∨ -(d : Int) = 2 * (q * d - n) → q % 2 = 0) := by
  have hpos : (0 : Int) < d := by exact_mod_cast hd
  have hdiv : n / d * d + n % d = n := Int.ediv_mul_add_emod n d
  have hr0 := Int.emod_nonneg n hpos.ne'
  have hrd := Int.emod_lt_of_pos n hpos
  have hup : (n / d + 1) * (d : Int) = n / d * d + d := by ring
  have hr : n - n / d * d = n % d := by omega
  simp only [roundHalfEven, hr]
  split
  case isTrue h => rw [hup]; omega
  case isFalse h => omega

theorem requantV_sub (acc m z : Int) (sh : Nat) :
    requantV acc m sh z - z = if sh = 0 then acc * m else roundHalfEven (acc * m) (2 ^ sh) :=
  Int.add_sub_cancel _ _

/-- The requantized value before the zero point is added is the nearest integer, a tie to the even one. -/
theorem requantV_nearest (acc m z : Int) (sh : Nat) :
    let q := requantV acc m sh z - z
    2 * (q * 2 ^ sh - acc * m) ≤ 2 ^ sh ∧ -(2 ^ sh : Int) ≤ 2 * (q * 2 ^ sh - acc * m) ∧
      (2 * (q * 2 ^ sh - acc * m) = 2 ^ sh ∨ -(2 ^ sh : Int) = 2 * (q * 2 ^ sh - acc * m) → q % 2 = 0) := by
  intro q
  obtain rfl | hsh := Nat.eq_zero_or_pos sh
  · have hq : q = acc * m := requantV_sub acc m z 0
    simp [hq]
  · have hq : q = roundHalfEven (acc * m) (2 ^ sh) := (requantV_sub acc m z sh).trans (if_neg hsh.ne')
    simpa only [hq, Nat.cast_pow, Nat.cast_ofNat] using roundHalfEven_nearest (acc * m) (Nat.two_pow_pos sh)

/-- The clip holds a value between the bounds, and is counted exactly when the value lies outside them. -/
theorem clip_cases (lo hi v : Int) (h : lo ≤ hi) :
    lo ≤ clip lo hi v ∧ clip lo hi v ≤ hi ∧ (clips lo hi v = true ↔ v < lo ∨ hi < v) ∧
      (clips lo hi v = false → clip lo hi v = v) ∧ (v < lo → clip lo hi v = lo) ∧ (hi < v → clip lo hi v = hi) := by
  simp only [clip, clips, decide_eq_true_eq, decide_eq_false_iff_not, iff_self, true_and]
  split
  case isTrue => omega
  case isFalse => split <;> omega

/-- Settles O14, by the bounds of the rounding, of the clip, and the examples of Table 3.7. -/
theorem requantFormula : Obligations.RequantFormula := by
  unfold Obligations.RequantFormula
  exact fun acc m z sh => ⟨requantV_nearest acc m z sh, clip_cases, by decide⟩

end Sys2Proof.Machine
end

section
/-! Operations handed to an idle position: a load (03 R68, R69; 06 R156) and a requantize step (03 R72, R483; 06 R158). -/

namespace Sys2Proof.Machine

/-! ## An operation through the queue of an idle position (R150, R151) -/

/-- The state in which an operation stands at the end of its position's queue. -/
def State.queued (s : State) (st p : Nat) (o : CoreOp) : State :=
  s.modStand st fun x => x.modPos p fun u => { u with queue := u.queue ++ [o] }
/-- The state in which an operation handed to an idle position begins: it went through the queue, which is empty again. -/
def State.throughQueue (s : State) (st p : Nat) (o : CoreOp) : State :=
  (s.queued st p o).modStand st fun x => x.modPos p fun u =>
    { u with queue := u.queue.eraseIdx 0, nrep := if 0 < u.nrep then u.nrep - 1 else u.nrep }

/-- Only the unit of one position changes; it is one of the changes that a read may make. -/
theorem State.readsAt_modPos (s : State) (st p : Nat) (f : PosUnit → PosUnit) : s.readsAt (s.modStand st fun x => x.modPos p f) st :=
  ⟨rfl, fun _ hm => State.stand_modStand_ne s _ hm, by rw [State.stand_modStand]; rfl, fun b => by rw [State.stand_modStand]; rfl⟩

section
variable {s : State} {st p c : Nat} {o : CoreOp}

theorem State.readsAt_throughQueue (s : State) (st p : Nat) (o : CoreOp) : s.readsAt (s.throughQueue st p o) st :=
  (State.readsAt_modPos s st p _).trans (State.readsAt_modPos _ st p _)
/-- Going through a queue changes nothing of the stand but the units. -/
theorem State.stand_throughQueue (s : State) (st p : Nat) (o : CoreOp) :
    ∃ us, (s.throughQueue st p o).stand st = { s.stand st with units := us } := by
  simp only [State.throughQueue, State.queued, State.stand_modStand]
  exact ⟨_, rfl⟩
theorem State.pos_queued (hu : (s.stand st).pos p = {}) : ((s.queued st p o).stand st).pos p = { queue := [o] } := by
  simp [State.queued, hu]
theorem State.pos_throughQueue (hu : (s.stand st).pos p = {}) : ((s.throughQueue st p o).stand st).pos p = {} := by
  simp [State.throughQueue, State.pos_queued hu]
theorem State.pos_throughQueue_ne {q : Nat} (h : q ≠ p) : ((s.throughQueue st p o).stand st).pos q = (s.stand st).pos q := by
  simp [State.throughQueue, State.queued, Stand.pos_modPos_ne _ _ h]

/-- An operation handed to an idle position begins at once when nothing holds it back, and else waits in the queue. -/
theorem State.handOver_idle (hf : s.fill st p = some c) (hu : (s.stand st).pos p = {}) (hr : (s.stand st).repeatHolds p = false) :
    s.handOver st p o =
      if (s.queued st p o).coreReady st p [] o then (s.queued st p o).beginCore st p c [] o else s.queued st p o := by
  have hf' : (s.queued st p o).fill st p = some c := (State.fill_modPos ..).trans hf
  have hr' : ((s.queued st p o).stand st).repeatHolds p = false := by simpa [State.queued] using hr
  have hpump : (s.queued st p o).pumpPos st p =
      if (s.queued st p o).coreReady st p [] o then (s.queued st p o).beginCore st p c [] o else s.queued st p o := by
    cases hready : (s.queued st p o).coreReady st p [] o <;>
      simp [State.pumpPos, hf', State.pos_queued hu, State.pumpCore, Stand.mayBegin, hr', State.firstReady, hready]
  rw [← hpump, State.handOver, if_neg (by simp [hf])]
  rfl

end

/-! ## What an issue leaves behind -/

/-- Of the stands only st changes, to y; otherwise only counters and records differ. -/
structure State.turnsStand (s t : State) (st : Nat) (y : Stand) : Prop where
  frame : t = { s with stands := t.stands, counters := t.counters, rel := t.rel }
  others : ∀ m, m ≠ st → t.stand m = s.stand m
  own : t.stand st = y

theorem State.turnsStand_log (s : State) (st : Nat) (r : ErrRec) : s.turnsStand (s.log r) st (s.stand st) :=
  ⟨by rw [State.log_frame], fun m _ => State.stand_log s r m, State.stand_log s r st⟩
theorem State.turnsStand_modStand (s : State) (st : Nat) (f : Stand → Stand) : s.turnsStand (s.modStand st f) st (f (s.stand st)) :=
  ⟨rfl, fun _ hm => State.stand_modStand_ne s f hm, State.stand_modStand s st f⟩
theorem State.turnsStand.trans {s t u : State} {st : Nat} {y z : Stand} (h : s.turnsStand t st y) (k : t.turnsStand u st z) :
    s.turnsStand u st z :=
  ⟨by rw [k.frame, h.frame], fun m hm => (k.others m hm).trans (h.others m hm), k.own⟩

/-- An issue with an effect on its own stand that leaves program counter, registers, words and credits. -/
theorem State.issuedAt_of_turnsStand {s t : State} {st : Nat} {y : Stand} (h : (s.issued st).turnsStand t st y)
    (hpc : y.pc = (s.stand st).pc + 1) (hregs : y.regs = (s.stand st).regs) (hspad : y.spad = (s.stand st).spad)
    (hcredit : y.credit = (s.stand st).credit) : s.issuedAt t st ∧ t.cores = s.cores := by
  obtain ⟨hframe, hothers, rfl⟩ := h
  have hcores : t.cores = s.cores := by rw [hframe]; rfl
  refine ⟨⟨?_, hpc, hregs, fun a => by rw [Stand.word, hspad]; rfl, hcredit,
    fun m hm => by rw [hothers m hm, State.stand_issued_ne s hm], fun m d _ _ => by rw [State.core, hcores]; rfl⟩, hcores⟩
  rw [hframe]
  rfl

/-- An issue whose effect is a read at its stand. -/
theorem State.issuedAt_of_readsAt {s t : State} {st : Nat} (h : (s.issued st).readsAt t st) : s.issuedAt t st ∧ t.cores = s.cores := by
  obtain ⟨hframe, hothers, hown, -⟩ := h
  rw [State.stand_issued] at hown
  exact State.issuedAt_of_turnsStand ⟨hframe, hothers, hown⟩ rfl rfl rfl rfl

/-! ## The elements of a vector (R66) -/

theorem Stand.getD_run (x : Stand) {a n j : Nat} (h : j < n) : (x.run a n).getD j 0 = x.word (a + j) := by
  simp [Stand.run, List.getD_eq_getElem?_getD, h]
/-- Element i lies in the words of a vector of more than i elements. -/
theorem div_perWord_lt_elemWords {f i n : Nat} (hf : f ≠ 7) (hi : i < n) : i / perWord f < elemWords f n := by
  have hpos : 0 < perWord f := by unfold perWord; split_ifs <;> decide
  rw [elemWords, if_neg hf, ceilDiv]
  calc i / perWord f < i / perWord f + 1 := Nat.lt_succ_self _
    _ = (i + perWord f) / perWord f := (Nat.add_div_right i hpos).symm
    _ ≤ (n + perWord f - 1) / perWord f := Nat.div_le_div_right (by omega)
/-- An element depends on no word beyond its own. -/
theorem elemInt_run (x : Stand) (f : Nat) (sg : Bool) {a i n m : Nat} (hn : i / perWord f < n) (hm : i / perWord f < m) :
    elemInt f sg (x.run a n) i = elemInt f sg (x.run a m) i := by
  have hraw : rawElem f (x.run a n) i = rawElem f (x.run a m) i := by
    rw [rawElem, rawElem, Stand.getD_run x hn, Stand.getD_run x hm]
  rw [elemInt, elemInt, hraw]

/-! ## The slot that a load fills (R69, R156) -/

/-- The slot filled from the vector at a: COUNT elements extended by SIGNED, zeros beyond, and the width of the header. -/
def Stand.loaded (x : Stand) (a : Nat) : InSlot :=
  let h := x.vec a
  let ws := x.run (a + 1) (elemWords h.fmt h.count)
  { elems := Tab.setRun 0 [] 0 ((List.range h.count).map fun i => BitVec.ofInt 16 (elemInt h.fmt h.signed ws i)),
    width := some h.fmt, signed := h.signed, src := some a }

theorem Stand.get_loaded (x : Stand) {a : Nat} (hf : (x.vec a).fmt ≤ 5) (hc : (x.vec a).count ≤ 1024) (k : Nat) :
    Tab.get 0 (x.loaded a).elems k = if k < (x.vec a).count
      then BitVec.ofInt 16 (elemInt (x.vec a).fmt (x.vec a).signed (x.run (a + 1) 1024) k) else 0 := by
  unfold Stand.loaded
  split
  case isTrue hk =>
    have hget := Tab.get_setRun_in (0 : BitVec 16) ((List.range (x.vec a).count).map fun i => BitVec.ofInt 16
      (elemInt (x.vec a).fmt (x.vec a).signed (x.run (a + 1) (elemWords (x.vec a).fmt (x.vec a).count)) i)) [] 0 k (by simpa using hk)
    rw [Nat.zero_add] at hget
    have hword := Nat.div_le_self k (perWord (x.vec a).fmt)
    rw [hget, ← elemInt_run x _ _ (div_perWord_lt_elemWords (by omega) hk) (by omega)]
    simp [List.getD_eq_getElem?_getD, hk]
  case isFalse hk => exact Tab.get_setRun_out _ _ _ _ _ (Or.inr (by simpa using hk))

theorem Core.slot_putSlot (y : Core) (k : Nat) (v : InSlot) : (y.putSlot k v).slot k = v := by
  unfold Core.slot Core.putSlot
  split <;> rfl
theorem Core.slot_putSlot_other (y : Core) (k : Fin 2) (v : InSlot) : (y.putSlot k v).slot (1 - k.val) = y.slot (1 - k.val) := by
  match k with
  | 0 => rfl
  | 1 => rfl
theorem Core.acc_putSlot (y : Core) (k : Nat) (v : InSlot) : (y.putSlot k v).acc = y.acc := by
  unfold Core.putSlot
  split <;> rfl
theorem Core.bankA_putSlot (y : Core) (k : Nat) (v : InSlot) : (y.putSlot k v).bankA = y.bankA := by
  unfold Core.putSlot
  split <;> rfl
theorem Core.bankB_putSlot (y : Core) (k : Nat) (v : InSlot) : (y.putSlot k v).bankB = y.bankB := by
  unfold Core.putSlot
  split <;> rfl

/-- Slot k of a core takes v; no other array changes, and no queue or engine of the stand. -/
structure State.loadsSlot (s t : State) (st c k : Nat) (v : InSlot) : Prop where
  cores : t.cores = (s.modCore st c fun x => x.putSlot k v).cores
  units : (t.stand st).units = (s.stand st).units

/-- A position not paired with core 16 fills the slot of its own core alone. -/
theorem State.loadsSlot_fillSlot {s t : State} {st p : Nat} (c k : Nat) (v : InSlot) (hc : t.cores = s.cores)
    (hs : t.stand st = { s.stand st with banks := (t.stand st).banks }) (hp : (s.stand st).paired p = false) :
    s.loadsSlot (t.fillSlot st p c k v) st c k v := by
  have hp' : (t.stand st).paired p = false := by rw [hs]; exact hp
  have hfill : t.fillSlot st p c k v = t.modCore st c fun x => x.putSlot k v := by simp [State.fillSlot, hp']
  refine ⟨?_, ?_⟩
  · simp only [hfill, State.modCore, State.core, hc]
  · rw [hfill, State.stand_modCore, hs]

section
variable {s : State} {st p : Nat} (c k a : Nat) (hc : (s.stand st).clean) (hp : (s.stand st).paired p = false)
include hc hp

/-- A format or count outside the rules fills the slot with zeros and no width. -/
theorem State.beginVld_bad (h : 5 < ((s.stand st).vec a).fmt ∨ ((s.stand st).vec a).count = 0 ∨ 1024 < ((s.stand st).vec a).count) :
    s.loadsSlot (s.beginVld st p c k a) st c k { src := some a } := by
  obtain ⟨hword, hframe, -, hown, -, -⟩ := s.readWords_clean st p 0x10 a 1 hc
  have hhdr : decVec ((s.readWords st p 0x10 a 1).1.headD 0) = (s.stand st).vec a := by rw [hword]; rfl
  obtain ⟨hcores, hunits⟩ := State.loadsSlot_fillSlot (s := s) (p := p) c k { src := some a } (by rw [hframe]) hown hp
  simp only [State.beginVld, hhdr, if_pos h]
  exact ⟨(State.cores_log ..).trans hcores, (congrArg Stand.units (State.stand_log ..)).trans hunits⟩
/-- A vector within the rules fills the slot with its elements. -/
theorem State.beginVld_good
    (h : ¬ (5 < ((s.stand st).vec a).fmt ∨ ((s.stand st).vec a).count = 0 ∨ 1024 < ((s.stand st).vec a).count)) :
    s.loadsSlot (s.beginVld st p c k a) st c k ((s.stand st).loaded a) := by
  obtain ⟨hword, hframe, -, hown, hclean, -⟩ := s.readWords_clean st p 0x10 a 1 hc
  have hhdr : decVec ((s.readWords st p 0x10 a 1).1.headD 0) = (s.stand st).vec a := by rw [hword]; rfl
  simp only [State.beginVld, hhdr, if_neg h]
  generalize (s.readWords st p 0x10 a 1).2 = u at hframe hown hclean
  obtain ⟨hwords, hframe', -, hown', -, -⟩ :=
    u.readWords_clean st p 0x10 (a + 1) (elemWords ((s.stand st).vec a).fmt ((s.stand st).vec a).count) hclean
  have hrun : ∀ b n, (u.stand st).run b n = (s.stand st).run b n := fun b n => by rw [hown]; rfl
  rw [hwords, hrun]
  exact State.loadsSlot_fillSlot c k _ (by rw [hframe', hframe]) (by rw [hown', hown]) hp

end

/-! ## VLD for one idle position (R68, R156) -/

/-- A VLD for one idle position issues, and the load is handed to that position. -/
theorem exec_vld_single {s : State} {st : StandId} {p : Pos} {slot : Fin 2} {ga : Reg} {stride : BitVec 16} (hi : s.issues st)
    (hu : (s.stand st).pos p = {}) :
    exec (.vld st (BitVec.ofNat 16 (2 ^ p.val)) slot ga stride) s =
      .next ((s.issued st).handOver st p (.vld slot (wa (s.g st ga + p * stride.toNat)))) := by
  obtain ⟨hissue, hfree⟩ := hi
  change execVld _ _ _ _ _ _ = _
  rw [execVld, State.coresRoom_single hu, State.issue_ready s st _ _ hissue hfree, effVld, posOf_single]
  rfl

/-- A load that fills a slot and leaves its position idle: no other array and no other position changes. -/
structure State.loadsIdle (s t : State) (st p c k : Nat) (v : InSlot) : Prop where
  cores : t.cores = (s.modCore st c fun x => x.putSlot k v).cores
  idle : (t.stand st).pos p = {}
  others : ∀ q, q ≠ p → (t.stand st).pos q = (s.stand st).pos q

theorem State.loadsIdle_of_loadsSlot {s t : State} {st p c k : Nat} {o : CoreOp} {v : InSlot}
    (h : (s.throughQueue st p o).loadsSlot t st c k v) (hu : (s.stand st).pos p = {}) : s.loadsIdle t st p c k v := by
  have hpos : ∀ q, (t.stand st).pos q = ((s.throughQueue st p o).stand st).pos q := fun q => by rw [Stand.pos, h.units]; rfl
  exact ⟨h.cores, by rw [hpos, State.pos_throughQueue hu], fun q hq => by rw [hpos, State.pos_throughQueue_ne hq]⟩

section
variable {s : State} {st p c k a : Nat} (hf : s.fill st p = some c) (hu : (s.stand st).pos p = {})
  (hr : (s.stand st).repeatHolds p = false)
include hf hu hr

/-- A load of a vector that waits stays in the queue (R68). -/
theorem State.handOver_vld_pend (h : ((s.stand st).vec a).pend = true) : s.handOver st p (.vld k a) = s.queued st p (.vld k a) := by
  have hwait : ((s.queued st p (.vld k a)).stand st).pendAt a = true := by
    rw [State.queued, State.stand_modStand]; exact h
  rw [State.handOver_idle hf hu hr, if_neg (by simp [State.coreReady, hwait])]
/-- Any other load begins at once. -/
theorem State.handOver_vld (h : ((s.stand st).vec a).pend = false) :
    s.handOver st p (.vld k a) = (s.throughQueue st p (.vld k a)).beginVld st p c k a := by
  have hread : ((s.queued st p (.vld k a)).stand st).pendAt a = false := by
    rw [State.queued, State.stand_modStand]; exact h
  rw [State.handOver_idle hf hu hr,
    if_pos (by simp [State.coreReady, State.pos_queued hu, hread, PosUnit.inEngines, handed])]
  rfl

variable (hc : (s.stand st).clean) (hp : (s.stand st).paired p = false) (hpend : ((s.stand st).vec a).pend = false)
include hc hp hpend

theorem State.handOver_vld_bad
    (h : 5 < ((s.stand st).vec a).fmt ∨ ((s.stand st).vec a).count = 0 ∨ 1024 < ((s.stand st).vec a).count) :
    s.loadsIdle (s.handOver st p (.vld k a)) st p c k { src := some a } := by
  obtain ⟨us, hstand⟩ := s.stand_throughQueue st p (.vld k a)
  rw [State.handOver_vld hf hu hr hpend]
  exact State.loadsIdle_of_loadsSlot
    (State.beginVld_bad c k a (by rw [hstand]; exact hc) (by rw [hstand]; exact hp) (by rw [hstand]; exact h)) hu
theorem State.handOver_vld_good
    (h : ¬ (5 < ((s.stand st).vec a).fmt ∨ ((s.stand st).vec a).count = 0 ∨ 1024 < ((s.stand st).vec a).count)) :
    s.loadsIdle (s.handOver st p (.vld k a)) st p c k ((s.stand st).loaded a) := by
  obtain ⟨us, hstand⟩ := s.stand_throughQueue st p (.vld k a)
  have hload := State.loadsIdle_of_loadsSlot
    (State.beginVld_good c k a (by rw [hstand]; exact hc) (by rw [hstand]; exact hp) (by rw [hstand]; exact h)) hu
  rw [hstand] at hload
  rw [State.handOver_vld hf hu hr hpend]
  exact hload

end

/-- Settles O16, by what the header of the vector makes of the load. -/
theorem loadAtIdle : Obligations.LoadAtIdle := by
  unfold Obligations.LoadAtIdle
  intro s st p slot ga stride c x a h i hi hf hu hr hp hon hright
  have hstand := s.stand_issued st
  have hgives : ∀ {P : State → Prop}, P ((s.issued st).handOver st p (.vld slot a)) → s.gives i P :=
    fun hP => ⟨_, exec_vld_single hi hu, hP⟩
  have hf' : (s.issued st).fill st p = some c := by rw [State.fill_issued, hf]
  have hu' : ((s.issued st).stand st).pos p = {} := (s.pos_issued st p).trans hu
  have hr' : ((s.issued st).stand st).repeatHolds p = false := by rw [hstand]; exact hr
  have hc' : ((s.issued st).stand st).clean := by rw [hstand]; exact ⟨hon, hright⟩
  have hp' : ((s.issued st).stand st).paired p = false := by rw [hstand]; exact hp
  have hvec : ((s.issued st).stand st).vec a = h := by rw [hstand]; rfl
  have hcore : ∀ {t : State} {v : InSlot}, t.cores = ((s.issued st).modCore st c fun y => y.putSlot slot v).cores →
      t.core st c = (s.core st c).putSlot slot v := fun {t v} ht => by
    rw [State.core, ht]
    exact State.core_modCore (s.issued st) st c _
  refine ⟨fun hpend => hgives ?wait, fun hpend hbad => hgives ?bad, fun hpend hfmt hpos hcount => hgives ?good⟩
  case wait =>
    rw [State.handOver_vld_pend hf' hu' hr' (hvec.symm ▸ hpend)]
    exact ⟨State.pos_queued hu', rfl⟩
  case bad =>
    obtain ⟨hcores, hidle, -⟩ := State.handOver_vld_bad (k := slot) hf' hu' hr' hc' hp' (hvec.symm ▸ hpend) (hvec.symm ▸ hbad)
    refine ⟨hidle, ?_⟩
    rw [hcore hcores, Core.slot_putSlot]
  case good =>
    obtain ⟨hcores, hidle, hother⟩ :=
      State.handOver_vld_good (k := slot) hf' hu' hr' hc' hp' (hvec.symm ▸ hpend) (by rw [hvec]; omega)
    have hload : ((s.issued st).stand st).loaded a = x.loaded a := by rw [hstand]; rfl
    rw [hload] at hcores
    refine ⟨hidle, fun q hq => (hother q hq).trans (s.pos_issued st q), ?_⟩
    rw [hcore hcores, Core.slot_putSlot, Core.slot_putSlot_other, hcores]
    exact ⟨fun k => x.get_loaded hfmt hcount k, rfl, rfl, Core.acc_putSlot .., Core.bankA_putSlot .., Core.bankB_putSlot ..,
      fun n => State.cores_modCore_ne _ _⟩

end Sys2Proof.Machine
end

section
/-! A requantize step handed to an idle position (03 R72, R483; 06 R151, R158). -/

namespace Sys2Proof.Machine

/-! ## What the requantizer takes (R483) -/

/-- A read of a clean scratchpad leaves every position of its stand. -/
theorem State.pos_readWords_clean (s : State) (st req op a n q : Nat) (h : (s.stand st).clean) :
    ((s.readWords st req op a n).2.stand st).pos q = (s.stand st).pos q := by
  obtain ⟨-, -, -, hown, -, -⟩ := s.readWords_clean st req op a n h
  rw [hown]
  rfl

/-- The step is taken by reads of its stand alone. -/
theorem State.readsAt_beginRqnt (s : State) (st p : Nat) (r : RqOp) (n : Nat) (rep : Bool) : s.readsAt (s.beginRqnt st p r n rep) st := by
  unfold State.beginRqnt
  have htake := State.readsAt_modPos s st p fun u => { u with rq := some { op := r, earlier := n, rep } }
  split
  case isTrue => exact htake
  case isFalse => exact (htake.trans (State.readsAt_readWords ..)).trans (State.readsAt_modPos ..)

/-- The entries of a step's outputs, two words each; RAW48 needs none (log 111). -/
def Stand.entriesFor (x : Stand) (r : RqOp) : List Word := if r.mode = 2 then [] else x.run (r.gt + 2 * r.firsto) (2 * r.nout)

/-- Where the read meets neither an OFF bank nor a wrong bit, the step is taken with its entries, and no other position changes. -/
theorem State.pos_beginRqnt {s : State} {st p : Nat} {r : RqOp} (n : Nat) (rep : Bool) (h : r.mode = 2 ∨ (s.stand st).clean) :
    ((s.beginRqnt st p r n rep).stand st).pos p =
        { (s.stand st).pos p with rq := some { op := r, earlier := n, rep, entries := (s.stand st).entriesFor r } } ∧
      ∀ q, q ≠ p → ((s.beginRqnt st p r n rep).stand st).pos q = (s.stand st).pos q := by
  by_cases hm : r.mode = 2
  case pos =>
    rw [State.beginRqnt, if_pos hm, State.stand_modStand, Stand.entriesFor, if_pos hm]
    exact ⟨Stand.pos_modPos .., fun q hq => Stand.pos_modPos_ne _ _ hq⟩
  case neg =>
    rw [State.beginRqnt, if_neg hm, State.stand_modStand, Stand.entriesFor, if_neg hm]
    generalize hs : (s.modStand st fun x => x.modPos p fun u => { u with rq := some { op := r, earlier := n, rep } }) = u
    have hstand : u.stand st = (s.stand st).modPos p fun u => { u with rq := some { op := r, earlier := n, rep } } := by
      rw [← hs, State.stand_modStand]
    have hclean : (u.stand st).clean := by rw [hstand]; exact h.resolve_left hm
    obtain ⟨hwords, -, -, -, -, -⟩ := u.readWords_clean st p 0x12 (r.gt + 2 * r.firsto) (2 * r.nout) hclean
    have hpos := fun q => u.pos_readWords_clean st p 0x12 (r.gt + 2 * r.firsto) (2 * r.nout) q hclean
    refine ⟨?_, fun q hq => ?_⟩
    · rw [Stand.pos_modPos, hpos, hwords, hstand, Stand.pos_modPos]
      rfl
    · rw [Stand.pos_modPos_ne _ _ hq, hpos, hstand, Stand.pos_modPos_ne _ _ hq]

/-! ## RQNT for an idle position -/

/-- Outside a tile an RQNT for an idle position issues, and the step is handed to that position. -/
theorem exec_rqnt_idle {s : State} {st : StandId} {p : Pos} {firsto : Fin 128} {nout : Fin 256} {mode : Fin 4} {fmt : Fin 8}
    {sign : Bool} {gt gd : Reg} (hi : s.issues st) (hu : (s.stand st).pos p = {}) (ht : (s.stand st).tile = none)
    (hw : rqntFields firsto nout mode fmt sign = true) :
    exec (.rqnt st p firsto nout mode fmt sign gt gd) s = .next ((s.issued st).handOver st p
      (.rqnt { firsto, nout, mode, fmt, sign, gt := s.g st gt, gd := s.g st gd, tile := none })) := by
  obtain ⟨hissue, hfree⟩ := hi
  have hroom : ((s.stand st).pos p).room = true := by rw [hu]; rfl
  have htile : ((s.issued st).stand st).tile = none := by rw [State.stand_issued]; exact ht
  change execRqnt _ _ _ _ _ _ _ _ _ _ = _
  rw [execRqnt, if_pos hw, hroom, State.issue_ready s st _ _ hissue hfree, effRqnt, htile]
  rfl

section
variable {s : State} {st p c : Nat} (r : RqOp) (hf : s.fill st p = some c) (hu : (s.stand st).pos p = {})
  (hr : (s.stand st).repeatHolds p = false)
include hf hu hr

/-- A requantize step handed to an idle position is taken at once, with no pass to wait for (R171). -/
theorem State.handOver_rqnt : s.handOver st p (.rqnt r) = (s.throughQueue st p (.rqnt r)).beginRqnt st p r 0 false := by
  have hpos := State.pos_queued (o := .rqnt r) hu
  rw [State.handOver_idle hf hu hr, if_pos (by simp [State.coreReady, hpos, PosUnit.inEngines, handed])]
  simp only [State.beginCore, hpos]
  rfl
theorem State.readsAt_handOver_rqnt : s.readsAt (s.handOver st p (.rqnt r)) st := by
  rw [State.handOver_rqnt r hf hu hr]
  exact (State.readsAt_throughQueue s st p _).trans (State.readsAt_beginRqnt _ st p r 0 false)
theorem State.pos_handOver_rqnt (h : r.mode = 2 ∨ (s.stand st).clean) :
    ((s.handOver st p (.rqnt r)).stand st).pos p = { rq := some { op := r, entries := (s.stand st).entriesFor r } } ∧
      ∀ q, q ≠ p → ((s.handOver st p (.rqnt r)).stand st).pos q = (s.stand st).pos q := by
  obtain ⟨us, hstand⟩ := s.stand_throughQueue st p (.rqnt r)
  obtain ⟨htaken, hrest⟩ := State.pos_beginRqnt (s := s.throughQueue st p (.rqnt r)) (p := p) 0 false
    (h.imp_right fun hc => by rw [hstand]; exact hc)
  rw [State.handOver_rqnt r hf hu hr, htaken, State.pos_throughQueue hu, hstand]
  exact ⟨rfl, fun q hq => (hrest q hq).trans (State.pos_throughQueue_ne hq)⟩

end

/-- Settles O20, by what the requantizer takes, with all its entries at once (log 111), and by the frame of its reads. -/
theorem requantAtIdle : Obligations.RequantAtIdle := by
  unfold Obligations.RequantAtIdle
  intro s st p firsto nout mode fmt sign gt gd c x hi hf hu hr ht hw
  have hstand := s.stand_issued st
  have hf' := (State.fill_issued s st p).trans hf
  have hu' : ((s.issued st).stand st).pos p = {} := (s.pos_issued st p).trans hu
  have hr' : ((s.issued st).stand st).repeatHolds p = false := by rw [hstand]; exact hr
  refine ⟨_, exec_rqnt_idle hi hu ht hw, ?_⟩
  obtain ⟨hissued, hcores⟩ := State.issuedAt_of_readsAt (State.readsAt_handOver_rqnt _ hf' hu' hr')
  refine ⟨hcores, fun hread => ?_, hissued⟩
  obtain ⟨htaken, hrest⟩ := State.pos_handOver_rqnt
    { firsto, nout, mode, fmt, sign, gt := s.g st gt, gd := s.g st gd, tile := none } hf' hu' hr'
    (hread.imp_right fun hc => by rw [hstand]; exact hc)
  rw [hstand] at htaken
  exact ⟨htaken, fun q hq => (hrest q hq).trans (s.pos_issued st q)⟩

end Sys2Proof.Machine
end

section
/-! A requantizer output (03 R73, R74; 06 R158). -/

namespace Sys2Proof.Machine

/-! ## What a write may change (R99, R118) -/

/-- What any write to a scratchpad may do to the state: stands, the counter of lost records and records, and of the stands only its own,
of which words, codes and banks. -/
structure State.writesAt (s t : State) (st : Nat) : Prop where
  frame : t = { s with stands := t.stands, counters := t.counters, rel := t.rel }
  others : ∀ m, m ≠ st → t.stand m = s.stand m
  own : (s.stand st).sameBut (t.stand st)
  counter : ∀ k, k ≠ 0x540002 → t.counter k = s.counter k

theorem State.writesAt_refl (s : State) (st : Nat) : s.writesAt s st := ⟨rfl, fun _ _ => rfl, rfl, fun _ _ => rfl⟩
theorem State.writesAt.trans {s t u : State} {st : Nat} (h : s.writesAt t st) (k : t.writesAt u st) : s.writesAt u st :=
  ⟨by rw [k.frame, h.frame], fun m hm => by rw [k.others m hm, h.others m hm],
    by have hk := k.own; have hh := h.own; unfold Stand.sameBut at *; rw [hk, hh],
    fun c hc => by rw [k.counter c hc, h.counter c hc]⟩
theorem State.writesAt_log (s : State) (st : Nat) (r : ErrRec) : s.writesAt (s.log r) st :=
  ⟨by rw [State.log_frame], fun m _ => State.stand_log s r m, by rw [State.stand_log]; rfl, fun _ hk => State.counter_log_ne s r hk⟩
theorem State.writesAt_modStand (s : State) (st : Nat) {f : Stand → Stand} (h : (s.stand st).sameBut (f (s.stand st))) :
    s.writesAt (s.modStand st f) st :=
  ⟨rfl, fun _ hm => State.stand_modStand_ne s f hm, by rw [State.stand_modStand]; exact h, fun _ _ => rfl⟩
theorem State.writesAt_writeAcc (st req op fuel : Nat) : ∀ (s : State) (a : Nat) (ws : List Word),
    s.writesAt (s.writeAcc st req op fuel a ws) st := by
  induction fuel with
  | zero => exact fun s _ _ => s.writesAt_refl st
  | succ fuel ih =>
    intro s a ws
    simp only [State.writeAcc]
    split
    case isTrue => exact s.writesAt_refl st
    case isFalse =>
      refine State.writesAt.trans (State.writesAt.trans ?access (State.writesAt_modStand _ st ?grant)) (ih _ _ _)
      case access =>
        split
        case isTrue => exact State.writesAt_log ..
        case isFalse => exact State.writesAt_modStand s st rfl
      case grant => rfl
theorem State.writesAt_writeWords (s : State) (st req op a : Nat) (ws : List Word) : s.writesAt (s.writeWords st req op a ws) st :=
  State.writesAt_writeAcc st req op ws.length s a ws
theorem State.writesAt_writeElems (s : State) (st req op a f i : Nat) (vs : List Int) :
    s.writesAt (s.writeElems st req op a f i vs) st := by
  unfold State.writeElems
  split <;> exact State.writesAt_writeWords ..

/-! ## The next group of a requantize step -/

/-- Outputs of the next group. -/
def RqJob.group (j : RqJob) : Nat := min 4 (j.op.nout - j.next)
/-- The step after its next group: none after the last output. -/
def RqJob.advance (j : RqJob) : Option RqJob :=
  if j.next + j.group < j.op.nout then some { j with next := j.next + j.group } else none
/-- The accumulators of the next group. -/
def State.rqAccs (s : State) (st p c : Nat) (j : RqJob) : List Int :=
  (List.range j.group).map fun i => (s.accOf st p c (j.op.firsto + j.next + i)).toInt
/-- The values of the next group before the clip. -/
def State.rqValues (s : State) (st p c : Nat) (j : RqJob) : List Int :=
  (s.rqAccs st p c j).zipIdx.map fun a =>
    if j.op.mode = 2 then a.1
    else
      let d := decEntry (j.entries.getD (2 * (j.next + a.2)) 0) (j.entries.getD (2 * (j.next + a.2) + 1) 0)
      requantV a.1 d.1 d.2.1 d.2.2
/-- Clips among them. -/
def State.rqClips (s : State) (st p c : Nat) (j : RqJob) : Nat :=
  let f := rqFormat (s.stand st) j.op
  if j.op.mode = 2 then 0 else ((s.rqValues st p c j).filter fun v => clips (fmtLo f.1 f.2) (fmtHi f.1 f.2) v).length
/-- The header of the vector that a step writes: PEND and the number of the tile inside one (R77). -/
def State.rqHdr (s : State) (st : Nat) (j : RqJob) : Hdr :=
  let f := rqFormat (s.stand st) j.op
  let tile := j.op.tile.bind fun u => (s.stand st).tileOf u
  { pend := tile.isSome, fmt := f.1, signed := f.2, count := j.op.nout, tile := match tile with | some t => t.num | none => 0 }
/-- The header goes before the first group. -/
def State.rqHeader (s : State) (st p : Nat) (j : RqJob) : State :=
  if j.next = 0 then s.writeWords st p 0x12 j.op.gd [encVec (s.rqHdr st j)] else s
/-- The state after the group's words are written. -/
def State.rqWritten (s : State) (st p c : Nat) (j : RqJob) : State :=
  let f := rqFormat (s.stand st) j.op
  let vs := s.rqValues st p c j
  (s.rqHeader st p j).writeElems st p 0x12 j.op.gd f.1 j.next
    (if j.op.mode = 2 then vs else vs.map (clip (fmtLo f.1 f.2) (fmtHi f.1 f.2)))
/-- Outputs and clips are counted but in RAW48 mode. -/
def State.rqCounted (s : State) (j : RqJob) (clipped : Nat) : State :=
  if j.op.mode = 2 then s else (s.count 0x522201 j.group).count 0x522202 clipped
/-- The stand after the group: its step moved on, its tile noted outputs, clips and vector. -/
def Stand.rqMade (x : Stand) (p : Nat) (j : RqJob) (clipped : Nat) : Stand :=
  let x := x.modPos p fun u => { u with rq := j.advance }
  match j.op.tile with
  | none => x
  | some uid => x.modTile uid fun t =>
      { t with outputs := if j.op.mode = 2 then t.outputs else t.outputs + j.group, clips := t.clips + clipped,
               vectors := if j.op.gd ∈ t.vectors then t.vectors else t.vectors ++ [j.op.gd] }
/-- The state in which the group is made. -/
def State.rqGroup (s : State) (st p c : Nat) (j : RqJob) : State :=
  ((s.rqWritten st p c j).rqCounted j (s.rqClips st p c j)).modStand st fun x => x.rqMade p j (s.rqClips st p c j)

section
variable (s : State) (st p c : Nat) (j : RqJob)

theorem State.writesAt_rqWritten : s.writesAt (s.rqWritten st p c j) st := by
  have hheader : s.writesAt (s.rqHeader st p j) st := by
    unfold State.rqHeader
    split
    case isTrue => exact State.writesAt_writeWords ..
    case isFalse => exact s.writesAt_refl st
  exact hheader.trans (State.writesAt_writeElems ..)

/-- Counting the outputs changes nothing but two counters. -/
theorem State.rqCounted_frame (n : Nat) : s.rqCounted j n = { s with counters := (s.rqCounted j n).counters } := by
  unfold State.rqCounted
  split <;> rfl
theorem State.counter_rqCounted (n : Nat) : (s.rqCounted j n).counter 0x522201 =
    if j.op.mode = 2 then s.counter 0x522201 else (s.counter 0x522201 + j.group) % 2 ^ 64 := by
  unfold State.rqCounted
  split
  · rfl
  · rw [State.counter_count_ne _ _ (by decide), State.counter_count]

/-- A group reaches the unit of its position and the tiles of its stand. -/
theorem Stand.rqMade_frame (x : Stand) (n : Nat) :
    x.rqMade p j n = { x with units := (x.rqMade p j n).units, tile := (x.rqMade p j n).tile, tiles := (x.rqMade p j n).tiles } := by
  unfold Stand.rqMade
  cases j.op.tile <;> rfl
theorem Stand.pos_rqMade (x : Stand) (n : Nat) : (x.rqMade p j n).pos p = { x.pos p with rq := j.advance } := by
  have hpos := x.pos_modPos p fun u => { u with rq := j.advance }
  unfold Stand.rqMade
  cases j.op.tile <;> exact hpos

theorem State.stand_rqGroup :
    (s.rqGroup st p c j).stand st = ((s.rqWritten st p c j).stand st).rqMade p j (s.rqClips st p c j) := by
  rw [State.rqGroup, State.stand_modStand, State.rqCounted_frame]
  rfl
/-- The stand of a group, but for what the writes and the group itself reach. -/
theorem State.stand_rqGroup_frame : (s.rqGroup st p c j).stand st = { s.stand st with
    spad := ((s.rqWritten st p c j).stand st).spad, wrongBits := ((s.rqWritten st p c j).stand st).wrongBits,
    banks := ((s.rqWritten st p c j).stand st).banks, units := ((s.rqGroup st p c j).stand st).units,
    tile := ((s.rqGroup st p c j).stand st).tile, tiles := ((s.rqGroup st p c j).stand st).tiles } := by
  have hown := (s.writesAt_rqWritten st p c j).own
  unfold Stand.sameBut at hown
  rw [State.stand_rqGroup, Stand.rqMade_frame, hown]
theorem State.pos_rqGroup : ((s.rqGroup st p c j).stand st).pos p = { (s.stand st).pos p with rq := j.advance } := by
  have hown := (s.writesAt_rqWritten st p c j).own
  unfold Stand.sameBut at hown
  rw [State.stand_rqGroup, Stand.pos_rqMade, hown]
  rfl
theorem State.rqGroup_frame : s.rqGroup st p c j = { s with
    stands := (s.rqGroup st p c j).stands, counters := (s.rqGroup st p c j).counters, rel := (s.rqGroup st p c j).rel } := by
  have hframe := (s.writesAt_rqWritten st p c j).frame
  unfold State.rqGroup
  rw [State.rqCounted_frame, hframe]
  rfl
theorem State.standWork_rqGroup : s.standWork (s.rqGroup st p c j) st := by
  refine ⟨s.rqGroup_frame st p c j, by rw [State.stand_rqGroup_frame], fun m hm => ?_⟩
  rw [State.rqGroup, State.stand_modStand_ne _ _ hm, State.rqCounted_frame]
  exact (s.writesAt_rqWritten st p c j).others m hm
theorem State.counter_rqGroup : (s.rqGroup st p c j).counter 0x522201 =
    if j.op.mode = 2 then s.counter 0x522201 else (s.counter 0x522201 + j.group) % 2 ^ 64 := by
  rw [State.rqGroup, State.counter_modStand, State.counter_rqCounted, (s.writesAt_rqWritten st p c j).counter _ (by decide)]
theorem State.fill_rqGroup : (s.rqGroup st p c j).fill st p = s.fill st p := by
  have hstand := s.stand_rqGroup_frame st p c j
  refine State.fill_congr (by rw [hstand]) (by rw [hstand]) (by rw [hstand]; rfl) fun d => ?_
  rw [State.rqGroup_frame]
  rfl

end

section
variable {s : State} {st p c : Nat} {j : RqJob} (hf : s.fill st p = some c)
include hf

/-- No step under way, or one that waits for a pass: no output (R171). -/
theorem State.rqOutput_waits (h : ((s.stand st).pos p).rq = none ∨ (((s.stand st).pos p).rq = some j ∧ 0 < j.earlier)) :
    s.rqOutput st p = s := by
  have hnone : (((s.stand st).pos p).rq).filter (fun j => j.earlier == 0) = none := by
    rcases h with h | ⟨h, hj⟩
    · rw [h]; rfl
    · rw [h]; simpa using hj.ne'
  rw [State.rqOutput, hf, hnone]
/-- The next group of a step that waits for no pass. -/
theorem State.rqOutput_group (hj : ((s.stand st).pos p).rq = some j) (he : j.earlier = 0) :
    s.rqOutput st p = if j.next + j.group < j.op.nout then s.rqGroup st p c j else (s.rqGroup st p c j).pumpPos st p := by
  have hsome : (((s.stand st).pos p).rq).filter (fun j => j.earlier == 0) = some j := by rw [hj]; simp [he]
  rw [State.rqOutput, hf, hsome]
  rfl

/-- A group that is not the last of its step, or that leaves nothing in the queue, is all that happens. -/
theorem State.rqOutput_eq_rqGroup (hj : ((s.stand st).pos p).rq = some j) (he : j.earlier = 0)
    (h : j.next + 4 < j.op.nout ∨ ((s.stand st).pos p).queue = []) : s.rqOutput st p = s.rqGroup st p c j := by
  rw [State.rqOutput_group hf hj he]
  split
  case isTrue => rfl
  case isFalse hlast =>
    have hq : ((s.stand st).pos p).queue = [] := h.resolve_left fun hmore => hlast (by unfold RqJob.group; omega)
    exact State.pumpPos_of_empty ((State.fill_rqGroup ..).trans hf) (by rw [State.pos_rqGroup]; exact hq)

end

/-! ## The words of a RAW48 group (R67, R71, Table 3.5) -/

theorem gap_add (a : Nat) {k : Nat} (h : k < 65536) : gap a (a + k) = k := by
  unfold gap wa
  omega
theorem length_rawVector (l : List Acc) : (rawVector l).length = 2 * l.length := by
  induction l with
  | nil => rfl
  | cons a l ih => simp only [rawVector, rawWords, List.length_append, List.length_cons, List.length_nil, ih]; omega
/-- The two words of element i of a RAW48 vector. -/
theorem getD_rawVector {l : List Acc} : ∀ {i : Nat} (h : i < l.length),
    [(rawVector l).getD (2 * i) 0, (rawVector l).getD (2 * i + 1) 0] = rawWords l[i] := by
  induction l with
  | nil => exact fun h => absurd h (Nat.not_lt_zero _)
  | cons a l ih =>
    rintro (_ | i) h
    · rfl
    · exact ih (Nat.lt_of_succ_lt_succ h)
/-- The two words of an accumulator, high one first, are the accumulator extended to 64 bits. -/
theorem append_rawWords {a : Acc} {lo hi : Word} (h : [lo, hi] = rawWords a) : hi ++ lo = a.signExtend 64 := by
  obtain ⟨rfl, rfl⟩ : lo = BitVec.ofNat 32 (lowBits 64 a.toInt) ∧ hi = BitVec.ofNat 32 (lowBits 64 a.toInt / 2 ^ 32) := by
    simpa [rawWords] using h
  have hbound : lowBits 64 a.toInt < 2 ^ 64 := by unfold lowBits; omega
  have hext : (a.signExtend 64).toNat = lowBits 64 a.toInt := by simp [BitVec.signExtend, lowBits]
  refine BitVec.eq_of_toNat_eq ?_
  rw [hext, BitVec.toNat_append, ← Nat.shiftLeft_add_eq_or_of_lt (BitVec.isLt _), Nat.shiftLeft_eq, BitVec.toNat_ofNat,
    BitVec.toNat_ofNat]
  omega

/-- The header leaves every bank's power. -/
theorem State.power_rqHeader {s : State} {st : Nat} (p : Nat) (j : RqJob) (hon : ∀ b, ((s.stand st).bank b).power ≠ .off) (b : Nat) :
    (((s.rqHeader st p j).stand st).bank b).power = ((s.stand st).bank b).power := by
  unfold State.rqHeader
  split
  case isTrue =>
    obtain ⟨-, -, -, hpower, -⟩ := s.writeWords_on st p 0x12 j.op.gd [encVec (s.rqHdr st j)] (by simp) hon
    exact hpower b
  case isFalse => rfl

section
variable {s : State} {st p c : Nat} {j : RqJob} (hm : j.op.mode = 2)
include hm

theorem State.rqFormat_raw : rqFormat (s.stand st) j.op = (7, true) := by
  simp [rqFormat, hm]
theorem State.rqValues_raw : (s.rqValues st p c j).map (fun v => BitVec.ofInt 48 v) =
    (List.range j.group).map fun i => s.accOf st p c (j.op.firsto + j.next + i) := by
  simp [State.rqValues, hm, State.rqAccs]
theorem State.rqWritten_raw : s.rqWritten st p c j = (s.rqHeader st p j).writeWords st p 0x12 (j.op.gd + 1 + 2 * j.next)
    (rawVector ((List.range j.group).map fun i => s.accOf st p c (j.op.firsto + j.next + i))) := by
  simp only [State.rqWritten, State.rqFormat_raw hm, State.writeElems, if_pos, hm, State.rqValues_raw hm]

/-- In RAW48 mode a group writes each accumulator whole, low word first, while no bank is OFF. -/
theorem State.word_rqWritten_raw (hon : ∀ b, ((s.stand st).bank b).power ≠ .off) {i : Nat} (hi : i < j.group) :
    let a := j.op.gd + 1 + 2 * (j.next + i)
    ((s.rqWritten st p c j).stand st).word (a + 1) ++ ((s.rqWritten st p c j).stand st).word a =
      (s.accOf st p c (j.op.firsto + j.next + i)).signExtend 64 := by
  intro a
  let accs := (List.range j.group).map fun i => s.accOf st p c (j.op.firsto + j.next + i)
  have hlen : (rawVector accs).length = 2 * j.group := by simp [length_rawVector, accs]
  have hgroup : j.group ≤ 4 := Nat.min_le_left ..
  obtain ⟨-, -, -, -, hword⟩ := (s.rqHeader st p j).writeWords_on st p 0x12 (j.op.gd + 1 + 2 * j.next) (rawVector accs) (by omega)
    fun b => by rw [State.power_rqHeader p j hon]; exact hon b
  have hstored : ∀ k, k < 2 * j.group →
      ((s.rqWritten st p c j).stand st).word (j.op.gd + 1 + 2 * j.next + k) = (rawVector accs).getD k 0 := fun k hk => by
    rw [State.rqWritten_raw hm, hword, gap_add _ (by omega), if_pos (by omega)]
  have hlow := hstored (2 * i) (by omega)
  have hhigh := hstored (2 * i + 1) (by omega)
  have ha : a = j.op.gd + 1 + 2 * j.next + 2 * i := by simp only [a]; omega
  rw [ha, Nat.add_assoc, hlow, hhigh]
  have hraw := getD_rawVector (l := accs) (i := i) (by simpa [accs] using hi)
  rw [append_rawWords hraw]
  simp [accs]

end

/-- Settles O19, by the frame of a group and the words that it writes in RAW48 mode. -/
theorem requantizerOutput : Obligations.RequantizerOutput := by
  unfold Obligations.RequantizerOutput
  intro s st p c j hf
  refine ⟨fun h => congrArg Host.Outcome.next (State.rqOutput_waits hf h), fun hj he hlast => ⟨_, rfl, ?_⟩⟩
  rw [State.rqOutput_eq_rqGroup hf hj he hlast]
  refine ⟨by rw [State.pos_rqGroup]; rfl, by rw [State.rqGroup_frame], s.standWork_rqGroup st p c j,
    by rw [State.stand_rqGroup_frame], s.counter_rqGroup st p c j, fun hm hon i hi => ?_⟩
  have hword : ∀ a, ((s.rqGroup st p c j).stand st).word a = ((s.rqWritten st p c j).stand st).word a :=
    fun a => by rw [State.stand_rqGroup_frame]; rfl
  intro a
  rw [hword, hword]
  exact State.word_rqWritten_raw hm hon hi

end Sys2Proof.Machine
end

section
/-! Tiles (03 R77 to R84; 06 R159): TOPEN, TCLOSE, and the verdict of a tile that does not fire. -/

namespace Sys2Proof.Machine

/-! ## Opening and closing (R77, R159) -/

/-- An instruction that finds no room is held back at a free controller (R150). -/
theorem State.issue_held {s : State} {st : Nat} (i : Instr) (eff : State → State) (h : s.issues st) :
    s.issue st i false eff = s.modStand st fun x => { x with backlog := [i], headSince := s.time.tick } := by
  obtain ⟨hissue, hfree⟩ := h
  simp only [State.issue, hissue, Bool.and_false, State.modStand, hfree]
  rfl

/-- A closed tile joins those that wait for their verdicts. -/
theorem Stand.closeTile_eq (x : Stand) : x.closeTile = { x with tile := none, tiles := x.tiles ++ x.tile.toList } := by
  unfold Stand.closeTile
  cases h : x.tile with
  | some t => rfl
  | none =>
    rw [Option.toList_none, List.append_nil]
    cases x
    cases h
    rfl

/-- The tile that TOPEN opens at a stand: threshold and mode latched, nothing counted yet. -/
def State.openedTile (s : State) (st num word : Nat) : Tile :=
  { uid := (s.stand st).tileSeq + 1, num, word := BitVec.ofNat 64 word,
    thresh := if bits word 47 32 = 65535 then s.setting 0x222001 16 else bits word 47 32,
    mode := s.setting 0x222002 1, fmt := bits word 28 26 }
/-- A stand in which that tile opens. -/
def Stand.opens (x : Stand) (k : Tile) : Stand :=
  { x with tileSeq := x.tileSeq + 1, tile := some k, tiles := x.tiles ++ x.tile.toList }

/-- A TOPEN with a tile open leaves a record. -/
def State.openNoted (s : State) (st : Nat) : State :=
  if (s.stand st).tile.isSome then s.programErr st 0x18 159 (s.idx st) else s

theorem State.turnsStand_openNoted (s : State) (st : Nat) : s.turnsStand (s.openNoted st) st (s.stand st) := by
  unfold State.openNoted
  split
  case isTrue => exact s.turnsStand_log st _
  case isFalse => exact ⟨rfl, fun _ _ => rfl, rfl⟩
theorem effTopen_eq (s : State) (st num word : Nat) : effTopen st num word s =
    (s.openNoted st).modStand st fun x => x.opens ((s.openNoted st).openedTile st num word) := by
  simp only [effTopen, State.modStand, Stand.closeTile_eq]
  rfl
theorem turnsStand_effTopen (s : State) (st num word : Nat) :
    s.turnsStand (effTopen st num word s) st ((s.stand st).opens (s.openedTile st num word)) := by
  have hnoted := s.turnsStand_openNoted st
  have hset : ∀ k d, (s.openNoted st).setting k d = s.setting k d := fun k d => by rw [hnoted.frame]; rfl
  have htile : (s.openNoted st).openedTile st num word = s.openedTile st num word := by
    simp only [State.openedTile, hset, hnoted.own]
  rw [effTopen_eq, htile]
  have hopen := (s.openNoted st).turnsStand_modStand st fun x => x.opens (s.openedTile st num word)
  rw [hnoted.own] at hopen
  exact hnoted.trans hopen
theorem turnsStand_effTclose (s : State) (st : Nat) : s.turnsStand (effTclose st s) st (s.stand st).closeTile := by
  unfold effTclose
  cases h : (s.stand st).tile with
  | some k => exact s.turnsStand_modStand st Stand.closeTile
  | none =>
    have hclose : (s.stand st).closeTile = s.stand st := by rw [Stand.closeTile, h]
    rw [hclose]
    exact s.turnsStand_log st _

/-! ## Clearing PEND (R80) -/

theorem bit_eq_of_b2n {n i : Nat} {b : Bool} (h : n / 2 ^ i % 2 = b2n b) : bit n i = b := by
  cases b <;> simp [bit, h, b2n]
/-- Fields within their widths come back from a header word. -/
theorem decVec_encVec {h : Hdr} (hf : h.fmt < 8) (ht : h.tile < 65536) (hc : h.count < 2048) : decVec (encVec h) = h := by
  have hp : b2n h.pend < 2 := by cases h.pend <;> decide
  have hs : b2n h.signed < 2 := by cases h.signed <;> decide
  have hword : (encVec h).toNat = b2n h.pend * 2 ^ 31 + h.fmt * 2 ^ 28 + b2n h.signed * 2 ^ 27 + h.tile * 2 ^ 11 + h.count := by
    rw [encVec, BitVec.toNat_ofNat, Nat.mod_eq_of_lt hf, Nat.mod_eq_of_lt ht, Nat.mod_eq_of_lt hc]
    omega
  have hpend : bit (encVec h).toNat 31 = h.pend := bit_eq_of_b2n (by omega)
  have hfmt : bits (encVec h).toNat 30 28 = h.fmt := by unfold bits; omega
  have hsigned : bit (encVec h).toNat 27 = h.signed := bit_eq_of_b2n (by omega)
  have htile : bits (encVec h).toNat 26 11 = h.tile := by unfold bits; omega
  have hcount : bits (encVec h).toNat 10 0 = h.count := by unfold bits; omega
  rw [decVec, hpend, hfmt, hsigned, htile, hcount]
/-- A header word with PEND 0. -/
def unpend (w : Word) : Word := encVec { decVec w with pend := false }
theorem decVec_unpend (w : Word) : decVec (unpend w) = { decVec w with pend := false } := by
  refine decVec_encVec ?_ ?_ ?_ <;> exact Nat.mod_lt _ (by decide)
theorem unpend_unpend (w : Word) : unpend (unpend w) = unpend w := by
  rw [unpend, decVec_unpend, unpend]
/-- PEND becomes 0 in the headers of the listed vectors; every other word stays. -/
theorem get_foldl_unpend (vs : List Nat) : ∀ (m : Tab Word) (b : Nat),
    Tab.get 0 (vs.foldl (fun m a => Tab.set 0 m (wa a) (unpend (Tab.get 0 m (wa a)))) m) b =
      if b ∈ vs.map wa then unpend (Tab.get 0 m b) else Tab.get 0 m b := by
  induction vs with
  | nil => exact fun _ _ => rfl
  | cons a vs ih =>
    intro m b
    rw [List.foldl_cons, ih, Tab.get_set]
    by_cases hb : b = wa a
    · subst hb
      simp [unpend_unpend]
    · simp [hb]

/-- The stand without a tile whose last verdict is given. -/
theorem State.stand_endTile (s : State) (st : Nat) (k : Tile) : (s.endTile st k).stand st = { s.stand st with
    tiles := (s.stand st).tiles.filter fun u => u.uid ≠ k.uid,
    spad := k.vectors.foldl (fun m a => Tab.set 0 m (wa a) (unpend (Tab.get 0 m (wa a)))) (s.stand st).spad } :=
  State.stand_modStand ..
theorem State.word_endTile (s : State) (st : Nat) (k : Tile) (a : Nat) : ((s.endTile st k).stand st).word a =
    if wa a ∈ k.vectors.map wa then unpend ((s.stand st).word a) else (s.stand st).word a := by
  rw [State.stand_endTile]
  exact get_foldl_unpend ..

/-! ## The verdict of the first tile that waits for one (R78, R159) -/

section
variable {s : State} {st : Nat} {k : Tile} (hk : (s.stand st).tiles.head? = some k) (hd : k.deferred = false)
  (hb : (s.stand st).tileBusy k.uid = false)
include hk hd hb

/-- A tile that does not fire ends. -/
theorem State.tileVerdict_quiet (h : k.fires = false) : s.tileVerdict st 0 = s.endTile st k := by
  rw [List.head?_eq_getElem?] at hk
  simp [State.tileVerdict, hk, hd, hb, h]
/-- A tile that fires repeats at its next format. -/
theorem State.tileVerdict_repeat (h : k.fires = true) {f : Nat} (hf : k.nextFmt = some f) :
    s.tileVerdict st 0 = (s.count 0x522203).repeatTile st k f := by
  rw [List.head?_eq_getElem?] at hk
  simp [State.tileVerdict, hk, hd, hb, h, hf]
/-- A tile that fires with no next format is a ceiling event, and ends. -/
theorem State.tileVerdict_ceiling (h : k.fires = true) (hf : k.nextFmt = none) :
    s.tileVerdict st 0 =
      (((s.count 0x522203).count 0x522206).sentinel st k k.fmt (4 + 8 * b2n (decide (256 < k.passes))) 0).endTile st k := by
  rw [List.head?_eq_getElem?] at hk
  simp [State.tileVerdict, hk, hd, hb, h, hf]

end

/-- TOPEN of a tile of the current binary issues where it finds room (R159). -/
theorem exec_topen {s : State} {st : StandId} {n : BitVec 16} {w : Nat} (hw : s.tileWord n.toNat = some w) :
    exec (.topen st n) s = .next (s.issue st (.topen st n) (s.stand st).tileRoom (effTopen st n.toNat w)) := by
  change execTopen _ _ _ = _
  rw [execTopen, hw]

/-- Settles O21, by what TOPEN, TCLOSE and the end of a tile do to the stand. -/
theorem tileCommands : Obligations.TileCommands := by
  unfold Obligations.TileCommands
  intro s st x
  refine ⟨fun n w hi hw => ⟨fun hroom => ?opens, fun hroom => ?held⟩, fun hi => ?closes, fun k hk hd hb hquiet => ?ends⟩
  case opens =>
    obtain ⟨hissue, hfree⟩ := hi
    have hexec : exec (.topen st n) s = .next (effTopen st n.toNat w (s.issued st)) := by
      rw [exec_topen hw, show (s.stand st).tileRoom = true from hroom, State.issue_ready s st _ _ hissue hfree]
    have htopen := turnsStand_effTopen (s.issued st) st n.toNat w
    rw [State.stand_issued] at htopen
    obtain ⟨hissued, hcores⟩ := State.issuedAt_of_turnsStand htopen rfl rfl rfl rfl
    refine ⟨_, hexec, hissued, hcores, by rw [htopen.own]; rfl, _, by rw [htopen.own]; rfl, rfl, rfl, rfl, rfl, rfl, rfl, rfl, rfl⟩
  case held =>
    refine ⟨s.modStand st fun x => { x with backlog := [.topen st n], headSince := s.time.tick }, ?_, State.onlyStand_modStand s st _,
      State.stand_modStand ..⟩
    rw [exec_topen hw, show (s.stand st).tileRoom = false from hroom, State.issue_held _ _ hi]
  case closes =>
    obtain ⟨hissue, hfree⟩ := hi
    have hclose := turnsStand_effTclose (s.issued st) st
    rw [Stand.closeTile_eq, State.stand_issued] at hclose
    obtain ⟨hissued, hcores⟩ := State.issuedAt_of_turnsStand hclose rfl rfl rfl rfl
    exact ⟨_, congrArg Host.Outcome.next (State.issue_ready s st _ _ hissue hfree), hissued, hcores, by rw [hclose.own],
      by rw [hclose.own]⟩
  case ends =>
    refine ⟨_, congrArg Host.Outcome.next (State.tileVerdict_quiet hk hd hb hquiet), ?_⟩
    have hstand := s.stand_endTile st k
    refine ⟨⟨rfl, by rw [hstand], fun m hm => State.stand_modStand_ne s _ hm⟩, by rw [hstand], fun a ha hlt => ?_, fun a ha => ?_⟩
    · have hwa : wa a = a := Nat.mod_eq_of_lt hlt
      rw [State.word_endTile, hwa, if_neg ha]
    · rw [Stand.vec, State.word_endTile, if_pos (List.mem_map_of_mem ha), decVec_unpend]
      rfl

end Sys2Proof.Machine
end

section
/-! When a tile fires and to which format, and the verdict of a tile that fires (03 R78 to R85). -/

namespace Sys2Proof.Machine

/-! ## What a verdict alone counts (R79, R82, R83, R85) -/

/-- The length of the sentinel log and the counters of fired, repeated, deferred and ceiling verdicts. -/
def State.verdictLog (s : State) : Nat × (Fin 4 → Nat) := (s.rel.sentLog, fun i => s.counter (0x522203 + i))

theorem State.sentLog_of_verdictLog {s t : State} {n : Nat} (h : t.verdictLog = (n, s.verdictLog.2)) : t.rel.sentLog = n :=
  congrArg Prod.fst h
theorem State.counter_of_verdictLog {s t : State} {n k : Nat} (h : t.verdictLog = (n, s.verdictLog.2)) (h₁ : 0x522203 ≤ k)
    (h₂ : k ≤ 0x522206) : t.counter k = s.counter k := by
  have hk := congrFun (congrArg Prod.snd h) ⟨k - 0x522203, by omega⟩
  simpa only [State.verdictLog, Nat.add_sub_cancel' h₁] using hk

/-- Any other counter. -/
@[simp] theorem State.verdictLog_count (s : State) {k : Nat} (n : Nat) (h : k < 0x522203 ∨ 0x522206 < k) :
    (s.count k n).verdictLog = s.verdictLog :=
  Prod.ext rfl (funext fun i => State.counter_count_ne s n (by omega))
@[simp] theorem State.verdictLog_log (s : State) (r : ErrRec) : (s.log r).verdictLog = s.verdictLog :=
  Prod.ext (by rw [State.log_frame]; rfl) (funext fun i => State.counter_log_ne s r (by omega))
@[simp] theorem State.verdictLog_modStand (s : State) (st : Nat) (f : Stand → Stand) : (s.modStand st f).verdictLog = s.verdictLog := rfl
@[simp] theorem State.verdictLog_modCore (s : State) (st c : Nat) (f : Core → Core) : (s.modCore st c f).verdictLog = s.verdictLog := rfl
theorem State.verdictLog_foldl {α : Type} {f : State → α → State} (h : ∀ s a, (f s a).verdictLog = s.verdictLog) (l : List α)
    (s : State) : (l.foldl f s).verdictLog = s.verdictLog := by
  induction l generalizing s with
  | nil => rfl
  | cons a l ih => rw [List.foldl_cons, ih, h]

/-! ## What a repeat runs leaves it as it is (R80) -/

@[simp] theorem State.verdictLog_vacate (s : State) (st p : Nat) : (s.vacate st p).verdictLog = s.verdictLog := by
  simp [State.vacate]
@[simp] theorem State.verdictLog_quarantine (s : State) (st c : Nat) : (s.quarantine st c).verdictLog = s.verdictLog := by
  unfold State.quarantine
  split
  · rfl
  · rw [State.verdictLog_log, State.verdictLog_count _ _ (by decide), State.verdictLog_modStand]
    exact State.verdictLog_foldl (fun s p => s.verdictLog_vacate st p) _ s
@[simp] theorem State.verdictLog_rowDue (s : State) (st b r : Nat) (ue : Bool) : (s.rowDue st b r ue).verdictLog = s.verdictLog := by
  unfold State.rowDue State.rowDegraded
  dsimp only
  split
  · simp
  · split <;> simp
@[simp] theorem State.verdictLog_spadUe (s : State) (st b r w op : Nat) : (s.spadUe st b r w op).verdictLog = s.verdictLog := by
  simp [State.spadUe]
@[simp] theorem State.verdictLog_spadCorrected (s : State) (st b r : Nat) : (s.spadCorrected st b r).verdictLog = s.verdictLog := by
  unfold State.spadCorrected
  dsimp only
  split <;> simp
@[simp] theorem State.verdictLog_readCodes (s : State) (st op a n : Nat) : (s.readCodes st op a n).verdictLog = s.verdictLog := by
  induction n generalizing s a with
  | zero => rfl
  | succ n ih =>
    rw [State.readCodes, ih]
    split
    · rfl
    · split <;> simp
@[simp] theorem State.verdictLog_readAcc (st req op fuel : Nat) (s : State) (a n : Nat) :
    (s.readAcc st req op fuel a n).2.verdictLog = s.verdictLog := by
  induction fuel generalizing s a n with
  | zero => rfl
  | succ fuel ih =>
    simp only [State.readAcc]
    split
    · rfl
    · rw [ih, State.verdictLog_modStand]
      split <;> simp [State.offAccess]
@[simp] theorem State.verdictLog_readWords (s : State) (st req op a n : Nat) :
    (s.readWords st req op a n).2.verdictLog = s.verdictLog := State.verdictLog_readAcc ..
@[simp] theorem State.verdictLog_fillSlot (s : State) (st p c k : Nat) (v : InSlot) :
    (s.fillSlot st p c k v).verdictLog = s.verdictLog := by
  unfold State.fillSlot
  dsimp only
  split <;> simp
@[simp] theorem State.verdictLog_beginVld (s : State) (st p c k a : Nat) : (s.beginVld st p c k a).verdictLog = s.verdictLog := by
  unfold State.beginVld
  dsimp only
  split <;> simp [State.operandErr]
@[simp] theorem State.verdictLog_beginPass (s : State) (st p c : Nat) (op : PassOp) :
    (s.beginPass st p c op).verdictLog = s.verdictLog := by
  unfold State.beginPass
  dsimp only
  rw [State.verdictLog_modStand]
  split
  · simp
  · split <;> simp
@[simp] theorem State.verdictLog_beginRqnt (s : State) (st p : Nat) (r : RqOp) (n : Nat) (rep : Bool) :
    (s.beginRqnt st p r n rep).verdictLog = s.verdictLog := by
  unfold State.beginRqnt
  dsimp only
  split <;> simp
@[simp] theorem State.verdictLog_beginCore (s : State) (st p c : Nat) (ahead : List CoreOp) (o : CoreOp) :
    (s.beginCore st p c ahead o).verdictLog = s.verdictLog := by
  cases o <;> simp [State.beginCore]
theorem State.verdictLog_pumpCore (st p c fuel : Nat) (s : State) : (State.pumpCore st p c fuel s).verdictLog = s.verdictLog := by
  induction fuel generalizing s with
  | zero => rfl
  | succ fuel ih =>
    rw [State.pumpCore]
    split
    · rfl
    · rw [ih, State.verdictLog_beginCore]
@[simp] theorem State.verdictLog_pumpPos (s : State) (st p : Nat) : (s.pumpPos st p).verdictLog = s.verdictLog := by
  unfold State.pumpPos
  split
  · exact State.verdictLog_vacate ..
  · exact State.verdictLog_pumpCore ..
theorem State.verdictLog_repeatAt (s : State) (st p : Nat) (ops : List CoreOp) (d : Bool) :
    (s.repeatAt st p ops d).verdictLog = s.verdictLog := by
  unfold State.repeatAt
  split
  · rfl
  · split <;> simp
theorem State.verdictLog_startRepeat (s : State) (st : Nat) (k : Tile) (d : Bool) : (s.startRepeat st k d).verdictLog = s.verdictLog :=
  State.verdictLog_foldl (fun s p => s.verdictLog_repeatAt st p _ d) _ s

/-! ## A record of the sentinel log (R85) -/

/-- Stands, arrays and what a verdict alone counts are the same. -/
structure State.sparesStands (s t : State) : Prop where
  stands : t.stands = s.stands
  cores : t.cores = s.cores
  verdictLog : t.verdictLog = s.verdictLog

theorem State.sparesStands_refl (s : State) : s.sparesStands s := ⟨rfl, rfl, rfl⟩
theorem State.sparesStands.trans {s t u : State} (h : s.sparesStands t) (k : t.sparesStands u) : s.sparesStands u :=
  ⟨k.stands.trans h.stands, k.cores.trans h.cores, k.verdictLog.trans h.verdictLog⟩
theorem State.sparesStands_foldl {α : Type} {f : State → α → State} (h : ∀ (s : State) a, s.sparesStands (f s a)) (l : List α)
    (s : State) : s.sparesStands (l.foldl f s) := by
  induction l generalizing s with
  | nil => exact s.sparesStands_refl
  | cons a l ih => exact (h s a).trans (ih _)
theorem State.sparesStands_count (s : State) {k : Nat} (n : Nat) (h : k < 0x522203 ∨ 0x522206 < k) : s.sparesStands (s.count k n) :=
  ⟨rfl, rfl, s.verdictLog_count n h⟩
theorem State.sparesStands_log (s : State) (r : ErrRec) : s.sparesStands (s.log r) :=
  ⟨s.stands_log r, s.cores_log r, s.verdictLog_log r⟩
theorem State.sparesStands_putTier (s : State) (b : Bool) (a : Nat) (bs : List Byte) : s.sparesStands (s.putTier b a bs) := by
  cases b <;> exact ⟨rfl, rfl, rfl⟩
theorem State.sparesStands_freshBurst (s : State) (b : Bool) (k : Nat) : s.sparesStands (s.freshBurst b k) := by
  cases b <;> exact ⟨rfl, rfl, rfl⟩
theorem State.sparesStands_tierAsk (s : State) (b : Bool) (a n node : Nat) : s.sparesStands (s.tierAsk b a n node) := by
  unfold State.tierAsk
  split
  · exact s.sparesStands_refl
  · exact s.sparesStands_count _ (by decide)
theorem State.sparesStands_burstNote (s : State) (a w : Nat) : s.sparesStands (s.burstNote true a w) := by
  rw [State.burstNote, if_pos (Or.inl rfl)]
  exact s.sparesStands_refl
/-- The owner of an uncorrectable burst of tier B is no stand (Table 12.3). -/
theorem State.sparesStands_ownerUe (s : State) (a : Nat) : s.sparesStands (s.ownerUe true a) := by
  unfold State.ownerUe
  split
  · exact ⟨rfl, rfl, rfl⟩
  · rw [if_pos rfl]
    split
    · exact ⟨rfl, rfl, rfl⟩
    · split <;> exact ⟨rfl, rfl, rfl⟩
/-- A burst read for a merge quarantines no stand (R370). -/
theorem State.sparesStands_burstRead (s : State) (node k : Nat) : s.sparesStands (s.burstRead true node k false) := by
  unfold State.burstRead
  dsimp only
  refine State.sparesStands.trans (s.sparesStands_burstNote (64 * k) (s.wrongBurst true k)) ?_
  split
  · exact State.sparesStands_refl _
  · split
    · exact State.sparesStands_count _ _ (by decide)
    · rw [if_neg (by simp)]
      exact ((State.sparesStands_count _ _ (by decide)).trans (State.sparesStands_log _ _)).trans (State.sparesStands_ownerUe _ _)
theorem State.sparesStands_tierWrite (s : State) (a : Nat) (bs : List Byte) (node : Nat) : s.sparesStands (s.tierWrite true a bs node) := by
  unfold State.tierWrite
  refine ((s.sparesStands_tierAsk ..).trans (State.sparesStands_foldl (fun s k => ?_) _ _)).trans (State.sparesStands_putTier ..)
  refine State.sparesStands.trans ?_ (State.sparesStands_freshBurst _ true k)
  split
  · exact s.sparesStands_refl
  · exact s.sparesStands_burstRead ..

/-- A record of the sentinel log makes it one longer, and reaches no stand, no array and no counter of verdicts. -/
theorem State.sentinel_frame (s : State) (st : Nat) (k : Tile) (dst flags cost : Nat) : let t := s.sentinel st k dst flags cost
    t.stands = s.stands ∧ t.cores = s.cores ∧ t.verdictLog = (s.rel.sentLog + 1, s.verdictLog.2) := by
  unfold State.sentinel
  dsimp only
  generalize hu : s.tierWrite true _ _ 5105 = u
  obtain ⟨hstands, hcores, hlog⟩ : s.sparesStands u := hu ▸ s.sparesStands_tierWrite ..
  refine ⟨hstands, hcores, ?_⟩
  rw [← hlog]
  rfl

/-! ## When a tile fires, and to which format (R78 to R80, Table 3.9) -/

theorem Tile.fires_iff (k : Tile) : k.fires = true ↔
    k.mode = 1 ∧ bit k.word.toNat 24 = true ∧ k.outputs ≠ 0 ∧ k.outputs * k.thresh < k.clips * 65536 := by
  simp only [Tile.fires, Bool.and_eq_true, decide_eq_true_eq]
  tauto
theorem wider_eq_some (f g : Nat) (sg : Bool) : wider f sg = some g ↔ g = f + 1 ∧ (f < 4 ∨ (f = 4 ∧ sg = true)) := by
  unfold wider
  split
  case isTrue h => simp [h, eq_comm]
  case isFalse h =>
    split
    case isTrue hwide =>
      obtain ⟨rfl, rfl⟩ := hwide
      simp [eq_comm]
    case isFalse hwide => simp [h, hwide]
theorem Tile.nextFmt_eq_some (k : Tile) (f : Nat) : k.nextFmt = some f ↔ k.passes ≤ 256 ∧ f ≤ bits k.word.toNat 31 29 ∧
    f = k.fmt + 1 ∧ (k.fmt < 4 ∨ (k.fmt = 4 ∧ bit k.word.toNat 25 = true)) := by
  rw [← wider_eq_some, Tile.nextFmt]
  split
  case isTrue h => simp [Nat.not_le.2 h]
  case isFalse h =>
    cases wider k.fmt (bit k.word.toNat 25) with
    | none => simp
    | some g =>
      simp only [Option.ite_none_right_eq_some, Option.some.injEq]
      omega

/-! ## The verdict of a tile that fires (R82 to R84) -/

/-- The repeat runs now: it fits the slack of the sentinel word, or may not be deferred (R83, R84). -/
def State.repeatsNow (s : State) (st : Nat) (k : Tile) : Bool :=
  decide (k.cost + k.repeatCost ≤ bits k.word.toNat 63 48) || s.bankChangeNext st k
theorem State.repeatsNow_iff (s : State) (st : Nat) (k : Tile) :
    s.repeatsNow st k = true ↔ k.cost + k.repeatCost ≤ bits k.word.toNat 63 48 ∨ s.bankChangeNext st k = true := by
  simp [State.repeatsNow]

/-- The counter of a verdict that leads to a repeat: repeated or deferred. -/
def State.repeatCounter (s : State) (st : Nat) (k : Tile) : Nat := if s.repeatsNow st k then 0x522204 else 0x522205

/-- A verdict that leads to a repeat is counted once, and makes the sentinel log one longer. -/
theorem State.verdictLog_repeatTile (s : State) (st : Nat) (k : Tile) (f : Nat) : (s.repeatTile st k f).verdictLog =
    (s.rel.sentLog + 1, ((s.count 0x522207 k.repeatCost).count (s.repeatCounter st k)).verdictLog.2) := by
  have hnow : (decide (k.cost + k.repeatCost ≤ bits k.word.toNat 63 48) ||
      (!decide (k.cost + k.repeatCost ≤ bits k.word.toNat 63 48) && s.bankChangeNext st k)) = s.repeatsNow st k := by
    rw [State.repeatsNow]
    cases decide (k.cost + k.repeatCost ≤ bits k.word.toNat 63 48) <;> rfl
  unfold State.repeatTile
  dsimp only
  rw [hnow, apply_ite State.verdictLog, State.verdictLog_startRepeat, ite_self, State.verdictLog_modStand]
  exact (State.sentinel_frame ..).2.2

theorem State.verdictLog_endTile (s : State) (st : Nat) (k : Tile) : (s.endTile st k).verdictLog = s.verdictLog := rfl

/-- Settles O22, by the counters and the sentinel log after each of the two verdicts. -/
theorem tileFires : Obligations.TileFires := by
  unfold Obligations.TileFires
  refine ⟨Tile.fires_iff, Tile.nextFmt_eq_some, fun s st k hk hd hb hfires => ⟨_, rfl, ?_⟩⟩
  cases hnext : k.nextFmt with
  | some f =>
    have hlog := (s.count 0x522203).verdictLog_repeatTile st k f
    rw [State.tileVerdict_repeat hk hd hb hfires hnext]
    generalize (s.count 0x522203).repeatTile st k f = t at hlog
    refine ⟨?fired, State.sentLog_of_verdictLog hlog, fun g _ => ?counted, fun h => by cases h⟩
    case fired =>
      rw [State.counter_of_verdictLog hlog (by decide) (by decide), State.counter_count_ne _ _ ?other,
        State.counter_count_ne _ _ (by decide), State.counter_count]
      unfold State.repeatCounter
      split <;> decide
    case counted =>
      simp only [← State.repeatsNow_iff]
      change t.counter ((s.count 0x522203).repeatCounter st k) = (s.counter ((s.count 0x522203).repeatCounter st k) + 1) % 2 ^ 64
      obtain he | he : (s.count 0x522203).repeatCounter st k = 0x522204 ∨ (s.count 0x522203).repeatCounter st k = 0x522205 := by
        unfold State.repeatCounter
        split <;> simp
      all_goals
        rw [he] at hlog ⊢
        rw [State.counter_of_verdictLog hlog (by decide) (by decide), State.counter_count,
          State.counter_count_ne _ _ (by decide), State.counter_count_ne _ _ (by decide)]
  | none =>
    obtain ⟨hstands, hcores, hlog⟩ :=
      ((s.count 0x522203).count 0x522206).sentinel_frame st k k.fmt (4 + 8 * b2n (decide (256 < k.passes))) 0
    rw [State.tileVerdict_ceiling hk hd hb hfires hnext]
    generalize ((s.count 0x522203).count 0x522206).sentinel st k k.fmt (4 + 8 * b2n (decide (256 < k.passes))) 0 = t at hstands hcores hlog
    rw [← State.verdictLog_endTile t st k] at hlog
    refine ⟨?fired, State.sentLog_of_verdictLog hlog, fun g h => (by cases h), fun _ => ⟨hcores, ?ceiling, ?ends⟩⟩
    case fired =>
      rw [State.counter_of_verdictLog hlog (by decide) (by decide), State.counter_count_ne _ _ (by decide), State.counter_count]
    case ceiling =>
      rw [State.counter_of_verdictLog hlog (by decide) (by decide), State.counter_count, State.counter_count_ne _ _ (by decide)]
    case ends =>
      rw [State.stand_endTile, State.stand, hstands]
      rfl

end Sys2Proof.Machine
end

section
/-! Receive windows and scratchpad banks that close (04 R106, R110, R114, R115, R118): serving the credit queue, settling, voiding. -/

namespace Sys2Proof.Machine

/-! ## Slots -/

theorem mem_slots16 {k : Nat} : k ∈ slots16 ↔ k < 16 := List.mem_range
theorem CreditUnit.mem_inBank {u : CreditUnit} {b k : Nat} :
    k ∈ u.inBank b ↔ k < 16 ∧ (u.win k).st ≠ .closed ∧ (u.win k).bank = b := by
  simp [CreditUnit.inBank, slots16]
theorem CreditUnit.win_modWin_ite (u : CreditUnit) (k j : Nat) (f : Window → Window) :
    (u.modWin k f).win j = if j = k then f (u.win j) else u.win j := by
  split
  case isTrue h => subst h; exact CreditUnit.win_modWin ..
  case isFalse h => exact CreditUnit.win_modWin_ne u f h
/-- One idempotent update g of a slot, done in several slots. -/
theorem CreditUnit.win_foldl {f : Window → Window} {g : CreditUnit → Nat → CreditUnit} (hf : ∀ w, f (f w) = f w)
    (hg : ∀ u k j, (g u k).win j = if j = k then f (u.win j) else u.win j) (l : List Nat) :
    ∀ (u : CreditUnit) (j : Nat), (l.foldl g u).win j = if j ∈ l then f (u.win j) else u.win j := by
  induction l with
  | nil => exact fun _ _ => rfl
  | cons k l ih =>
    intro u j
    rw [List.foldl_cons, ih, hg]
    by_cases hk : j = k
    · simp [hk, hf]
    · simp [hk]
theorem CreditUnit.win_foldl_shutWin (l : List Nat) (u : CreditUnit) (j : Nat) :
    (l.foldl (fun u k => u.shutWin k) u).win j = if j ∈ l then (u.win j).shut else u.win j :=
  CreditUnit.win_foldl (f := Window.shut) (fun _ => rfl) (fun u k j => u.win_modWin_ite k j Window.shut) l u j

theorem Window.st_shut (w : Window) : w.shut.st = .closed := rfl
/-- A window forced CLOSED: its generation is one up when it held a credit (R106, R115). -/
def Window.voided (w : Window) : Window := { w.shut with gen := if w.full then w.gen else (w.gen + 1) % 256 }
theorem Window.voided_voided (w : Window) : w.voided.voided = w.voided := rfl
theorem CreditUnit.win_voidWin (u : CreditUnit) (k j : Nat) :
    (u.voidWin k).win j = if j = k then (u.win j).voided else u.win j := by
  rw [← u.win_modWin_ite k j Window.voided]
  unfold Window.voided Window.full
  simp only [decide_eq_true_eq]
  rfl
theorem CreditUnit.win_foldl_voidWin (l : List Nat) (u : CreditUnit) (j : Nat) :
    (l.foldl (fun u k => u.voidWin k) u).win j = if j ∈ l then (u.win j).voided else u.win j :=
  CreditUnit.win_foldl Window.voided_voided CreditUnit.win_voidWin l u j

/-- A window that a close action takes along: OPEN becomes CLOSING with deadline d (R115). -/
def Window.closes (d : Nat) (w : Window) : Window := if w.st = .opened then { w with st := .closing, deadline := d } else w
theorem Window.st_closes_ne (d : Nat) (w : Window) : (w.closes d).st ≠ .opened := by
  unfold Window.closes
  split
  case isTrue => exact fun h => nomatch h
  case isFalse h => exact h
theorem Window.st_closes_closed_iff (d : Nat) (w : Window) : (w.closes d).st = .closed ↔ w.st = .closed := by
  unfold Window.closes
  split
  case isTrue h => simp [h]
  case isFalse => rfl
theorem Window.closes_frame (d : Nat) (w : Window) : w.closes d = { w with st := (w.closes d).st, deadline := (w.closes d).deadline } := by
  unfold Window.closes
  split <;> rfl
theorem CreditUnit.win_foldl_closes (d : Nat) (l : List Nat) (u : CreditUnit) (j : Nat) :
    (l.foldl (fun u k => u.modWin k (Window.closes d)) u).win j = if j ∈ l then (u.win j).closes d else u.win j :=
  CreditUnit.win_foldl (fun w => if_neg (w.st_closes_ne d)) (fun u k j => u.win_modWin_ite k j _) l u j

/-! ## The credit unit of a stand -/

/-- Change the credit unit of a stand. -/
def Stand.modUnit (x : Stand) (f : CreditUnit → CreditUnit) : Stand := { x with credit := f x.credit }
@[simp] theorem Stand.credit_modUnit (x : Stand) (f : CreditUnit → CreditUnit) : (x.modUnit f).credit = f x.credit := rfl
@[simp] theorem Stand.bank_modUnit (x : Stand) (f : CreditUnit → CreditUnit) (b : Nat) : (x.modUnit f).bank b = x.bank b := rfl
@[simp] theorem Stand.word_modUnit (x : Stand) (f : CreditUnit → CreditUnit) (a : Nat) : (x.modUnit f).word a = x.word a := rfl

section
variable (s : State) {n : Nat} (h : n < 5000)
include h

theorem State.credit_of_stand : s.credit n = (s.stand n).credit := if_pos h
theorem State.modCredit_of_stand (f : CreditUnit → CreditUnit) :
    s.modCredit n f = s.modStand n fun x => x.modUnit f := if_pos h

end

/-! ## Serving a queue (R107, R108, R115) -/

/-- What serving a queue leaves of the windows: all of a window but its rows, and the rows of a window that is not OPEN. -/
structure CreditUnit.servedTo (u v : CreditUnit) : Prop where
  frame : ∀ k, v.win k = { u.win k with rows := (v.win k).rows }
  kept : ∀ k, (u.win k).st ≠ .opened → v.win k = u.win k

theorem CreditUnit.servedTo_of_win {u v : CreditUnit} (h : ∀ k, v.win k = u.win k) : u.servedTo v :=
  ⟨fun k => by rw [h k], fun k _ => h k⟩
theorem CreditUnit.servedTo.trans {u v w : CreditUnit} (h : u.servedTo v) (g : v.servedTo w) : u.servedTo w :=
  ⟨fun k => by rw [g.frame k, h.frame k], fun k hk => by rw [g.kept k (by rw [h.kept k hk]; exact hk), h.kept k hk]⟩
theorem CreditUnit.servedTo_modWin {u : CreditUnit} {k : Nat} {f : Window → Window} (hf : ∀ w, f w = { w with rows := (f w).rows })
    (h : (u.win k).st = .opened) : u.servedTo (u.modWin k f) := by
  refine ⟨fun j => ?_, fun j hj => CreditUnit.win_modWin_ne u f (by rintro rfl; exact hj h)⟩
  rw [CreditUnit.win_modWin_ite]
  split
  case isTrue => exact hf _
  case isFalse => rfl

theorem State.credit_grant (s : State) (n : Nat) (q : CreditReq) (rows : List Nat) : (s.grant n q rows).credit n =
    (s.credit n).modWin q.msg.window fun w => rows.foldl (fun w r => w.putRow r (.granted q.src 0 none)) w := by
  simp [State.grant]
theorem State.servedTo_serveGo (n : Nat) : ∀ (l : List CreditReq) (bs : List Nat) (s : State),
    (s.credit n).servedTo ((State.serveGo n l bs s).credit n)
  | [], _, _ => CreditUnit.servedTo_of_win fun _ => rfl
  | q :: l, bs, s => by
    unfold State.serveGo
    dsimp only
    have hdrop : (s.credit n).servedTo { s.credit n with queue := dropFirst q (s.credit n).queue } :=
      CreditUnit.servedTo_of_win fun _ => rfl
    split
    case isTrue =>
      refine CreditUnit.servedTo.trans ?_ (State.servedTo_serveGo n l bs _)
      rwa [State.credit_sendGrant, State.credit_modCredit]
    case isFalse hopen =>
      split
      case isTrue => exact State.servedTo_serveGo n l bs s
      case isFalse =>
        split
        case h_1 rows _ =>
          refine CreditUnit.servedTo.trans ?_ (State.servedTo_serveGo n l bs _)
          rw [State.credit_grant, State.credit_modCredit]
          exact hdrop.trans (CreditUnit.servedTo_modWin (Window.putRows_frame _ rows) (Decidable.of_not_not hopen))
        case h_2 => exact State.servedTo_serveGo n l _ s
theorem State.servedTo_serveQueue (s : State) (n : Nat) : (s.credit n).servedTo ((s.serveQueue n).credit n) :=
  State.servedTo_serveGo n _ _ s

/-! ## Banks that finish closing (R115) -/

/-- The words of an address below 2^16 in a bank that lost its contents. -/
theorem Stand.word_clearBank (x : Stand) (b : Nat) {a : Nat} (h : a < 65536) :
    (x.clearBank b).word a = if a / 2048 = b then 0 else x.word a := by
  have hwa : wa a = a := Nat.mod_eq_of_lt h
  simp only [Stand.word, Stand.clearBank, hwa, Tab.get_clear, decide_eq_true_eq]

/-- Bank b stands in y as in x: its state, its windows and its words. -/
structure Stand.sameBank (x y : Stand) (b : Nat) : Prop where
  bank : y.bank b = x.bank b
  mem : ∀ k, k ∈ y.credit.inBank b ↔ k ∈ x.credit.inBank b
  win : ∀ k, k ∈ x.credit.inBank b → y.credit.win k = x.credit.win k
  word : ∀ a, a < 65536 → a / 2048 = b → y.word a = x.word a

theorem Stand.sameBank_refl (x : Stand) (b : Nat) : x.sameBank x b := ⟨rfl, fun _ => Iff.rfl, fun _ _ => rfl, fun _ _ _ => rfl⟩
theorem Stand.sameBank.trans {x y z : Stand} {b : Nat} (h : x.sameBank y b) (g : y.sameBank z b) : x.sameBank z b :=
  ⟨g.bank.trans h.bank, fun k => (g.mem k).trans (h.mem k), fun k hk => (g.win k ((h.mem k).mpr hk)).trans (h.win k hk),
    fun a ha hb => (g.word a ha hb).trans (h.word a ha hb)⟩

theorem Stand.bank_bankOff (x : Stand) (b : Nat) : (x.bankOff b).bank b = { x.bank b with power := .off, deadline := 0 } :=
  Stand.bank_modBank ..
theorem Stand.bank_bankOff_ne (x : Stand) {b c : Nat} (h : c ≠ b) : (x.bankOff b).bank c = x.bank c := Stand.bank_modBank_ne _ _ h
theorem Stand.word_bankOff (x : Stand) (b : Nat) {a : Nat} (h : a < 65536) :
    (x.bankOff b).word a = if a / 2048 = b then 0 else x.word a := Stand.word_clearBank _ b h
theorem Stand.win_bankOff (x : Stand) (b k : Nat) :
    (x.bankOff b).credit.win k = if k ∈ x.credit.inBank b then (x.credit.win k).shut else x.credit.win k :=
  CreditUnit.win_foldl_shutWin _ x.credit k
/-- A bank that enters OFF leaves the other banks as they are. -/
theorem Stand.sameBank_bankOff (x : Stand) {b c : Nat} (h : c ≠ b) : x.sameBank (x.bankOff b) c := by
  have hnot : ∀ k, k ∈ x.credit.inBank c → k ∉ x.credit.inBank b := fun k hc hb =>
    h ((CreditUnit.mem_inBank.mp hc).2.2.symm.trans (CreditUnit.mem_inBank.mp hb).2.2)
  refine ⟨x.bank_bankOff_ne h, fun k => ?mem, fun k hk => ?win, fun a ha hc => ?word⟩
  case mem =>
    by_cases hb : k ∈ x.credit.inBank b
    · have hc : k ∉ x.credit.inBank c := fun hc => hnot k hc hb
      refine iff_of_false (fun hk => (CreditUnit.mem_inBank.mp hk).2.1 ?_) hc
      rw [Stand.win_bankOff, if_pos hb]
      rfl
    · rw [CreditUnit.mem_inBank, CreditUnit.mem_inBank, Stand.win_bankOff, if_neg hb]
  case win => rw [Stand.win_bankOff, if_neg (hnot k hk)]
  case word => rw [x.word_bankOff b ha, if_neg (by omega)]

/-- Bank b is CLOSING and holds no credit. -/
def Stand.bankDone (x : Stand) (b : Nat) : Prop :=
  (x.bank b).power = .closing ∧ ((x.credit.inBank b).all fun k => (x.credit.win k).full) = true
theorem Stand.bankDone_iff {x : Stand} {b : Nat} :
    x.bankDone b ↔ (x.bank b).power = .closing ∧ ∀ k, k ∈ x.credit.inBank b → (x.credit.win k).full = true := by
  rw [Stand.bankDone, List.all_eq_true]
theorem Stand.sameBank.bankDone_iff {x y : Stand} {b : Nat} (h : x.sameBank y b) : y.bankDone b ↔ x.bankDone b := by
  rw [Stand.bankDone_iff, Stand.bankDone_iff, h.bank]
  refine and_congr_right fun _ => forall_congr' fun k => ?_
  rw [h.mem]
  exact forall_congr' fun hk => by rw [h.win k hk]

/-- The first step of a settlement at bank b. -/
def Stand.finishBank (x : Stand) (b : Nat) : Stand :=
  if (x.bank b).power = .closing ∧ (x.credit.inBank b).all (fun k => (x.credit.win k).full) then x.bankOff b else x
theorem Stand.finishBank_done {x : Stand} {b : Nat} (h : x.bankDone b) : x.finishBank b = x.bankOff b := if_pos h
theorem Stand.finishBank_not_done {x : Stand} {b : Nat} (h : ¬ x.bankDone b) : x.finishBank b = x := if_neg h
theorem Stand.finishBank_cases (x : Stand) (b : Nat) : x.finishBank b = x.bankOff b ∨ x.finishBank b = x := by
  unfold Stand.finishBank
  split
  case isTrue => exact .inl rfl
  case isFalse => exact .inr rfl
theorem Stand.sameBank_finishBank (x : Stand) {b c : Nat} (h : c ≠ b ∨ ¬ x.bankDone c) : x.sameBank (x.finishBank b) c := by
  by_cases hd : x.bankDone b
  · rw [Stand.finishBank_done hd]
    exact x.sameBank_bankOff (h.elim id fun hc e => hc (e ▸ hd))
  · rw [Stand.finishBank_not_done hd]
    exact x.sameBank_refl c

/-- The banks of a list finish in turn: a bank that is not done stays as it is. -/
theorem Stand.sameBank_finishBanks {c : Nat} (l : List Nat) : ∀ {x : Stand}, ¬ x.bankDone c → x.sameBank (l.foldl Stand.finishBank x) c := by
  induction l with
  | nil => exact fun _ => Stand.sameBank_refl _ c
  | cons b l ih =>
    intro x h
    have hstep := x.sameBank_finishBank (b := b) (.inr h)
    exact hstep.trans (ih fun hd => h (hstep.bankDone_iff.mp hd))
/-- A bank that is done and has its turn is OFF with its words gone. -/
theorem Stand.finishBanks_done {c : Nat} (l : List Nat) : ∀ {x : Stand}, x.bankDone c → c ∈ l →
    ((l.foldl Stand.finishBank x).bank c).power = .off ∧ ∀ a, a < 65536 → a / 2048 = c → (l.foldl Stand.finishBank x).word a = 0 := by
  induction l with
  | nil => exact fun _ hc => nomatch hc
  | cons b l ih =>
    intro x h hc
    rw [List.foldl_cons]
    by_cases hb : c = b
    · subst hb
      rw [Stand.finishBank_done h]
      have hpower : ((x.bankOff c).bank c).power = .off := by rw [Stand.bank_bankOff]
      have hsame := Stand.sameBank_finishBanks l (x := x.bankOff c) (c := c) fun hd => by
        rw [hd.1] at hpower
        cases hpower
      refine ⟨by rw [hsame.bank, hpower], fun a ha hac => ?_⟩
      rw [hsame.word a ha hac, x.word_bankOff c ha, if_pos hac]
    · exact ih ((x.sameBank_finishBank (.inl hb)).bankDone_iff.mpr h) ((List.mem_cons.mp hc).resolve_left hb)
/-- A window that is CLOSED stays as it is. -/
theorem Stand.win_finishBanks_closed {k : Nat} (l : List Nat) : ∀ {x : Stand}, (x.credit.win k).st = .closed →
    (l.foldl Stand.finishBank x).credit.win k = x.credit.win k := by
  induction l with
  | nil => exact fun _ => rfl
  | cons b l ih =>
    intro x h
    have hstep : (x.finishBank b).credit.win k = x.credit.win k := by
      obtain hb | hb := x.finishBank_cases b
      · rw [hb, Stand.win_bankOff, if_neg fun hk => (CreditUnit.mem_inBank.mp hk).2.1 h]
      · rw [hb]
    rw [List.foldl_cons, ih (by rw [hstep]; exact h), hstep]

/-! ## Settling a stand (R115) -/

/-- The second step of a settlement at a window: one that is CLOSING without its bank, or before it, finishes on its own. -/
def Stand.finishWindow (x : Stand) (w : Window) : Window :=
  if w.st = .closing ∧ w.full ∧ ((x.bank w.bank).power ≠ .closing ∨ w.deadline < (x.bank w.bank).deadline) then w.shut else w
theorem Stand.finishWindow_not_closing (x : Stand) {w : Window} (h : w.st ≠ .closing) : x.finishWindow w = w := if_neg fun hw => h hw.1
theorem Stand.finishWindow_alone (x : Stand) {w : Window} (h : w.st = .closing) (hb : (x.bank w.bank).power ≠ .closing) :
    x.finishWindow w = if w.full then w.shut else w := by
  simp only [Stand.finishWindow, h, hb, ne_eq, not_false_eq_true, true_or, and_true, true_and]
theorem Stand.finishWindow_finishWindow (x : Stand) (w : Window) : x.finishWindow (x.finishWindow w) = x.finishWindow w := by
  conv => lhs; arg 2; unfold Stand.finishWindow
  split
  case isTrue h =>
    rw [x.finishWindow_not_closing (by rw [Window.st_shut]; decide)]
    exact (if_pos h).symm
  case isFalse => rfl

/-- The banks of a stand finish. -/
def Stand.finishBanks (x : Stand) : Stand := (List.range 32).foldl Stand.finishBank x
/-- The windows of a stand finish. -/
def Stand.finishWindows (x : Stand) : CreditUnit :=
  slots16.foldl (fun u k => if (u.win k).st = .closing ∧ (u.win k).full ∧ ((x.bank (u.win k).bank).power ≠ .closing ∨
    (u.win k).deadline < (x.bank (u.win k).bank).deadline) then u.shutWin k else u) x.credit
theorem Stand.settle_eq (x : Stand) : x.settle = { x.finishBanks with credit := x.finishBanks.finishWindows } := by
  unfold Stand.settle Stand.finishBanks Stand.finishWindows
  generalize List.range 32 = banks, slots16 = slots
  rfl
theorem Stand.bank_settle (x : Stand) (b : Nat) : x.settle.bank b = x.finishBanks.bank b := by
  simp only [Stand.settle_eq, Stand.bank]
theorem Stand.word_settle (x : Stand) (a : Nat) : x.settle.word a = x.finishBanks.word a := by
  simp only [Stand.settle_eq, Stand.word]
theorem Stand.win_finishWindows (x : Stand) {k : Nat} (hk : k < 16) : x.finishWindows.win k = x.finishWindow (x.credit.win k) := by
  refine (CreditUnit.win_foldl x.finishWindow_finishWindow (fun u k j => ?_) slots16 x.credit k).trans
    (if_pos (mem_slots16.mpr hk))
  by_cases hj : j = k
  · subst hj
    rw [if_pos rfl, Stand.finishWindow]
    split
    case isTrue => exact CreditUnit.win_modWin ..
    case isFalse => rfl
  · rw [if_neg hj]
    split
    case isTrue => exact CreditUnit.win_modWin_ne u _ hj
    case isFalse => rfl
theorem Stand.win_settle (x : Stand) {k : Nat} (hk : k < 16) :
    x.settle.credit.win k = x.finishBanks.finishWindow (x.finishBanks.credit.win k) := by
  rw [← Stand.win_finishWindows _ hk, Stand.settle_eq]

/-- A settlement leaves a bank that is not done, and its words. -/
theorem Stand.settle_bank_not_done {x : Stand} {b : Nat} (h : ¬ x.bankDone b) :
    x.settle.bank b = x.bank b ∧ ∀ a, a < 65536 → a / 2048 = b → x.settle.word a = x.word a := by
  have hsame : x.sameBank x.finishBanks b := Stand.sameBank_finishBanks _ h
  exact ⟨by rw [Stand.bank_settle, hsame.bank], fun a ha hb => by rw [Stand.word_settle, hsame.word a ha hb]⟩
/-- A settlement takes a bank that is done OFF, and its words are gone. -/
theorem Stand.settle_bank_done {x : Stand} {b : Nat} (hb : b < 32) (h : x.bankDone b) :
    (x.settle.bank b).power = .off ∧ ∀ a, a < 65536 → a / 2048 = b → x.settle.word a = 0 := by
  have hdone := Stand.finishBanks_done (List.range 32) h (List.mem_range.mpr hb)
  exact ⟨by rw [Stand.bank_settle]; exact hdone.1, fun a ha hab => by rw [Stand.word_settle]; exact hdone.2 a ha hab⟩
/-- A settlement leaves a CLOSED window. -/
theorem Stand.win_settle_closed {x : Stand} {k : Nat} (hk : k < 16) (h : (x.credit.win k).st = .closed) :
    x.settle.credit.win k = x.credit.win k := by
  have hwin : x.finishBanks.credit.win k = x.credit.win k := Stand.win_finishBanks_closed _ h
  rw [x.win_settle hk, hwin, Stand.finishWindow_not_closing _ (by rw [h]; exact fun he => nomatch he)]
/-- A settlement at a window whose bank is not CLOSING: it finishes when it is CLOSING and holds no credit. -/
theorem Stand.win_settle_alone {x : Stand} {k : Nat} (hk : k < 16) (h : (x.credit.win k).st ≠ .closed)
    (hb : (x.bank (x.credit.win k).bank).power ≠ .closing) : x.settle.credit.win k =
      if (x.credit.win k).st = .closing ∧ (x.credit.win k).full then (x.credit.win k).shut else x.credit.win k := by
  have hsame : x.sameBank x.finishBanks (x.credit.win k).bank := Stand.sameBank_finishBanks _ fun hd => hb hd.1
  rw [x.win_settle hk, hsame.win k (CreditUnit.mem_inBank.mpr ⟨hk, h, rfl⟩)]
  by_cases hc : (x.credit.win k).st = .closing
  · rw [Stand.finishWindow_alone _ hc (by rw [hsame.bank]; exact hb)]
    simp only [hc, true_and]
  · rw [Stand.finishWindow_not_closing _ hc, if_neg fun he => hc he.1]

end Sys2Proof.Machine
end

section
/-! WOPEN, WCLOSE and WREL (04 R106, R112, R115; 06 R160). -/

namespace Sys2Proof.Machine

/-! ## Work on windows and banks of one stand -/

/-- Work on the windows and banks of stand st: its program counter and registers, every other stand and tier memory stay. -/
structure State.windowsAt (s t : State) (st : Nat) : Prop where
  mem : t.mem = s.mem
  others : ∀ m, m ≠ st → t.stand m = s.stand m
  own : (s.stand st).settled (t.stand st)

theorem State.windowsAt_refl (s : State) (st : Nat) : s.windowsAt s st := ⟨rfl, fun _ _ => rfl, rfl⟩
theorem State.windowsAt.trans {s t u : State} {st : Nat} (h : s.windowsAt t st) (k : t.windowsAt u st) : s.windowsAt u st :=
  ⟨k.mem.trans h.mem, fun m hm => (k.others m hm).trans (h.others m hm),
    by have hk := k.own; have hh := h.own; unfold Stand.settled at *; rw [hk, hh]⟩
theorem State.windowsAt_log (s : State) (st : Nat) (r : ErrRec) : s.windowsAt (s.log r) st :=
  ⟨by rw [State.log_frame], fun m _ => State.stand_log s r m, by rw [State.stand_log]; rfl⟩
theorem State.windowsAt_modUnit (s : State) (st : Nat) (f : CreditUnit → CreditUnit) :
    s.windowsAt (s.modStand st fun x => x.modUnit f) st :=
  ⟨rfl, fun _ hm => State.stand_modStand_ne s _ hm, by rw [State.stand_modStand]; rfl⟩
theorem State.windowsAt_of_creditsAt {s t : State} {st : Nat} (h : s.creditsAt t st) : s.windowsAt t st :=
  ⟨by rw [h.frame], fun m hm => h.stand m (.inl hm), by unfold Stand.settled; rw [h.own]⟩
theorem State.windowsAt_settle (s : State) {st : Nat} (h : st < 5000) : s.windowsAt (s.settle st) st := by
  obtain ⟨hframe, hothers, hown⟩ := s.settle_stand st h
  exact ⟨by rw [hframe], hothers, by rw [hown]; exact Stand.settled_settle _⟩
theorem State.windowsAt_foldl {α : Type} {st : Nat} {f : State → α → State} (h : ∀ (s : State) a, s.windowsAt (f s a) st) (l : List α) :
    ∀ s : State, s.windowsAt (l.foldl f s) st := by
  induction l with
  | nil => exact fun s => s.windowsAt_refl st
  | cons a l ih => exact fun s => (h s a).trans (ih _)
/-- An issue whose effect is work on windows and banks. -/
theorem State.windowsAt.of_issued {s t : State} {st : Nat} (h : (s.issued st).windowsAt t st) :
    (t.stand st).pc = (s.stand st).pc + 1 ∧ (t.stand st).regs = (s.stand st).regs ∧ t.mem = s.mem ∧
      ∀ m, m ≠ st → t.stand m = s.stand m := by
  have hown := h.own
  rw [Stand.settled, State.stand_issued] at hown
  exact ⟨by rw [hown], by rw [hown], h.mem, fun m hm => by rw [h.others m hm, State.stand_issued_ne s hm]⟩

/-- The controller counts an issue that does nothing else. -/
theorem State.onlyStand_issued_self (s : State) (st : Nat) : s.onlyStand (s.issued st) st ∧ (s.issued st).stand st = (s.stand st).stepped :=
  ⟨⟨rfl, fun _ hm => State.stand_issued_ne s hm⟩, State.stand_issued s st⟩

/-- A queue that is served, then a settlement: of the credit unit of stand st, only what is granted and what finishes. -/
theorem State.windowsAt_serveQueue_settle (s : State) {st : Nat} (h : st < 5000) : s.windowsAt ((s.serveQueue st).settle st) st :=
  (State.windowsAt_of_creditsAt (s.creditsAt_serveQueue st)).trans (State.windowsAt_settle _ h)
/-- The credit unit of stand st after its queue was served. -/
theorem State.servedTo_stand (s : State) {st : Nat} (h : st < 5000) :
    (s.stand st).credit.servedTo ((s.serveQueue st).stand st).credit := by
  rw [← State.credit_of_stand _ h, ← State.credit_of_stand _ h]
  exact s.servedTo_serveQueue st
theorem State.stand_serveQueue (s : State) (st : Nat) :
    (s.serveQueue st).stand st = { s.stand st with credit := ((s.serveQueue st).stand st).credit } := (s.creditsAt_serveQueue st).own
theorem State.stand_settle (s : State) {st : Nat} (h : st < 5000) : (s.settle st).stand st = (s.stand st).settle :=
  (s.settle_stand st h).2.2

/-! ## WOPEN (R106) -/

/-- The window that WOPEN opens in a slot. -/
def Window.opens (bank first count : Nat) (w : Window) : Window :=
  { w with st := .opened, bank := bank, first := first, count := count, rows := [], flags := 0, fill := [], deadline := 0 }
theorem effWopen_free {s : State} {st slot bank first count : Nat} (hon : ((s.stand st).bank bank).power = .on)
    (hclosed : ((s.stand st).credit.win slot).st = .closed) (hfree : (s.stand st).credit.overlaps bank first count = false) :
    effWopen st slot bank first count s =
      s.modStand st fun x => x.modUnit fun u => u.modWin slot (Window.opens bank first count) := by
  simp only [effWopen, hon, hclosed, hfree]
  rfl
theorem effWopen_refused {s : State} {st slot bank first count : Nat} (hwake : ((s.stand st).bank bank).power ≠ .waking)
    (h : ((s.stand st).bank bank).power ≠ .on ∨
      ¬ (((s.stand st).credit.win slot).st = .closed ∧ (s.stand st).credit.overlaps bank first count = false)) :
    ∃ r, effWopen st slot bank first count s = s.log r := by
  refine ⟨_, if_pos ?_⟩
  rw [not_and_or, Bool.not_eq_false] at h
  rcases h with h | h | h
  · cases hp : ((s.stand st).bank bank).power with
    | on => exact absurd hp h
    | waking => exact absurd hp hwake
    | off => exact .inr (.inr (.inl rfl))
    | closing => exact .inr (.inr (.inr rfl))
  · exact .inl h
  · exact .inr (.inl h)
theorem exec_wopen {st : StandId} {k : WSlot} {b : SBank} {first : RowNo} {count : Fin 64} (h : wopenFields first count = true)
    (s : State) : exec (.wopen st k b first count) s =
      .next (s.issue st (.wopen st k b first count) (!s.waking st b) (effWopen st k b first count)) := if_pos h

/-! ## WCLOSE (R115, R484) -/

theorem State.closeWindow_not_opened {s : State} {n k : Nat} (hn : n < 5000) (h : ((s.stand n).credit.win k).st ≠ .opened) :
    s.closeWindow n k = s := by
  rw [← State.credit_of_stand s hn] at h
  exact if_neg h
/-- The state in which a window has begun to close. -/
def State.closingWindow (s : State) (n k : Nat) : State :=
  s.modStand n fun x => x.modUnit fun u => u.modWin k fun w => { w with st := .closing, deadline := s.gateDeadline }
theorem State.closeWindow_opened {s : State} {n k : Nat} (hn : n < 5000) (h : ((s.stand n).credit.win k).st = .opened) :
    s.closeWindow n k = ((s.closingWindow n k).serveQueue n).settle n := by
  rw [← State.credit_of_stand s hn] at h
  rw [State.closeWindow, if_pos h, State.modCredit_of_stand _ hn]
  rfl
theorem State.windowsAt_closeWindow (s : State) {n : Nat} (k : Nat) (hn : n < 5000) : s.windowsAt (s.closeWindow n k) n := by
  by_cases h : ((s.stand n).credit.win k).st = .opened
  · rw [State.closeWindow_opened hn h]
    exact (s.windowsAt_modUnit n _).trans (State.windowsAt_serveQueue_settle _ hn)
  · rw [State.closeWindow_not_opened hn h]
    exact s.windowsAt_refl n
/-- An OPEN window of a bank that is ON closes at once when its pool is full, and otherwise waits for its deadline. -/
theorem State.win_closeWindow {s : State} {n k : Nat} (hn : n < 5000) (hk : k < 16)
    (h : ((s.stand n).credit.win k).st = .opened)
    (hon : ((s.stand n).bank ((s.stand n).credit.win k).bank).power = .on) : ((s.closeWindow n k).stand n).credit.win k =
      if ((s.stand n).credit.win k).full then ((s.stand n).credit.win k).shut
      else { (s.stand n).credit.win k with st := .closing, deadline := s.gateDeadline } := by
  rw [State.closeWindow_opened hn h, State.stand_settle _ hn]
  have hclosing : ((s.closingWindow n k).stand n).credit.win k =
      { (s.stand n).credit.win k with st := .closing, deadline := s.gateDeadline } := by
    rw [State.closingWindow, State.stand_modStand, Stand.credit_modUnit, CreditUnit.win_modWin]
  have hserved : (((s.closingWindow n k).serveQueue n).stand n).credit.win k =
      { (s.stand n).credit.win k with st := .closing, deadline := s.gateDeadline } := by
    rw [((s.closingWindow n k).servedTo_stand hn).kept k (fun he => by rw [hclosing] at he; cases he), hclosing]
  have hbank : ∀ b, (((s.closingWindow n k).serveQueue n).stand n).bank b = (s.stand n).bank b := fun b => by
    rw [State.stand_serveQueue, State.closingWindow, State.stand_modStand]
    rfl
  rw [Stand.win_settle_alone hk (fun he => by rw [hserved] at he; cases he) (by rw [hserved, hbank, hon]; decide), hserved]
  simp only [true_and]
  rfl

/-! ## WREL (R112, R160) -/

/-- Rows of a mask that a release frees: those that are FILLED. -/
def Window.releasable (w : Window) (rows : BitVec 32) : List Nat :=
  ((List.range 32).filter fun r => rows.getLsbD r).filter fun r => (w.row r).isFilled
theorem Window.mem_releasable {w : Window} {rows : BitVec 32} {r : Nat} :
    r ∈ w.releasable rows ↔ r < 32 ∧ rows.getLsbD r = true ∧ (w.row r).isFilled = true := by
  simp only [Window.releasable, List.mem_filter, List.mem_range, and_assoc]
/-- A window after those rows became FREE. -/
def Window.frees (l : List Nat) (w : Window) : Window := l.foldl (fun w r => w.putRow r .free) w

/-- Every row that a release names without being FILLED leaves a record. -/
def State.releaseNoted (s : State) (st slot : Nat) (rows : BitVec 32) : State :=
  (((List.range 32).filter fun r => rows.getLsbD r).filter fun r => !(((s.stand st).credit.win slot).row r).isFilled).foldl
    (fun s _ => s.programErr st 0x22 160 (s.idx st)) s
/-- The stand in which the rows are FREE. -/
def State.releasing (s : State) (st slot : Nat) (rows : BitVec 32) : State :=
  (s.releaseNoted st slot rows).modStand st fun x => x.modUnit fun u =>
    u.modWin slot (Window.frees (((s.stand st).credit.win slot).releasable rows))
theorem effWrel_eq (s : State) (st slot : Nat) (rows : BitVec 32) :
    effWrel st slot rows s = ((s.releasing st slot rows).serveQueue st).settle st := rfl
theorem State.stand_foldl_programErr {α : Type} (st op rule n : Nat) (l : List α) : ∀ s : State,
    (l.foldl (fun s _ => s.programErr st op rule (s.idx st)) s).stand n = s.stand n := by
  induction l with
  | nil => exact fun _ => rfl
  | cons a l ih => exact fun s => (ih _).trans (State.stand_log ..)
theorem State.stand_releasing (s : State) (st slot : Nat) (rows : BitVec 32) : (s.releasing st slot rows).stand st = (s.stand st).modUnit fun u =>
    u.modWin slot (Window.frees (((s.stand st).credit.win slot).releasable rows)) := by
  rw [State.releasing, State.stand_modStand, State.releaseNoted, State.stand_foldl_programErr]
theorem windowsAt_effWrel (s : State) {st : Nat} (slot : Nat) (rows : BitVec 32) (h : st < 5000) :
    s.windowsAt (effWrel st slot rows s) st := by
  rw [effWrel_eq]
  have hnoted : s.windowsAt (s.releaseNoted st slot rows) st := State.windowsAt_foldl (fun t _ => t.windowsAt_log st _) _ s
  exact (hnoted.trans (State.windowsAt_modUnit _ st _)).trans (State.windowsAt_serveQueue_settle _ h)
/-- With no request in the queue, a release does to an OPEN window of a bank that is ON nothing but free its rows. -/
theorem win_effWrel {s : State} {st slot : Nat} (rows : BitVec 32) (hst : st < 5000) (hk : slot < 16)
    (h : ((s.stand st).credit.win slot).st = .opened)
    (hon : ((s.stand st).bank ((s.stand st).credit.win slot).bank).power = .on) (hq : (s.stand st).credit.queue = []) :
    ((effWrel st slot rows s).stand st).credit.win slot =
      ((s.stand st).credit.win slot).frees (((s.stand st).credit.win slot).releasable rows) := by
  have hframe := Window.putRows_frame .free (((s.stand st).credit.win slot).releasable rows) ((s.stand st).credit.win slot)
  have hstand := s.stand_releasing st slot rows
  have hwin : ((s.releasing st slot rows).stand st).credit.win slot =
      ((s.stand st).credit.win slot).frees (((s.stand st).credit.win slot).releasable rows) := by
    rw [hstand, Stand.credit_modUnit, CreditUnit.win_modWin]
  have hopen : (((s.releasing st slot rows).stand st).credit.win slot).st = .opened := by
    rw [hwin, Window.frees, hframe, h]
  have hbank : (((s.releasing st slot rows).stand st).bank (((s.releasing st slot rows).stand st).credit.win slot).bank).power = .on := by
    rw [hwin, Window.frees, hframe, hstand]
    exact hon
  rw [effWrel_eq, State.serveQueue_nil _ _ (by rw [State.credit_of_stand _ hst, hstand]; exact hq), State.stand_settle _ hst,
    Stand.win_settle_alone hk (by rw [hopen]; decide) (by rw [hbank]; decide), hopen, if_neg (fun hc => nomatch hc.1), hwin]

/-- Settles O23, by what each command does to the window it names and to the rest of its stand. That WOPEN clears the flags is log 74, that
an orderly close keeps the generation log 72. -/
theorem windowCommands : Obligations.WindowCommands := by
  unfold Obligations.WindowCommands
  intro s st hi x rest
  obtain ⟨hissue, hfree⟩ := id hi
  have hst := st.isLt
  have hx : (s.issued st).stand st = x.stepped := s.stand_issued st
  refine ⟨fun k b first count hf => ⟨fun hwaking => ?held, fun hon hopen => ?opens, fun hwake hno => ?refused⟩,
    fun k => ⟨_, congrArg Host.Outcome.next (State.issue_ready s st _ _ hissue hfree), ?closes⟩,
    fun k rows => ⟨_, congrArg Host.Outcome.next (State.issue_ready s st _ _ hissue hfree), ?releases⟩⟩
  case held =>
    have hw : s.waking st b = true := decide_eq_true hwaking
    exact ⟨_, by rw [exec_wopen hf, hw, Bool.not_true, State.issue_held _ _ hi], State.stand_modStand ..⟩
  case opens =>
    obtain ⟨hclosed, hoverlap⟩ := hopen
    have hw : s.waking st b = false := decide_eq_false (by rw [hon]; decide)
    have heff := effWopen_free (s := s.issued st) (slot := k) (by rw [hx]; exact hon) (by rw [hx]; exact hclosed) (by rw [hx]; exact hoverlap)
    refine ⟨_, by rw [exec_wopen hf, hw, Bool.not_false, State.issue_ready s st _ _ hissue hfree, heff],
      (State.windowsAt_modUnit _ st _).of_issued, s.onlyStand_issued st _, ?_, fun j hj => ?_, ?_⟩
    · rw [State.stand_modStand, hx, Stand.credit_modUnit, CreditUnit.win_modWin]
      rfl
    · rw [State.stand_modStand, hx, Stand.credit_modUnit, CreditUnit.win_modWin_ne _ _ hj]
      rfl
    · rw [State.stand_modStand, hx]
      rfl
  case refused =>
    have hw : s.waking st b = false := decide_eq_false hwake
    obtain ⟨r, heff⟩ := effWopen_refused (s := s.issued st) (st := st) (slot := k) (bank := b) (first := first) (count := count)
      (by rw [hx]; exact hwake) (by rw [hx]; exact hno)
    exact ⟨_, by rw [exec_wopen hf, hw, Bool.not_false, State.issue_ready s st _ _ hissue hfree, heff],
      by rw [State.stand_log, hx], (State.windowsAt_log _ st r).of_issued⟩
  case closes =>
    refine ⟨((s.issued st).windowsAt_closeWindow k hst).of_issued, fun hno => ?_, fun hopen hon => ?_⟩
    · rw [State.closeWindow_not_opened hst (by rw [hx]; exact hno)]
      exact ⟨hx, rfl⟩
    · have hwin := State.win_closeWindow (s := s.issued st) hst k.isLt (by rw [hx]; exact hopen) (by rw [hx]; exact hon)
      rw [hx] at hwin
      exact hwin
  case releases =>
    refine ⟨(windowsAt_effWrel _ k rows hst).of_issued, fun hopen hon hq => ?_⟩
    have hwin := win_effWrel (s := s.issued st) rows hst k.isLt (by rw [hx]; exact hopen) (by rw [hx]; exact hon) (by rw [hx]; exact hq)
    rw [hx] at hwin
    change _ = (x.credit.win k).frees ((x.credit.win k).releasable rows) at hwin
    have hframe := Window.putRows_frame .free ((x.credit.win k).releasable rows) (x.credit.win k)
    rw [hwin, Window.frees]
    refine ⟨by rw [hframe]; exact hopen, by rw [hframe], fun r => ?_⟩
    rw [Window.row_putRows]
    simp only [Window.mem_releasable]

end Sys2Proof.Machine
end

section
/-! BPDN, BWAKE, the end of waking and the gate wait (04 R114, R115, R118; 06 R160). -/

namespace Sys2Proof.Machine

/-! ## BPDN (R115, R484) -/

/-- Bank b of a stand with its windows begins to close (R115). -/
def Stand.gates (d b : Nat) (x : Stand) : Stand :=
  (x.modBank b fun k => { k with power := .closing, deadline := d }).modUnit fun u =>
    (u.inBank b).foldl (fun u k => u.modWin k (Window.closes d)) u
theorem Stand.win_gates (d b : Nat) (x : Stand) (k : Nat) :
    (x.gates d b).credit.win k = if k ∈ x.credit.inBank b then (x.credit.win k).closes d else x.credit.win k :=
  CreditUnit.win_foldl_closes d (x.credit.inBank b) x.credit k
theorem Stand.bank_gates (d b : Nat) (x : Stand) : ((x.gates d b).bank b).power = .closing ∧ ((x.gates d b).bank b).deadline = d := by
  rw [Stand.gates, Stand.bank_modUnit, Stand.bank_modBank]
  exact ⟨rfl, rfl⟩
/-- A window of the bank that closes holds the rows it held, whatever the queue of other windows was granted. -/
theorem Stand.full_gates {d b : Nat} {x : Stand} {c : CreditUnit} (h : (x.gates d b).credit.servedTo c) {k : Nat}
    (hk : k ∈ x.credit.inBank b) : (c.win k).full = (x.credit.win k).full := by
  have hwin := x.win_gates d b k
  rw [if_pos hk] at hwin
  rw [h.kept k (by rw [hwin]; exact Window.st_closes_ne d _), hwin, Window.closes_frame]
  rfl
theorem Stand.mem_inBank_gates {d b : Nat} {x : Stand} {c : CreditUnit} (h : (x.gates d b).credit.servedTo c) {k : Nat} :
    k ∈ c.inBank b ↔ k ∈ x.credit.inBank b := by
  have hst : (c.win k).st = .closed ↔ (x.credit.win k).st = .closed := by
    rw [h.frame k, Stand.win_gates]
    split
    case isTrue => exact Window.st_closes_closed_iff d _
    case isFalse => rfl
  have hbank : (c.win k).bank = (x.credit.win k).bank := by
    rw [h.frame k, Stand.win_gates]
    split
    case isTrue => rw [Window.closes_frame]
    case isFalse => rfl
  rw [CreditUnit.mem_inBank, CreditUnit.mem_inBank, hbank, Ne, hst]
/-- The bank is done as soon as none of its windows holds a credit. -/
theorem Stand.bankDone_gates {d b : Nat} {x : Stand} {c : CreditUnit} (h : (x.gates d b).credit.servedTo c) :
    ({ x.gates d b with credit := c } : Stand).bankDone b ↔ ((x.credit.inBank b).all fun k => (x.credit.win k).full) = true := by
  have hpower : (({ x.gates d b with credit := c } : Stand).bank b).power = .closing := (x.bank_gates d b).1
  rw [Stand.bankDone_iff, hpower, List.all_eq_true]
  refine (and_iff_right rfl).trans (forall_congr' fun k => ?_)
  rw [Stand.mem_inBank_gates h]
  exact forall_congr' fun hk => by rw [Stand.full_gates h hk]

/-- The state in which bank b of stand st closes and the queue is answered. -/
def State.gated (s : State) (st b : Nat) : State := (s.modStand st (Stand.gates s.gateDeadline b)).serveQueue st
theorem effBpdn_on {s : State} {st b : Nat} (h : ((s.stand st).bank b).power = .on) : effBpdn st b s = (s.gated st b).settle st := if_pos h
theorem effBpdn_not_on {s : State} {st b : Nat} (h : ((s.stand st).bank b).power ≠ .on) : effBpdn st b s = s := if_neg h
theorem State.stand_gated (s : State) (st b : Nat) : (s.gated st b).stand st =
    { (s.stand st).gates s.gateDeadline b with credit := ((s.gated st b).stand st).credit } := by
  have hserve := (s.modStand st (Stand.gates s.gateDeadline b)).stand_serveQueue st
  rw [State.stand_modStand] at hserve
  exact hserve
theorem State.bankDone_gated (s : State) {st : Nat} (b : Nat) (h : st < 5000) : ((s.gated st b).stand st).bankDone b ↔
    (((s.stand st).credit.inBank b).all fun k => ((s.stand st).credit.win k).full) = true := by
  have hserved := (s.modStand st (Stand.gates s.gateDeadline b)).servedTo_stand h
  rw [State.stand_modStand] at hserved
  rw [State.stand_gated]
  exact Stand.bankDone_gates hserved
theorem windowsAt_effBpdn (s : State) {st : Nat} (b : Nat) (hst : st < 5000) : s.windowsAt (effBpdn st b s) st := by
  by_cases h : ((s.stand st).bank b).power = .on
  · rw [effBpdn_on h]
    have hgates : s.windowsAt (s.modStand st (Stand.gates s.gateDeadline b)) st :=
      ⟨rfl, fun _ hm => State.stand_modStand_ne s _ hm, by rw [State.stand_modStand]; rfl⟩
    exact hgates.trans (State.windowsAt_serveQueue_settle _ hst)
  · rw [effBpdn_not_on h]
    exact s.windowsAt_refl st

section
variable {s : State} {st b : Nat} (hst : st < 5000) (hon : ((s.stand st).bank b).power = .on)
include hst hon

/-- A bank without a credit is OFF at once, its words gone. -/
theorem bank_effBpdn_full (hb : b < 32)
    (h : (((s.stand st).credit.inBank b).all fun k => ((s.stand st).credit.win k).full) = true) :
    (((effBpdn st b s).stand st).bank b).power = .off ∧
      ∀ a, a < 65536 → a / 2048 = b → ((effBpdn st b s).stand st).word a = 0 := by
  rw [effBpdn_on hon, State.stand_settle _ hst]
  exact Stand.settle_bank_done hb ((s.bankDone_gated b hst).mpr h)
/-- A bank with a credit waits for its deadline. -/
theorem bank_effBpdn_waits (h : ¬ (((s.stand st).credit.inBank b).all fun k => ((s.stand st).credit.win k).full) = true) :
    (((effBpdn st b s).stand st).bank b).power = .closing ∧ (((effBpdn st b s).stand st).bank b).deadline = s.gateDeadline := by
  rw [effBpdn_on hon, State.stand_settle _ hst,
    (Stand.settle_bank_not_done fun hd => h ((s.bankDone_gated b hst).mp hd)).1, State.stand_gated]
  exact (s.stand st).bank_gates s.gateDeadline b

end

/-! ## BWAKE and the end of waking (R118) -/

/-- A bank that is OFF begins to wake: its words are 0 (R118). -/
def Stand.wakes (b : Nat) (x : Stand) : Stand := (x.clearBank b).modBank b fun k => { k with power := .waking }
theorem effBwake_off {s : State} {st b : Nat} (h : ((s.stand st).bank b).power = .off) :
    effBwake st b s = s.modStand st (Stand.wakes b) := if_pos h
theorem effBwake_not_off {s : State} {st b : Nat} (h : ((s.stand st).bank b).power ≠ .off) : effBwake st b s = s := if_neg h

/-! ## Forced closes (R115) -/

theorem State.stand_forcedRecord (s : State) (n b : Nat) (ks rows : List Nat) (m : Nat) : (s.forcedRecord n b ks rows).stand m = s.stand m :=
  State.stand_log ..
theorem State.counter_forcedRecord (s : State) (n b : Nat) (ks rows : List Nat) :
    (s.forcedRecord n b ks rows).counter 0x523006 = (s.counter 0x523006 + 1) % 2 ^ 64 := by
  rw [State.forcedRecord, State.counter_log_ne _ _ (by decide), State.counter_count]

/-- Bank b of a stand with its windows is forced OFF (R115). -/
def Stand.forcesBank (b : Nat) (x : Stand) : Stand :=
  ((x.modUnit fun u => (u.inBank b).foldl (fun u k => u.voidWin k) u).clearBank b).modBank b fun k =>
    { k with power := .off, deadline := 0 }
theorem Stand.win_forcesBank (b : Nat) (x : Stand) (k : Nat) : (x.forcesBank b).credit.win k =
    if k ∈ x.credit.inBank b then (x.credit.win k).voided else x.credit.win k := CreditUnit.win_foldl_voidWin _ x.credit k

section
variable (s : State) (st b : Nat)

theorem State.forceBank_eq : ∃ rows, s.forceBank st b =
    (s.modStand st (Stand.forcesBank b)).forcedRecord st b ((s.stand st).credit.inBank b) rows := by
  refine ⟨_, congrArg (fun t => State.forcedRecord t _ _ _ _) ?_⟩
  simp only [State.modStand, Stand.forcesBank]
  rfl
theorem State.stand_forceBank : (s.forceBank st b).stand st = (s.stand st).forcesBank b := by
  obtain ⟨rows, he⟩ := s.forceBank_eq st b
  rw [he, State.stand_forcedRecord, State.stand_modStand]
theorem State.stand_forceBank_ne {m : Nat} (h : m ≠ st) : (s.forceBank st b).stand m = s.stand m := by
  obtain ⟨rows, he⟩ := s.forceBank_eq st b
  rw [he, State.stand_forcedRecord, State.stand_modStand_ne _ _ h]
theorem State.counter_forceBank : (s.forceBank st b).counter 0x523006 = (s.counter 0x523006 + 1) % 2 ^ 64 := by
  obtain ⟨rows, he⟩ := s.forceBank_eq st b
  rw [he, State.counter_forcedRecord, State.counter_modStand]

end

/-- A stand in which window k is forced CLOSED. -/
def Stand.forcesWindow (k : Nat) (x : Stand) : Stand := x.modUnit fun u => u.voidWin k
theorem Stand.win_forcesWindow (k : Nat) (x : Stand) (j : Nat) : (x.forcesWindow k).credit.win j =
    if j = k then (x.credit.win j).voided else x.credit.win j := CreditUnit.win_voidWin x.credit k j
/-- With the last credit of a CLOSING bank gone, the bank is done. -/
theorem Stand.bankDone_forcesWindow {x : Stand} {b k : Nat} (hb : (x.bank b).power = .closing)
    (hfull : ∀ j, j ∈ x.credit.inBank b → j ≠ k → (x.credit.win j).full = true) : (x.forcesWindow k).bankDone b := by
  refine Stand.bankDone_iff.mpr ⟨hb, fun j hj => ?_⟩
  by_cases hjk : j = k
  · rw [hjk, Stand.win_forcesWindow, if_pos rfl]
    rfl
  · rw [CreditUnit.mem_inBank, Stand.win_forcesWindow, if_neg hjk] at hj
    rw [Stand.win_forcesWindow, if_neg hjk]
    exact hfull j (CreditUnit.mem_inBank.mpr hj) hjk
theorem State.forceWindow_eq (s : State) {n : Nat} (k : Nat) (h : n < 5000) : ∃ bank rows, s.forceWindow n k =
    ((s.modStand n (Stand.forcesWindow k)).forcedRecord n bank [k] rows).settle n := by
  unfold State.forceWindow
  rw [State.modCredit_of_stand _ h]
  exact ⟨_, _, rfl⟩
theorem State.stand_forceWindow (s : State) {n : Nat} (k : Nat) (h : n < 5000) :
    (s.forceWindow n k).stand n = ((s.stand n).forcesWindow k).settle := by
  obtain ⟨bank, rows, he⟩ := s.forceWindow_eq k h
  rw [he, State.stand_settle _ h, State.stand_forcedRecord, State.stand_modStand]
theorem State.counter_forceWindow (s : State) {n : Nat} (k : Nat) (h : n < 5000) :
    (s.forceWindow n k).counter 0x523006 = (s.counter 0x523006 + 1) % 2 ^ 64 := by
  obtain ⟨bank, rows, he⟩ := s.forceWindow_eq k h
  rw [he, (State.settle_stand _ n h).1]
  exact State.counter_forcedRecord ..
/-- A window that is forced closed is CLOSED, and its generation rises when it held a credit. -/
theorem State.win_forceWindow (s : State) {n k : Nat} (h : n < 5000) (hk : k < 16) :
    ((s.forceWindow n k).stand n).credit.win k = ((s.stand n).credit.win k).voided := by
  have hwin := (s.stand n).win_forcesWindow k k
  rw [if_pos rfl] at hwin
  rw [State.stand_forceWindow _ _ h, Stand.win_settle_closed hk (by rw [hwin]; rfl), hwin]

/-! ## The deadline of a gate wait (R115) -/

section
variable {s : State} {st : StandId}

theorem exec_gateWait_bank {b : SBank} (h : ((s.stand st).bank b).power = .closing) (hd : ((s.stand st).bank b).deadline ≤ s.time.tick) :
    exec (.gateWaitExpiry st (.bank b)) s = .next (s.forceBank st b) := if_pos ⟨h, hd⟩
theorem exec_gateWait_bank_early {b : SBank} (h : s.time.tick < ((s.stand st).bank b).deadline) :
    exec (.gateWaitExpiry st (.bank b)) s = .next s := if_neg fun hc => absurd hc.2 (Nat.not_le.mpr h)
theorem exec_gateWait_window {k : WSlot} (h : ((s.stand st).credit.win k).st = .closing)
    (hd : ((s.stand st).credit.win k).deadline ≤ s.time.tick)
    (hb : ((s.stand st).bank ((s.stand st).credit.win k).bank).power ≠ .closing ∨
      ((s.stand st).credit.win k).deadline < ((s.stand st).bank ((s.stand st).credit.win k).bank).deadline) :
    exec (.gateWaitExpiry st (.window k)) s = .next (s.forceWindow st k) := if_pos ⟨h, hd, hb⟩

end

/-- Settles O24, by what each command and each deadline does to the bank, its windows and its words. That a generation rises only when a
row was voided is log 72. -/
theorem bankPower : Obligations.BankPower := by
  unfold Obligations.BankPower
  intro s st b x inB
  have hst := st.isLt
  have hx : (s.issued st).stand st = x.stepped := s.stand_issued st
  have hrun : ∀ i eff, s.issues st → s.issue st i true eff = eff (s.issued st) := fun i eff hi => State.issue_ready s st i eff hi.1 hi.2
  have hbpdn : exec (.bpdn st b) s = .next (s.issue st (.bpdn st b) (!s.waking st b) (effBpdn st b)) := rfl
  have hbwake : exec (.bwake st b) s = .next (s.issue st (.bwake st b) true (effBwake st b)) := rfl
  refine ⟨fun hi hon => ?down, fun hi hoff => ?stays, fun hi hwaking => ?held, fun hi hoff => ?wakes, fun hi hoff => ?awake, ?woken,
    fun hc hd => ?forcedBank, fun k hc hd hb => ?forcedAlone, fun k hc hd hkb hb hlt hfull => ?forcedLast, exec_gateWait_bank_early⟩
  case down =>
    have hw : s.waking st b = false := decide_eq_false (by rw [hon]; decide)
    obtain ⟨hpc, hregs, hmem, hothers⟩ := (windowsAt_effBpdn (s.issued st) b hst).of_issued
    refine ⟨_, by rw [hbpdn, hw, Bool.not_false, hrun _ _ hi], ?_⟩
    by_cases hfull : ((x.credit.inBank b).all fun k => (x.credit.win k).full) = true
    · obtain ⟨hpower, hwords⟩ := bank_effBpdn_full (s := s.issued st) hst (by rw [hx]; exact hon) b.isLt (by rw [hx]; exact hfull)
      exact ⟨by rw [hpower, if_pos hfull], fun hc => absurd (hpower.symm.trans hc) (by decide), fun _ a ha => hwords a ha.1 ha.2, hregs, hpc,
        hothers, hmem⟩
    · obtain ⟨hpower, hdeadline⟩ := bank_effBpdn_waits (s := s.issued st) hst (by rw [hx]; exact hon) (by rw [hx]; exact hfull)
      exact ⟨by rw [hpower, if_neg hfull], fun _ => hdeadline, fun hc => absurd (hpower.symm.trans hc) (by decide), hregs, hpc, hothers, hmem⟩
  case stays =>
    have hw : s.waking st b = false := decide_eq_false (by rcases hoff with h | h <;> rw [h] <;> decide)
    have hon : (((s.issued st).stand st).bank b).power ≠ .on := by
      rw [hx]
      rcases hoff with h | h <;> exact fun he => by cases h.symm.trans he
    exact ⟨_, by rw [hbpdn, hw, Bool.not_false, hrun _ _ hi, effBpdn_not_on hon], hx, (s.onlyStand_issued_self st).1⟩
  case held =>
    have hw : s.waking st b = true := decide_eq_true hwaking
    exact ⟨_, by rw [hbpdn, hw, Bool.not_true, State.issue_held _ _ hi], State.onlyStand_modStand s st _, State.stand_modStand ..⟩
  case wakes =>
    refine ⟨_, by rw [hbwake, hrun _ _ hi, effBwake_off (by rw [hx]; exact hoff)], s.onlyStand_issued st _, ?_⟩
    rw [State.stand_modStand, hx]
    exact ⟨by rw [Stand.wakes, Stand.bank_modBank], fun k hk => Stand.bank_modBank_ne _ _ hk, fun a ha => x.word_clearBank b ha⟩
  case awake =>
    exact ⟨_, by rw [hbwake, hrun _ _ hi, effBwake_not_off (by rw [hx]; exact hoff)], s.onlyStand_issued_self st⟩
  case woken =>
    by_cases hw : (x.bank b).power = .waking
    · refine ⟨_, if_pos (decide_eq_true hw), State.onlyStand_modStand s st _, rfl, ?_⟩
      rw [State.stand_modStand, Stand.bank_modBank, if_pos hw]
      exact ⟨rfl, rfl⟩
    · exact ⟨s, if_neg (by simpa [State.waking] using hw), ⟨rfl, fun _ _ => rfl⟩, rfl, by rw [if_neg hw], rfl⟩
  case forcedBank =>
    refine ⟨_, exec_gateWait_bank hc hd, ?_, fun a ha => ?_, fun k hk => ?_, s.counter_forceBank st b, ?_,
      fun m hm => s.stand_forceBank_ne st b hm⟩
    all_goals rw [s.stand_forceBank st b]
    · rw [Stand.forcesBank, Stand.bank_modBank]
    · exact (Stand.word_clearBank _ b ha.1).trans (if_pos ha.2)
    · rw [Stand.win_forcesBank, if_pos hk]
      rfl
    · rfl
  case forcedAlone =>
    have hnot : ¬ (x.forcesWindow k).bankDone (x.credit.win k).bank := fun hdone => hb hdone.1
    obtain ⟨hbank, hwords⟩ := Stand.settle_bank_not_done hnot
    refine ⟨_, exec_gateWait_window hc hd (.inl hb), ?_, ?_, ?_, fun a ha hab => ?_, s.counter_forceWindow k hst⟩
    · rw [s.win_forceWindow hst k.isLt]
      rfl
    · rw [s.win_forceWindow hst k.isLt]
      rfl
    · rw [s.stand_forceWindow k hst, hbank]
      rfl
    · rw [s.stand_forceWindow k hst, hwords a ha hab]
      rfl
  case forcedLast =>
    obtain ⟨hpower, hwords⟩ := Stand.settle_bank_done b.isLt (Stand.bankDone_forcesWindow hb hfull)
    refine ⟨_, exec_gateWait_window hc hd (.inr (by rw [hkb]; exact hlt)), ?_, ?_, fun a ha => ?_, s.counter_forceWindow k hst⟩
    · rw [s.win_forceWindow hst k.isLt]
      rfl
    · rw [s.stand_forceWindow k hst, hpower]
    · rw [s.stand_forceWindow k hst, hwords a ha.1 ha.2]

end Sys2Proof.Machine
end

section
/-! The answer to a credit request (04 R107, R108, R120; 07 R212; 10 R327). -/

namespace Sys2Proof.Machine

/-! ## A change of a credit unit reaches nothing else -/

theorem State.modCredit_frame (s : State) (n : Nat) (f : CreditUnit → CreditUnit) :
    s.modCredit n f = { s with stands := (s.modCredit n f).stands, grove := (s.modCredit n f).grove } := by
  unfold State.modCredit
  split <;> rfl
@[simp] theorem State.mesh_modCredit (s : State) (n : Nat) (f : CreditUnit → CreditUnit) : (s.modCredit n f).mesh = s.mesh := by
  rw [State.modCredit_frame]
@[simp] theorem State.node_modCredit (s : State) (n m : Nat) (f : CreditUnit → CreditUnit) : (s.modCredit n f).node m = s.node m := by
  rw [State.modCredit_frame]
  rfl
@[simp] theorem State.counter_modCredit (s : State) (n k : Nat) (f : CreditUnit → CreditUnit) : (s.modCredit n f).counter k = s.counter k := by
  rw [State.modCredit_frame]
  rfl

/-! ## The five answers (R108) -/

section
variable {s : State} {n : Nat} {q : CreditReq}

/-- BANK_OFF: the window is not OPEN. -/
theorem State.answerCreq_not_opened (h : ((s.credit n).win q.msg.window).st ≠ .opened) : s.answerCreq n q =
    s.sendGrant n q.src q.sinc q.msg.window 1 ((s.credit n).win q.msg.window).gen 0 q.msg.tag := if_pos h

variable (h : ((s.credit n).win q.msg.window).st = .opened)
include h

/-- MALFORMED. -/
theorem State.answerCreq_malformed (hm : creqMalformed ((s.credit n).win q.msg.window) q.msg = true) : s.answerCreq n q =
    s.sendGrant n q.src q.sinc q.msg.window 3 ((s.credit n).win q.msg.window).gen 0 q.msg.tag := by
  simp only [State.answerCreq, h, hm, ne_eq, not_true_eq_false, if_false, if_true]

variable (hm : creqMalformed ((s.credit n).win q.msg.window) q.msg = false)
include hm

/-- OK: the rows are granted. -/
theorem State.answerCreq_granted {rows : List Nat} (hb : ((s.credit n).queue.any fun e => e.msg.window = q.msg.window) = false)
    (hr : creqRows ((s.credit n).win q.msg.window) q.msg = some rows) : s.answerCreq n q = s.grant n q rows := by
  simp only [State.answerCreq, h, hm, hb, hr, ne_eq, not_true_eq_false, if_false, Bool.false_eq_true]
variable (hw : ((s.credit n).queue.any fun e => e.msg.window = q.msg.window) = true ∨
  creqRows ((s.credit n).win q.msg.window) q.msg = none)
include hw

/-- A request behind another one of its window, or for more rows than the pool holds, gets no rows. -/
theorem State.answerCreq_no_rows : s.answerCreq n q =
    if (s.credit n).queue.length < 16 then s.modCredit n fun u => { u with queue := u.queue ++ [q] }
    else (s.count 0x52300A).sendGrant n q.src q.sinc q.msg.window 2 ((s.credit n).win q.msg.window).gen 0 q.msg.tag := by
  have hnone : (if ((s.credit n).queue.any fun e => e.msg.window = q.msg.window) = true then none
      else creqRows ((s.credit n).win q.msg.window) q.msg) = none := by
    split
    case isTrue => rfl
    case isFalse hb => exact hw.resolve_left hb
  simp only [State.answerCreq, h, hm, hnone, ne_eq, not_true_eq_false, if_false, Bool.false_eq_true]
/-- It waits at the end of the queue. -/
theorem State.answerCreq_queued (hq : (s.credit n).queue.length < 16) :
    s.answerCreq n q = s.modCredit n fun u => { u with queue := u.queue ++ [q] } :=
  (State.answerCreq_no_rows h hm hw).trans (if_pos hq)
/-- CREDIT_BUSY: the queue is full. -/
theorem State.answerCreq_busy (hq : 16 ≤ (s.credit n).queue.length) : s.answerCreq n q =
    (s.count 0x52300A).sendGrant n q.src q.sinc q.msg.window 2 ((s.credit n).win q.msg.window).gen 0 q.msg.tag :=
  (State.answerCreq_no_rows h hm hw).trans (if_neg (Nat.not_lt.mpr hq))

end

/-! ## What a grant leaves behind (R107) -/

section
variable (s : State) (n : Nat) (q : CreditReq) (rows : List Nat)

theorem State.mesh_grant : (s.grant n q rows).mesh = s.mesh ++ [s.grantMsg n q.src q.sinc
    { window := q.msg.window, status := 0, gen := ((s.credit n).win q.msg.window).gen, mask := BitVec.ofNat 32 (maskOf rows),
      tag := q.msg.tag }] := by
  simp only [State.grant, State.sendGrant, State.send, State.reply, State.count_mesh, State.mesh_modCredit, State.credit_modCredit,
    CreditUnit.win_modWin]
  rw [Window.putRows_frame, State.node, State.count_nodes, ← State.node, State.node_modCredit]
  rfl
theorem State.counter_grant : (s.grant n q rows).counter 0x523005 = (s.counter 0x523005 + rows.length) % 2 ^ 64 := by
  simp only [State.grant, State.sendGrant]
  exact (State.counter_count ..).trans (by rw [State.counter_modCredit])
theorem State.row_grant (r : Nat) : (((s.grant n q rows).credit n).win q.msg.window).row r =
    if r ∈ rows then .granted q.src 0 none else ((s.credit n).win q.msg.window).row r := by
  rw [State.credit_grant, CreditUnit.win_modWin, Window.row_putRows]
theorem State.win_grant_ne {k : Nat} (h : k ≠ q.msg.window) : ((s.grant n q rows).credit n).win k = (s.credit n).win k := by
  rw [State.credit_grant, CreditUnit.win_modWin_ne _ _ h]

end

/-- A CREQ that has its turn leaves the mesh, and is answered. -/
theorem exec_creqReceive {s : State} {node : NodeId} {p : Packet} {m : CreqMsg} (hb : p.body = .creq m) (ho : s.inOrder p = true) :
    exec (.creqReceive node p) s = .next (if s.isAway node then (s.take p).answerAway p
      else (s.take p).answerCreq node { src := p.src, sinc := p.sinc, msg := m }) := by
  change execCreqReceive node p s = _
  simp only [execCreqReceive, ho, hb, Bool.not_true, Bool.false_eq_true, if_false]
  rfl

/-- Settles O25, by the five answers of R108 and the AWAY of R120. -/
theorem creditRequests : Obligations.CreditRequests := by
  unfold Obligations.CreditRequests
  intro s node p m hb
  refine ⟨fun ho => if_pos (by rw [ho]; rfl), fun ho => ?_⟩
  intro u w tells behind
  have hexec := exec_creqReceive (node := node) hb ho
  refine ⟨fun ha => ?away, fun ha hw => ?off, fun ha hw hm => ?malformed, fun ha hw hm hbehind rows hr => ?granted,
    fun ha hw hm hwait => ⟨fun hq => ?queued, fun hq => ?busy⟩⟩
  case away =>
    refine ⟨_, by rw [hexec, ha, if_pos rfl], ?_⟩
    unfold State.answerAway
    rw [hb]
    split <;> exact ⟨rfl, rfl⟩
  all_goals rw [ha, if_neg (by decide)] at hexec
  case off => exact ⟨_, hexec.trans (congrArg _ (State.answerCreq_not_opened hw)), rfl, rfl⟩
  case malformed => exact ⟨_, hexec.trans (congrArg _ (State.answerCreq_malformed hw hm)), rfl, rfl⟩
  case granted =>
    exact ⟨_, hexec.trans (congrArg _ (State.answerCreq_granted hw hm hbehind hr)), (s.take p).mesh_grant ..,
      by rw [State.credit_grant]; rfl, fun r => (s.take p).row_grant _ _ rows r, fun k hk => (s.take p).win_grant_ne _ _ _ hk,
      (s.take p).counter_grant ..⟩
  case queued =>
    refine ⟨_, hexec.trans (congrArg _ (State.answerCreq_queued hw hm hwait hq)), State.mesh_modCredit .., ?_, fun k => ?_⟩
    all_goals
      rw [State.credit_modCredit]
      rfl
  case busy => exact ⟨_, hexec.trans (congrArg _ (State.answerCreq_busy hw hm hwait hq)), rfl, rfl, State.counter_count ..⟩

end Sys2Proof.Machine
end

section
/-! What a stand does with CGRANT, CREDIT_VOID and AWAY (04 R117, R120; 06 R161; 10 R327). -/

namespace Sys2Proof.Machine

/-! ## An answer to an outstanding CREQ (R108, R161) -/

/-- The grant m of node src answers this request, which is not refused. -/
def OutCreq.answeredBy (src : Nat) (m : CgrantMsg) (c : OutCreq) : Bool :=
  decide (c.dest = src ∧ c.msg.window = m.window ∧ c.msg.tag = m.tag ∧ c.refused = none)
/-- The sender credit table after a grant: entries of the granted rows, in place of those of the same rows. -/
def Stand.senderAfter (x : Stand) (src : Nat) (m : CgrantMsg) : List SenderEntry :=
  (x.sender.filter fun e => !(e.dest == src && e.window == m.window && m.mask.getLsbD e.row)) ++
    ((List.range 32).filter fun r => m.mask.getLsbD r).map fun r => { dest := src, window := m.window, row := r, gen := m.gen, writes := 0 }
/-- A stand after the answer to an outstanding request, by the answer's status. -/
def Stand.takesAnswer (src : Nat) (m : CgrantMsg) (tick : Nat) (x : Stand) : Stand :=
  if m.status = 0 then { x with creqs := x.creqs.eraseP (OutCreq.answeredBy src m), sender := x.senderAfter src m }
  else if m.status = 3 then { x with creqs := x.creqs.eraseP (OutCreq.answeredBy src m) }
  else if m.status = 1 ∨ m.status = 2 then
    { x with creqs := updFirst (OutCreq.answeredBy src m) (fun c => { c with refused := some tick }) x.creqs }
  else x
theorem State.creqAnswer_eq {s : State} {st src : Nat} {m : CgrantMsg} (h : (s.stand st).creqs.any (OutCreq.answeredBy src m) = true) :
    s.creqAnswer st src m = s.modStand st (Stand.takesAnswer src m s.time.tick) := if_neg (by rw [Bool.not_eq_true']; exact ne_false_of_eq_true h)

theorem updFirst_cons_pos {α : Type} {p : α → Bool} (f : α → α) {a : α} {l : List α} (h : p a = true) :
    updFirst p f (a :: l) = f a :: l := if_pos h

section
variable {x : Stand} {src : Nat} {m : CgrantMsg} {c : OutCreq} (hx : x.creqs = [c]) (hc : c.answeredBy src m = true) (tick : Nat)
include hx hc

/-- OK: the entries are set, and the request is over. -/
theorem Stand.takesAnswer_ok (h : m.status = 0) : (x.takesAnswer src m tick).creqs = [] ∧
    (x.takesAnswer src m tick).sender = x.senderAfter src m := by
  rw [Stand.takesAnswer, if_pos h]
  exact ⟨by rw [hx]; exact List.eraseP_cons_of_pos hc, rfl⟩
/-- MALFORMED: the request is over. -/
theorem Stand.takesAnswer_malformed (h : m.status = 3) : (x.takesAnswer src m tick).creqs = [] ∧
    (x.takesAnswer src m tick).sender = x.sender := by
  rw [Stand.takesAnswer, if_neg (by omega), if_pos h]
  exact ⟨by rw [hx]; exact List.eraseP_cons_of_pos hc, rfl⟩
/-- BANK_OFF and CREDIT_BUSY: the request is refused now. -/
theorem Stand.takesAnswer_refused (h : m.status = 1 ∨ m.status = 2) :
    (x.takesAnswer src m tick).creqs = [{ c with refused := some tick }] ∧ (x.takesAnswer src m tick).sender = x.sender := by
  rw [Stand.takesAnswer, if_neg (by omega), if_neg (by omega), if_pos h]
  exact ⟨by rw [hx]; exact updFirst_cons_pos _ hc, rfl⟩

end

/-! ## Credits taken away (R117, R120) -/

theorem Stand.mem_sender_voidCredit {x : Stand} {dest window : Nat} {rows : Nat → Bool} {gen : Option Nat} {e : SenderEntry} :
    e ∈ (x.voidCredit dest window rows gen).sender ↔
      e ∈ x.sender ∧ ¬ (e.dest = dest ∧ e.window = window ∧ rows e.row = true ∧ (gen = none ∨ gen = some e.gen)) := by
  rw [Stand.voidCredit, List.mem_filter, Bool.not_eq_true', ← Bool.not_eq_true]
  simp only [Bool.and_eq_true, Bool.or_eq_true, beq_iff_eq, Option.isNone_iff_eq_none, and_assoc]
/-- A request that an AWAY answers is refused (R327). -/
theorem Stand.refuse_creq {x : Stand} {c : OutCreq} {src : Nat} {w : Word × Word} (tick : Nat) (hx : x.creqs = [c]) (hd : c.dest = src)
    (hr : c.refused = none) (hw : BitVec.ofNat 32 (encCreq c.msg) = w.1) :
    (x.refuse src 0 w tick).creqs = [{ c with refused := some tick }] := by
  simp only [Stand.refuse, if_true, hx]
  exact updFirst_cons_pos _ (by simp only [hd, hr, hw, and_self, decide_true])
/-- The credit of a write that an AWAY answers is gone (R120). -/
theorem Stand.refuse_write (x : Stand) (src : Nat) {rt : Nat} (w : Word × Word) (tick : Nat) (h : rt = 2 ∨ rt = 3) :
    x.refuse src rt w tick = x.voidCredit src (decHdr (w.1.toNat + w.2.toNat * 2 ^ 32)).window
      (fun r => r = (decHdr (w.1.toNat + w.2.toNat * 2 ^ 32)).row) none := by
  rw [Stand.refuse, if_neg (by omega), if_pos h]

/-! ## The three packets -/

/-- A stand that learned the incarnation of a partner (R209). -/
def Stand.learns (src inc : Nat) (x : Stand) : Stand := { x with known := Tab.set 0 x.known src inc }
theorem State.learn_of_stand (s : State) {st : Nat} (src inc : Nat) (h : st < 5000) :
    s.learn st src inc = s.modStand st (Stand.learns src inc) := if_pos h

section
variable {s : State} {node : NodeId} {p : Packet} (ho : s.inOrder p = true)
include ho

theorem exec_cgrantReceive_stale {m : CgrantMsg} (hb : p.body = .cgrant m) (h : s.staleGrant node p = true) :
    exec (.cgrantReceive node p) s = .next ((s.take p).count 0x523009) := by
  have hstale : (s.take p).staleGrant node p = true := h
  change execCgrantReceive node p s = _
  simp only [execCgrantReceive, ho, hb, hstale, Bool.not_true, Bool.false_eq_true, if_false, if_true]
theorem exec_creditVoidReceive_stale {m : CgrantMsg} (hb : p.body = .cgrant m) (h : s.staleGrant node p = true) :
    exec (.creditVoidReceive node p) s = .next ((s.take p).count 0x523009) := by
  have hstale : (s.take p).staleGrant node p = true := h
  change execCreditVoidReceive node p s = _
  simp only [execCreditVoidReceive, ho, hb, hstale, Bool.not_true, Bool.false_eq_true, if_false, if_true]
theorem exec_awayReceive_stale {rt : Nat} {w0 w1 : Word} (hb : p.body = .away rt w0 w1)
    (h : (p.dincv && p.dinc != (s.node node).inc) = true) : exec (.awayReceive node p) s = .next ((s.take p).count 0x527009) := by
  have hstale : p.dincv = true ∧ p.dinc ≠ (s.node node).inc := by simpa using h
  change execAwayReceive node p s = _
  simp only [execAwayReceive, ho, hb, Bool.not_true, Bool.false_eq_true, if_false]
  exact if_pos hstale

variable (hn : node.val < 5000)
include hn

theorem exec_cgrantReceive {m : CgrantMsg} (hb : p.body = .cgrant m) (h : s.staleGrant node p = false) :
    exec (.cgrantReceive node p) s =
      .next (((s.take p).modStand node (Stand.learns p.src p.sinc)).creqAnswer node p.src m) := by
  have hstale : (s.take p).staleGrant node p = false := h
  change execCgrantReceive node p s = _
  simp only [execCgrantReceive, ho, hb, hstale, Nat.not_le.mpr hn, State.learn_of_stand _ _ _ hn, Bool.not_true, Bool.false_eq_true, if_false]
theorem exec_creditVoidReceive {m : CgrantMsg} (hb : p.body = .cgrant m) (h : s.staleGrant node p = false) (hm : m.status = 4) :
    exec (.creditVoidReceive node p) s = .next (((s.take p).modStand node (Stand.learns p.src p.sinc)).modStand node fun x =>
      x.voidCredit p.src m.window (fun r => m.mask.getLsbD r) (some m.gen)) := by
  have hstale : (s.take p).staleGrant node p = false := h
  change execCreditVoidReceive node p s = _
  simp only [execCreditVoidReceive, ho, hb, hstale, hm, Nat.not_le.mpr hn, State.learn_of_stand _ _ _ hn, Bool.not_true, Bool.false_eq_true,
    ne_eq, not_true_eq_false, if_false]
theorem exec_awayReceive {rt : Nat} {w0 w1 : Word} (hb : p.body = .away rt w0 w1)
    (h : (p.dincv && p.dinc != (s.node node).inc) = false) :
    exec (.awayReceive node p) s = .next ((s.take p).modStand node fun x => x.refuse p.src rt (w0, w1) s.time.tick) := by
  have hstale : ¬ (p.dincv = true ∧ p.dinc ≠ (s.node node).inc) := by simpa using h
  change execAwayReceive node p s = _
  simp only [execAwayReceive, ho, hb, Bool.not_true, Bool.false_eq_true, if_false, if_neg (Nat.not_le.mpr hn)]
  exact if_neg hstale

end

/-- Settles O26, by what each of the three packets does to the requests and the sender credit table of the stand. How an AWAY is matched
is log 79; the two words of a bitmap multicast are read as a header though they are its bitmap (log 114). -/
theorem creditAnswers : Obligations.CreditAnswers := by
  unfold Obligations.CreditAnswers
  intro s node p hn ho x
  have htake : (s.take p).stand node = x := rfl
  refine ⟨fun m hb hs => ⟨?staleGrant, ?staleVoid⟩, fun m c hb hs hx hd hw ht hr => ?answer, fun m hb hs hm => ?voided,
    fun rt w0 w1 hb hs => ?staleAway, fun rt w0 w1 hb hs => ?away⟩
  case staleGrant => exact ⟨_, exec_cgrantReceive_stale ho hb hs, rfl, State.counter_count ..⟩
  case staleVoid => exact ⟨_, exec_creditVoidReceive_stale ho hb hs, rfl, State.counter_count ..⟩
  case staleAway => exact ⟨_, exec_awayReceive_stale ho hb hs, rfl, State.counter_count ..⟩
  case answer =>
    have hc : c.answeredBy p.src m = true := decide_eq_true ⟨hd, hw, ht, hr⟩
    have hlearn : (((s.take p).modStand node (Stand.learns p.src p.sinc)).stand node) = x.learns p.src p.sinc := State.stand_modStand ..
    have hx' : (x.learns p.src p.sinc).creqs = [c] := hx
    refine ⟨_, (exec_cgrantReceive ho hn hb hs).trans (congrArg _ (State.creqAnswer_eq ?_)), rfl, ?_, ?_⟩
    · rw [hlearn, hx', List.any_cons, hc]
      rfl
    · intro n hne
      rw [State.stand_modStand_ne _ _ hne, State.stand_modStand_ne _ _ hne]
      rfl
    · rw [State.stand_modStand, hlearn]
      exact ⟨Stand.takesAnswer_ok hx' hc _, Stand.takesAnswer_malformed hx' hc _, Stand.takesAnswer_refused hx' hc _⟩
  case voided =>
    refine ⟨_, exec_creditVoidReceive ho hn hb hs hm, rfl, fun n hne => ?_, fun e => ?_, ?_⟩
    · rw [State.stand_modStand_ne _ _ hne, State.stand_modStand_ne _ _ hne]
      rfl
    · rw [State.stand_modStand, State.stand_modStand, Stand.mem_sender_voidCredit]
      simp only [reduceCtorEq, false_or, Option.some.injEq, eq_comm (a := m.gen)]
      rfl
    · rw [State.stand_modStand, State.stand_modStand]
      rfl
  case away =>
    refine ⟨_, exec_awayReceive ho hn hb hs, fun n hne => State.stand_modStand_ne _ _ hne, rfl, fun hrt => ?_,
      fun hrt c hx hd hr hw => ?_⟩
    · rw [State.stand_modStand, Stand.refuse_write _ _ _ _ hrt, htake]
      refine ⟨fun e => ?_, rfl⟩
      rw [Stand.mem_sender_voidCredit]
      simp only [decide_eq_true_eq, true_or, and_true]
    · subst hrt
      rw [State.stand_modStand, htake]
      exact Stand.refuse_creq _ hx hd hr hw

end Sys2Proof.Machine
end

section
/-! A remote write at a stand, and the end of a row's fill (04 R109 to R112, R116; 06 R164). -/

namespace Sys2Proof.Machine

/-! ## Writes that store nothing (R110, R111, R116) -/

@[simp] theorem State.stand_sendGrant (s : State) (n d i w st g m t k : Nat) : (s.sendGrant n d i w st g m t).stand k = s.stand k := rfl
@[simp] theorem State.counter_sendGrant (s : State) (n d i w st g m t k : Nat) : (s.sendGrant n d i w st g m t).counter k = s.counter k := rfl

section
variable (s : State) (n src : Nat) (h : WriteHdr)

/-- A dropped write is counted and recorded. -/
theorem State.dropWrite_frame (rule : Nat) : (s.dropWrite n src h rule).stands = s.stands ∧ (s.dropWrite n src h rule).mesh = s.mesh ∧
    (s.dropWrite n src h rule).counter 0x523007 = (s.counter 0x523007 + 1) % 2 ^ 64 := by
  unfold State.dropWrite
  refine ⟨by rw [State.stands_log]; rfl, by rw [State.log_frame]; rfl, ?_⟩
  rw [State.counter_log_ne _ _ (by decide), State.counter_count]
/-- A late write leaves the words and the windows of its stand, and is counted. -/
theorem State.lateWrite_frame (sinc : Nat) (hn : n < 5000) : let t := s.lateWrite n src sinc h
    (t.stand n).spad = (s.stand n).spad ∧ (t.stand n).credit.windows = (s.stand n).credit.windows ∧
      t.counter 0x523007 = (s.counter 0x523007 + 1) % 2 ^ 64 := by
  obtain ⟨hstands, -, hcount⟩ := s.dropWrite_frame n src h 116
  have hstand : (s.dropWrite n src h 116).stand n = s.stand n := by rw [State.stand, hstands]; rfl
  unfold State.lateWrite
  dsimp only
  split
  case isTrue =>
    rw [State.modCredit_of_stand _ hn]
    simp only [State.stand_sendGrant, State.stand_count, State.stand_modStand, hstand, State.counter_sendGrant]
    exact ⟨rfl, rfl, (State.counter_count_ne _ _ (by decide)).trans hcount⟩
  case isFalse => exact ⟨by rw [hstand], by rw [hstand], hcount⟩

end

/-! ## A write of the window's generation (R109, R111) -/

section
variable {s : State} {n src sinc : Nat} {h : WriteHdr} {ws : List Word} (hg : h.gen = ((s.credit n).win h.window).gen)
include hg

/-- A write that fails a condition is dropped. -/
theorem State.remoteWrite_dropped (hbad : ((s.credit n).win h.window).st = .closed ∨ 64 < h.offset + h.length ∨ h.reserved ≠ 0 ∨
    ∀ k m, ((s.credit n).win h.window).row h.row ≠ .granted src k m) :
    ∃ rule, s.remoteWrite n src sinc false h ws = s.dropWrite n src h rule := by
  unfold State.remoteWrite
  simp only [hg, Bool.false_eq_true, ne_eq, not_true_eq_false, or_self, if_false]
  split
  case isTrue => exact ⟨_, rfl⟩
  case isFalse hgood =>
    have hrow : ∀ k m, ((s.credit n).win h.window).row h.row ≠ .granted src k m := by
      simp only [not_or] at hgood
      exact ((hbad.resolve_left hgood.1).resolve_left hgood.2.1).resolve_left hgood.2.2.1
    split
    case h_1 snd k m he =>
      have hsnd : snd ≠ src := by
        rintro rfl
        exact hrow k m he
      exact ⟨_, if_pos hsnd⟩
    case h_2 => exact ⟨_, rfl⟩
    case h_3 => exact ⟨_, rfl⟩
/-- A write that meets every condition is stored, and counted under its row. -/
theorem State.remoteWrite_stored {k : Nat} {m : Option Nat} (hst : ((s.credit n).win h.window).st ≠ .closed)
    (hin : h.offset + h.length ≤ 64) (hres : h.reserved = 0) (hlen : h.length = ws.length)
    (hrow : ((s.credit n).win h.window).row h.row = .granted src k m) (hc : (RowSt.granted src k m).complete = false) :
    s.remoteWrite n src sinc false h ws = (s.storeRow n h.window h.row h.offset ws).modCredit n fun u => u.modWin h.window fun w =>
      w.putRow h.row (.granted src (k + 1) (if h.final then some h.nwrites else m)) := by
  have hgood : ¬ (((s.credit n).win h.window).st = .closed ∨ 64 < h.offset + h.length ∨ h.reserved ≠ 0 ∨ h.length ≠ ws.length) := by
    rintro (h | h | h | h)
    · exact hst h
    · omega
    · exact h hres
    · exact h hlen
  simp only [State.remoteWrite, hg, hgood, hrow, hc, Bool.false_eq_true, ne_eq, not_true_eq_false, or_self, if_false]

end
theorem State.remoteWrite_late (s : State) {n src sinc : Nat} {h : WriteHdr} {ws : List Word}
    (hg : h.gen ≠ ((s.credit n).win h.window).gen) : s.remoteWrite n src sinc false h ws = s.lateWrite n src sinc h := if_pos (.inr hg)

/-- The words of a write into a row of a window. -/
theorem State.storeRow_of_stand (s : State) {n : Nat} (slot row offset : Nat) (ws : List Word) (hn : n < 5000) :
    s.storeRow n slot row offset ws = s.writeWords n 19 0xFF
      (((s.stand n).credit.win slot).bank * 2048 + (((s.stand n).credit.win slot).first + row) * 64 + offset) ws := by
  rw [State.storeRow, if_pos hn, State.credit_of_stand _ hn]

/-- A remote write from a stand that reaches a stand in service. -/
theorem exec_remoteWriteReceive {s : State} {node : NodeId} {p : Packet} {h : WriteHdr} {ws : List Word} (ho : s.inOrder p = true)
    (ha : s.isAway node = false) (hsrc : p.src < 5000) (hinc : p.dincv = false ∨ p.dinc = (s.node node).inc) (hb : p.body = .write h ws) :
    exec (.remoteWriteReceive node p) s = .next ((s.take p).remoteWrite node p.src p.sinc false h ws) := by
  have haway : (s.take p).isAway node = false := ha
  have hstale : (p.dincv && decide (p.dinc ≠ ((s.take p).node node).inc)) = false := by
    rcases hinc with hv | hi
    · rw [hv, Bool.false_and]
    · rw [decide_eq_false (fun hne => hne hi), Bool.and_false]
  change execRemoteWriteReceive node p s = _
  simp only [execRemoteWriteReceive, ho, haway, hb, hstale, Nat.not_le.mpr hsrc, Bool.not_true, Bool.false_eq_true, false_and, if_false]

/-! ## The DMA engine leaves words and credits (R164) -/

/-- Every other stand stays, and so do the words and the credit unit of stand st. -/
structure State.keepsRows (s t : State) (st : Nat) : Prop where
  others : ∀ m, m ≠ st → t.stand m = s.stand m
  credit : (t.stand st).credit = (s.stand st).credit
  spad : (t.stand st).spad = (s.stand st).spad

theorem State.keepsRows_refl (s : State) (st : Nat) : s.keepsRows s st := ⟨fun _ _ => rfl, rfl, rfl⟩
theorem State.keepsRows.trans {s t u : State} {st : Nat} (h : s.keepsRows t st) (k : t.keepsRows u st) : s.keepsRows u st :=
  ⟨fun m hm => (k.others m hm).trans (h.others m hm), k.credit.trans h.credit, k.spad.trans h.spad⟩
theorem State.keepsRows_modStand (s : State) (st : Nat) {f : Stand → Stand} (hc : (f (s.stand st)).credit = (s.stand st).credit)
    (hs : (f (s.stand st)).spad = (s.stand st).spad) : s.keepsRows (s.modStand st f) st :=
  ⟨fun _ hm => State.stand_modStand_ne s f hm, by rw [State.stand_modStand, hc], by rw [State.stand_modStand, hs]⟩
theorem State.keepsRows_of_readsAt {s t : State} {st : Nat} (h : s.readsAt t st) : s.keepsRows t st :=
  ⟨h.others, by rw [h.own], by rw [h.own]⟩
theorem State.keepsRows_foldl {α : Type} {st : Nat} {f : State → α → State} (h : ∀ (s : State) a, s.keepsRows (f s a) st) (l : List α) :
    ∀ s : State, s.keepsRows (l.foldl f s) st := by
  induction l with
  | nil => exact fun s => s.keepsRows_refl st
  | cons a l ih => exact fun s => (h s a).trans (ih _)
theorem State.keepsRows_sendMem (s : State) (st : Nat) (tierB : Bool) (m : MemReq) : s.keepsRows (s.sendMem st tierB m) st := by
  have hsend : ∀ (t : State) q, t.keepsRows (t.send q) st := fun _ _ => ⟨fun _ _ => rfl, rfl, rfl⟩
  refine State.keepsRows.trans ?_ (hsend _ _)
  exact s.keepsRows_modStand st rfl rfl
theorem State.keepsRows_useEntry (s : State) (st dest window row : Nat) :
    s.keepsRows (s.modStand st fun x => x.useEntry dest window row true) st := s.keepsRows_modStand st rfl rfl
theorem State.keepsRows_runDma (s : State) (st : Nat) (o : DmaOp) : s.keepsRows (s.runDma st o) st := by
  unfold State.runDma
  dsimp only
  split
  case isTrue => exact State.keepsRows_of_readsAt (s.readsAt_log st _)
  case isFalse =>
    split
    case isTrue =>
      have hread : s.keepsRows (s.readWords st 20 0x2C (wa o.src) o.words).2 st := State.keepsRows_of_readsAt (s.readsAt_readWords ..)
      refine State.keepsRows.trans (hread.trans ?_) (State.keepsRows_foldl (fun t m => t.keepsRows_sendMem st o.tierB m) _ _)
      exact State.keepsRows_modStand _ st rfl rfl
    case isFalse =>
      refine State.keepsRows.trans ?_ (State.keepsRows_foldl (fun t e => ?_) _ _)
      · exact s.keepsRows_modStand st rfl rfl
      · refine (t.keepsRows_useEntry st st o.window e.1).trans ?_
        exact State.keepsRows_foldl (fun u m => u.keepsRows_sendMem st o.tierB m) _ _
theorem State.keepsRows_pumpDma (st fuel : Nat) : ∀ s : State, s.keepsRows (State.pumpDma st fuel s) st := by
  induction fuel with
  | zero => exact fun s => s.keepsRows_refl st
  | succ fuel ih =>
    intro s
    unfold State.pumpDma
    split
    case h_1 =>
      refine State.keepsRows.trans (State.keepsRows.trans ?_ (State.keepsRows_runDma _ st _)) (ih _)
      exact s.keepsRows_modStand st rfl rfl
    case h_2 => exact s.keepsRows_refl st
theorem State.keepsRows_nextDma (s : State) (st : Nat) : s.keepsRows (s.nextDma st) st := State.keepsRows_pumpDma st _ s

/-! ## The end of a row's fill (R110) -/

/-- A window in which a complete row became FILLED, with its flag. -/
def Window.fills (r src : Nat) (w : Window) : Window :=
  { w.putRow r (.filled src) with flags := w.flags ||| BitVec.ofNat 32 (2 ^ r) }
theorem Window.row_fills (r src : Nat) (w : Window) : (w.fills r src).row r = .filled src :=
  Window.row_putRow w r (.filled src)
theorem exec_rowFilled {s : State} {node : NodeId} {k : WSlot} {r : RowNo} {src n : Nat} (hn : node.val < 5000)
    (h : ((s.stand node).credit.win k).row r = .granted src n (some n)) : exec (.rowFilled node k r) s =
      .next (((s.modCredit node fun u => u.modWin k (Window.fills r src)).modStand node fun x => x.dmaRow k r).nextDma node) := by
  rw [← State.credit_of_stand s hn] at h
  change execRowFilled node k r s = _
  simp only [execRowFilled, h, if_true, hn]
  rfl

/-- The word at the offset of b from a is b. -/
theorem wa_add_gap (a : Nat) {b : Nat} (h : b < 65536) : wa (a + gap a b) = b := by
  unfold gap wa
  omega

/-- Settles O29, by what a stored, a dropped and a late write do, and by the end of a row's fill. -/
theorem remoteWrites : Obligations.RemoteWrites := by
  unfold Obligations.RemoteWrites
  intro s node p h ws hn hsrc ha ho hinc hb x w a
  have hexec := exec_remoteWriteReceive ho ha hsrc hinc hb
  have hw : ((s.take p).credit node).win h.window = w := by rw [State.credit_of_stand _ hn]; rfl
  refine ⟨fun k m hg hst hin hres hlen hrow hc hclean => ?stored, fun hg hbad => ?dropped, fun hg => ?late, fun k r n hrow => ?filled⟩
  case stored =>
    rw [← hw] at hg hst hrow
    have hstore := State.remoteWrite_stored (sinc := p.sinc) hg hst hin hres hlen hrow hc
    have hwrite : (s.take p).storeRow node h.window h.row h.offset ws = (s.take p).writeWords node 19 0xFF a ws :=
      State.storeRow_of_stand _ _ _ _ _ hn
    obtain ⟨hframe, hothers, hsame, -, hword⟩ := (s.take p).writeWords_on node 19 0xFF a ws (by omega) hclean.1
    rw [hwrite, State.modCredit_of_stand _ hn] at hstore
    generalize (s.take p).writeWords node 19 0xFF a ws = u at hframe hothers hsame hword hstore
    have hunit : (u.stand node).credit = x.credit ∧ (u.stand node).regs = x.regs := by
      unfold Stand.sameBut at hsame
      rw [hsame]
      exact ⟨rfl, rfl⟩
    refine ⟨_, hexec.trans (congrArg _ hstore), fun i hi => ?_, fun b hb hout => ?_, ?_, fun r hr => ?_, ?_, fun m hm => ?_, ?_, ?_⟩
    · rw [State.stand_modStand, Stand.word_modUnit, hword, gap_add a (by omega), if_pos (by omega)]
    · have hgap : ¬ gap a b < ws.length := fun hlt => hout _ (hlen ▸ hlt) (wa_add_gap a hb).symm
      rw [State.stand_modStand, Stand.word_modUnit, hword, if_neg hgap]
      rfl
    · rw [State.stand_modStand, Stand.credit_modUnit, CreditUnit.win_modWin, Window.row_putRow]
    · rw [State.stand_modStand, Stand.credit_modUnit, CreditUnit.win_modWin, Window.row_putRow_ne _ _ hr, hunit.1]
    · rw [State.stand_modStand]
      exact hunit.2
    · rw [State.stand_modStand_ne _ _ hm, hothers m hm]
      rfl
    · rw [State.modStand_mesh, hframe]
      rfl
    · rw [State.counter_modStand, hframe]
      rfl
  case dropped =>
    rw [← hw] at hg hbad
    obtain ⟨rule, hdrop⟩ := State.remoteWrite_dropped (sinc := p.sinc) (ws := ws) hg hbad
    exact ⟨_, hexec.trans (congrArg _ hdrop), (s.take p).dropWrite_frame node p.src h rule⟩
  case late =>
    rw [← hw] at hg
    exact ⟨_, hexec.trans (congrArg _ (State.remoteWrite_late _ hg)), (s.take p).lateWrite_frame node p.src h p.sinc hn⟩
  case filled =>
    have hdma : (s.modCredit node fun u => u.modWin k (Window.fills r p.src)).keepsRows
        ((s.modCredit node fun u => u.modWin k (Window.fills r p.src)).modStand node fun x => x.dmaRow k r) node :=
      State.keepsRows_modStand _ node rfl rfl
    have hkeeps := hdma.trans (State.keepsRows_nextDma _ node)
    have hstand : (s.modCredit node fun u => u.modWin k (Window.fills r p.src)).stand node =
        x.modUnit fun u => u.modWin k (Window.fills r p.src) := by
      rw [State.modCredit_of_stand _ hn, State.stand_modStand]
    refine ⟨_, exec_rowFilled hn hrow, ?_, ?_, ?_, fun j hj => ?_⟩
    · rw [hkeeps.credit, hstand, Stand.credit_modUnit, CreditUnit.win_modWin]
      exact Window.row_fills ..
    · rw [hkeeps.credit, hstand, Stand.credit_modUnit, CreditUnit.win_modWin]
      rfl
    · rw [hkeeps.spad, hstand]
      rfl
    · rw [hkeeps.others j hj, State.modCredit_of_stand _ hn, State.stand_modStand_ne _ _ hj]

end Sys2Proof.Machine
end

section
/-! Stand reset, the beat watchdog, scratchpad errors, row repair and hazards (04 R104, R119; 06 R178, R182 to R184; 12 R365). -/

namespace Sys2Proof.Machine

/-! ## Stand reset (R119, R149) -/

theorem State.node_modNode_ne (s : State) {n m : Nat} (f : NodeInfo → NodeInfo) (h : m ≠ n) : (s.modNode n f).node m = s.node m := by
  simp [State.node, State.modNode, Tab.get_set_ne _ _ _ h]
/-- Every core of a list is cleared; nothing but cores changes. -/
theorem State.clearCores (st : Nat) (l : List Nat) : ∀ s : State,
    let t := l.foldl (fun s c => s.modCore st c Core.clear) s
    t = { s with cores := t.cores } ∧ ∀ c, (t.core st c).acc = if c ∈ l then [] else (s.core st c).acc := by
  induction l with
  | nil => exact fun _ => ⟨rfl, fun _ => rfl⟩
  | cons d l ih =>
    intro s
    obtain ⟨hframe, hcore⟩ := ih (s.modCore st d Core.clear)
    refine ⟨hframe, fun c => ?_⟩
    rw [List.foldl_cons, hcore]
    by_cases hc : c = d
    · subst hc
      rw [State.core_modCore]
      simp [Core.clear]
    · rw [State.core_modCore_ne s _ hc]
      simp [hc]

/-- In t stand st was reset for a cause and is out of service; only the watchdog's record of its resets may be new. -/
structure State.standCleared (s t : State) (st cause : Nat) : Prop where
  own : ∃ beats, t.stand st = { (s.stand st).reset with dogBeats := beats }
  sums : ∀ c, c < 17 → (t.core st c).acc = []
  node : t.node st = { inc := nextInc (s.node st).inc, cause, away := true }
  others : ∀ m, m ≠ st → t.stand m = s.stand m ∧ t.node m = s.node m

section
variable {s t : State} {st cause : Nat}

theorem State.standCleared.congr {u : State} (h : s.standCleared t st cause) (hs : u.stands = t.stands) (hc : u.cores = t.cores)
    (hn : u.nodes = t.nodes) : s.standCleared u st cause := by
  have hstand : ∀ m, u.stand m = t.stand m := fun m => by rw [State.stand, hs]; rfl
  have hcore : ∀ c, u.core st c = t.core st c := fun c => by rw [State.core, hc]; rfl
  have hnode : ∀ m, u.node m = t.node m := fun m => by rw [State.node, hn]; rfl
  obtain ⟨hown, hsums, hunit, hothers⟩ := h
  exact ⟨by rw [hstand]; exact hown, fun c hc => by rw [hcore, hsums c hc], by rw [hnode, hunit],
    fun m hm => by rw [hstand, hnode]; exact hothers m hm⟩
theorem State.standCleared.count (h : s.standCleared t st cause) (k n : Nat) : s.standCleared (t.count k n) st cause := h.congr rfl rfl rfl
theorem State.standCleared.beats (h : s.standCleared t st cause) (l : List Nat) :
    s.standCleared (t.modStand st fun x => { x with dogBeats := l }) st cause := by
  obtain ⟨⟨beats, hown⟩, hsums, hnode, hothers⟩ := h
  exact ⟨⟨l, by rw [State.stand_modStand, hown]⟩, hsums, hnode,
    fun m hm => by rw [State.stand_modStand_ne _ _ hm]; exact hothers m hm⟩
theorem State.standCleared.faultStop (h : s.standCleared t st cause) (cls : Nat) : s.standCleared (t.faultStop cls) st cause :=
  h.congr (by rw [State.faultStop_frame]) (by rw [State.faultStop_frame]) (by rw [State.faultStop_frame])
theorem State.standCleared_resetStand (s : State) (st cause : Nat) : s.standCleared (s.resetStand st cause true) st cause := by
  obtain ⟨hframe, hcore⟩ := State.clearCores st (List.range 17) s
  unfold State.resetStand State.leave
  generalize (List.range 17).foldl (fun s c => s.modCore st c Core.clear) s = t at hframe hcore
  have hstand : ∀ m, t.stand m = s.stand m := fun m => by rw [hframe]; rfl
  have hnode : ∀ m, t.node m = s.node m := fun m => by rw [hframe]; rfl
  refine ⟨⟨(s.stand st).dogBeats, ?_⟩, fun c hc => ?_, ?_, fun m hm => ⟨?_, ?_⟩⟩
  · change (t.modStand st Stand.reset).stand st = _
    rw [State.stand_modStand, hstand]
    rfl
  · change (t.core st c).acc = []
    rw [hcore, if_pos (List.mem_range.mpr hc)]
  · rw [State.node_modNode]
    change ({ inc := nextInc (t.node st).inc, cause := cause, away := true || (t.node st).away } : NodeInfo) = _
    rw [hnode, Bool.true_or]
  · change (t.modStand st Stand.reset).stand m = _
    rw [State.stand_modStand_ne _ _ hm, hstand]
  · rw [State.node_modNode_ne _ _ hm]
    exact hnode m
theorem State.resetStand_frame (s : State) (st cause : Nat) (away : Bool) :
    ∃ cores stands nodes, s.resetStand st cause away = { s with cores := cores, stands := stands, nodes := nodes } := by
  have hframe := (State.clearCores st (List.range 17) s).1
  unfold State.resetStand State.leave
  generalize (List.range 17).foldl (fun s c => s.modCore st c Core.clear) s = t at hframe
  dsimp only
  rw [hframe]
  exact ⟨_, _, _, rfl⟩
theorem State.counter_resetStand (s : State) (st cause : Nat) (away : Bool) (k : Nat) :
    (s.resetStand st cause away).counter k = s.counter k := by
  obtain ⟨cores, stands, nodes, he⟩ := s.resetStand_frame st cause away
  rw [he]
  rfl
theorem State.mem_resetStand (s : State) (st cause : Nat) (away : Bool) : (s.resetStand st cause away).mem = s.mem := by
  obtain ⟨cores, stands, nodes, he⟩ := s.resetStand_frame st cause away
  rw [he]

theorem Stand.win_reset (x : Stand) {k : Nat} (hk : k < 16) : (x.reset.credit.win k).st = .closed := by
  have hunit : x.reset.credit.win k = (slots16.foldl (fun u k => u.voidWin k) x.credit).win k := by
    simp only [Stand.reset, CreditUnit.win]
  rw [hunit, CreditUnit.win_foldl_voidWin, if_pos (mem_slots16.mpr hk)]
  rfl
/-- What a stand reset leaves of its stand and of the others. -/
theorem State.standCleared.leaves (h : s.standCleared t st cause) :
    (∀ r, (t.stand st).reg r = 0) ∧ (t.stand st).pc = 0 ∧ (t.stand st).running = false ∧ (∀ a, (t.stand st).word a = 0) ∧
      (∀ k, k < 16 → ((t.stand st).credit.win k).st = .closed) ∧ (t.stand st).credit.queue = [] ∧
      (∀ c, c < 17 → (t.core st c).acc = []) ∧ (t.node st).inc = nextInc (s.node st).inc ∧ (t.node st).away = true ∧
      ∀ m, m ≠ st → t.stand m = s.stand m ∧ t.node m = s.node m := by
  obtain ⟨⟨beats, hown⟩, hsums, hnode, hothers⟩ := h
  rw [hown, hnode]
  exact ⟨fun r => ite_self _, rfl, rfl, fun _ => rfl, fun k hk => (s.stand st).win_reset hk, rfl, hsums, rfl, rfl, hothers⟩

end

/-! ## The beat watchdog (R178) -/

theorem State.counter_faultStop_ne (s : State) (c : Nat) {k : Nat} (h : k ≠ 0x540007) (hl : k ≠ 0x540002) :
    (s.faultStop c).counter k = s.counter k := by
  unfold State.faultStop
  split
  case isTrue => rfl
  case isFalse =>
    rw [State.counter_log_ne _ _ hl, State.counter_due, State.counter_count_ne _ _ h]
    rfl
/-- The watchdog's record of a reset. -/
def State.dogRecord (s : State) (st : Nat) : State := s.record 0x020B 0 (leBytes 2 (s.node st).inc) st
theorem State.dogRecord_frame (s : State) (st : Nat) : (s.dogRecord st).stands = s.stands ∧ (s.dogRecord st).cores = s.cores ∧
    (s.dogRecord st).nodes = s.nodes ∧ ∀ k, k ≠ 0x540002 → (s.dogRecord st).counter k = s.counter k := by
  unfold State.dogRecord State.record
  exact ⟨by rw [State.log_frame], by rw [State.log_frame], by rw [State.log_frame], fun k hk => State.counter_log_ne _ _ hk⟩
/-- The reset that the watchdog gives, counted and recorded. -/
def State.dogCounted (s : State) (st : Nat) : State := (((s.resetStand st 6 true).count 0x525008).count 0x512002).dogRecord st
/-- The resets of a stand within the last 1,000 beats, this one with them. -/
def State.dogBeats (s : State) (st : Nat) : List Nat :=
  ((s.stand st).dogBeats.filter fun b => decide (s.time.beat < b + 1000)) ++ [s.time.beat]
theorem State.dogReset_eq (s : State) (st : Nat) : s.dogReset st =
    if 3 ≤ ((s.dogCounted st).dogBeats st).length
    then ((s.dogCounted st).modStand st fun x => { x with dogBeats := (s.dogCounted st).dogBeats st }).faultStop 0x020B
    else (s.dogCounted st).modStand st fun x => { x with dogBeats := (s.dogCounted st).dogBeats st } := rfl

section
variable (s : State) (st : Nat)

theorem State.standCleared_dogCounted : s.standCleared (s.dogCounted st) st 6 := by
  obtain ⟨hstands, hcores, hnodes, -⟩ := (((s.resetStand st 6 true).count 0x525008).count 0x512002).dogRecord_frame st
  exact (((s.standCleared_resetStand st 6).count _ _).count _ _).congr hstands hcores hnodes
theorem State.counter_dogCounted : (s.dogCounted st).counter 0x525008 = (s.counter 0x525008 + 1) % 2 ^ 64 := by
  rw [State.dogCounted, (State.dogRecord_frame _ st).2.2.2 _ (by decide), State.counter_count_ne _ _ (by decide), State.counter_count,
    State.counter_resetStand]
theorem State.dogReset_leaves : s.standCleared (s.dogReset st) st 6 ∧
    (s.dogReset st).counter 0x525008 = (s.counter 0x525008 + 1) % 2 ^ 64 := by
  have hcleared := s.standCleared_dogCounted st
  have hcount := s.counter_dogCounted st
  rw [State.dogReset_eq]
  generalize s.dogCounted st = t at hcleared hcount
  split
  case isTrue =>
    refine ⟨(hcleared.beats _).faultStop _, ?_⟩
    rw [State.counter_faultStop_ne _ _ (by decide) (by decide), State.counter_modStand, hcount]
  case isFalse => exact ⟨hcleared.beats _, hcount⟩

end

theorem exec_beatWatchdog {s : State} {st : StandId} (h : s.dogExpired st = true) : exec (.beatWatchdog st) s = .next (s.dogReset st) := by
  change execBeatWatchdog st s = _
  rw [execBeatWatchdog, if_pos h]
theorem exec_beatWatchdog_early {s : State} {st : StandId} (h : s.dogExpired st = false) : exec (.beatWatchdog st) s = .next s := by
  change execBeatWatchdog st s = _
  rw [execBeatWatchdog, h, if_neg Bool.false_ne_true]

/-! ## An uncorrectable word (R100, R104, R365) -/

theorem State.counter_foldl {α : Type} {k : Nat} {f : State → α → State} (h : ∀ s a, (f s a).counter k = s.counter k) (l : List α) :
    ∀ s : State, (l.foldl f s).counter k = s.counter k := by
  induction l with
  | nil => exact fun _ => rfl
  | cons a l ih => exact fun s => (ih _).trans (h s a)
theorem State.quarantined_quarantine (s : State) (st c : Nat) : ((s.quarantine st c).stand st).quarantined = true := by
  unfold State.quarantine
  split
  case isTrue h => exact h
  case isFalse =>
    dsimp only
    rw [State.stand_log, State.stand_count, State.stand_modStand]
theorem State.counter_vacate_ne (s : State) (st p : Nat) {k : Nat} (h : k ≠ 0x525004) : (s.vacate st p).counter k = s.counter k := by
  unfold State.vacate
  rw [State.counter_modStand, State.counter_count_ne _ _ h]
theorem State.counter_quarantine (s : State) (st c : Nat) {k : Nat} (h : k ∉ [0x525004, 0x540006, 0x540002]) :
    (s.quarantine st c).counter k = s.counter k := by
  simp only [List.mem_cons, List.not_mem_nil, or_false, not_or] at h
  obtain ⟨hv, hq, hl⟩ := h
  unfold State.quarantine
  split
  case isTrue => rfl
  case isFalse =>
    dsimp only
    rw [State.counter_log_ne _ _ hl, State.counter_count_ne _ _ hq, State.counter_modStand]
    exact State.counter_foldl (fun t p => t.counter_vacate_ne st p hv) _ s
/-- A row that becomes due changes nothing but its bank, and leaves at most a record. -/
theorem State.rowDue_leaves (s : State) (st b r : Nat) (ue : Bool) : let t := s.rowDue st b r ue
    (t.stand st).quarantined = (s.stand st).quarantined ∧ ∀ k, k ≠ 0x540002 → t.counter k = s.counter k := by
  unfold State.rowDue State.rowDegraded
  dsimp only
  split
  case isTrue => exact ⟨by rw [State.stand_modStand]; rfl, fun _ _ => rfl⟩
  case isFalse =>
    split
    case isTrue =>
      refine ⟨?_, fun k hk => by rw [State.counter_log_ne _ _ hk]; rfl⟩
      rw [State.stand_log, State.stand_modStand, State.stand_modStand]
      rfl
    case isFalse => exact ⟨by rw [State.stand_modStand]; rfl, fun _ _ => rfl⟩
/-- An uncorrectable word is counted, and quarantines its stand. -/
theorem State.spadUe_leaves (s : State) (st b r w op : Nat) : let t := s.spadUe st b r w op
    (t.stand st).quarantined = true ∧ t.counter 0x523002 = (s.counter 0x523002 + 1) % 2 ^ 64 := by
  unfold State.spadUe
  dsimp only
  refine ⟨(State.rowDue_leaves ..).1.trans (State.quarantined_quarantine ..), ?_⟩
  rw [(State.rowDue_leaves ..).2 _ (by decide), State.counter_quarantine _ _ _ (by decide), State.counter_log_ne _ _ (by decide),
    State.counter_count]
/-- The word that a read finds uncorrectable has two wrong bits at least. -/
def Stand.spoils (a : Nat) (x : Stand) : Stand := { x with wrongBits := Tab.set 0 x.wrongBits a (max 2 (Tab.get 0 x.wrongBits a)) }
theorem exec_scratchpadUe (s : State) (st : StandId) (bank : SBank) (row : RowNo) (word : Fin 64) (opcode : Byte) :
    exec (.scratchpadUe st bank row word opcode) s =
      .next ((s.modStand st (Stand.spoils (bank.val * 2048 + row.val * 64 + word.val))).spadUe st bank row word opcode.toNat) := rfl
/-- No core fills a position of a quarantined stand (R365). -/
theorem State.fill_quarantined {s : State} {st : Nat} (p : Nat) (h : (s.stand st).quarantined = true) : s.fill st p = none := if_pos h

/-! ## Row repair (R104) and hazards (R182 to R184) -/

theorem exec_rowRepair {s : State} {st : StandId} {bank : SBank} {row : RowNo} {d : Nat × Bool × Nat} {i : Nat}
    (hd : ((s.stand st).bank bank).due.find? (fun e => e.1 = row.val) = some d) (hi : ((s.stand st).bank bank).freeSpare = some i)
    (hc : (((s.stand st).bank bank).copying.any fun c => c.1 = row.val) = false) (hr : s.repairStarts st bank d.2.1 = true) :
    exec (.rowRepair st bank row) s =
      .next (s.modStand st fun x => x.modBank bank fun k => { k with copying := k.copying ++ [(row.val, i)] }) := by
  change execRowRepair st bank row s = _
  simp only [execRowRepair, hd, hi, hc, hr, Bool.false_eq_true, if_false, if_true]
/-- A hazard of a report is counted and recorded, and stops the launches when the hazard action asks for it. -/
def State.hazardNoted (s : State) (st : StandId) (code : Fin 256) (index : Fin 16384) (opcode writer : Byte) : State :=
  (s.count 0x525007).record 0x020A 3
    (leBytes 1 code ++ leBytes 2 index ++ (if code.val = 1 then [writer] else [0])) st 0xFF opcode.toNat
/-- With the hazard action at 1 launches stop. -/
def State.hazardActs (s : State) : State :=
  if s.setting 0x236002 0 = 1 then { s with time := { s.time with hazardStop := true } } else s
theorem State.hazardActs_leaves (s : State) : (∀ k, s.hazardActs.counter k = s.counter k) ∧ s.hazardActs.stands = s.stands ∧
    s.hazardActs.time.hazardStop = (s.time.hazardStop || decide (s.setting 0x236002 0 = 1)) := by
  unfold State.hazardActs
  split
  case isTrue h => exact ⟨fun _ => rfl, rfl, by rw [decide_eq_true h, Bool.or_true]⟩
  case isFalse h => exact ⟨fun _ => rfl, rfl, by rw [decide_eq_false h, Bool.or_false]⟩
theorem exec_hazard {s : State} {st : StandId} {code : Fin 256} {index : Fin 16384} {opcode writer : Byte}
    (h : s.hazardFound st code.val index.val opcode.toNat = true) :
    exec (.hazard st code index opcode writer) s = .next (s.hazardNoted st code index opcode writer).hazardActs := by
  change execHazard st code index opcode writer s = _
  unfold execHazard
  rw [if_pos h]
  rfl
theorem exec_hazard_not_found {s : State} {st : StandId} {code : Fin 256} {index : Fin 16384} {opcode writer : Byte}
    (h : s.hazardFound st code.val index.val opcode.toNat = false) : exec (.hazard st code index opcode writer) s = .next s := by
  change execHazard st code index opcode writer s = _
  rw [execHazard, h, if_neg Bool.false_ne_true]
theorem State.hazardNoted_leaves (s : State) (st : StandId) (code : Fin 256) (index : Fin 16384) (opcode writer : Byte) :
    let t := s.hazardNoted st code index opcode writer
    t.counter 0x525007 = (s.counter 0x525007 + 1) % 2 ^ 64 ∧ t.stands = s.stands ∧ t.time = s.time ∧ t.settings = s.settings := by
  unfold State.hazardNoted State.record
  refine ⟨?_, by rw [State.log_frame]; rfl, by rw [State.log_frame]; rfl, by rw [State.log_frame]; rfl⟩
  rw [State.counter_log_ne _ _ (by decide), State.counter_count]
/-- Check 7 on a BARV of the image, in the present state (log 104). -/
theorem State.hazardFound_barv {s : State} {st : StandId} {index o : Nat} {c : Fin 64} (hdebug : s.power.debug = 1)
    (hi : s.imageInstr st index = some (o, .barv st c)) : s.hazardFound st 7 index o = true ↔ s.phase c < (s.stand st).arrivalsOn c := by
  simp only [State.hazardFound, hdebug, hi, beq_self_eq_true, Bool.true_and, State.hazardHolds, State.barrierHazard, decide_eq_true_eq]

/-- Settles O38, by what each of the events does to the stand that it names. That a hazard is judged in the present state is log 104. -/
theorem standFaults : Obligations.StandFaults := by
  unfold Obligations.StandFaults
  intro s st x cleared
  refine ⟨?reset, fun h => ?dog, exec_beatWatchdog_early, fun bank row word opcode => ?ue, fun bank row d i hd hi hc hr => ?repair,
    fun code index opcode writer h => ?hazard, fun index o c hdebug hi => State.hazardFound_barv hdebug hi,
    fun code index opcode writer h => exec_hazard_not_found h⟩
  case reset =>
    have hcleared := (s.standCleared_resetStand st 5).count 0x512002 1
    refine ⟨_, rfl, hcleared.leaves, by rw [hcleared.node], ?_, ?_⟩
    · rw [State.count_mem, State.mem_resetStand]
    · rw [State.counter_count, State.counter_resetStand]
  case dog =>
    obtain ⟨hcleared, hcount⟩ := s.dogReset_leaves st
    exact ⟨_, exec_beatWatchdog h, hcleared.leaves, by rw [hcleared.node], hcount⟩
  case ue =>
    have hreads := (s.modStand st (Stand.spoils (bank.val * 2048 + row.val * 64 + word.val))).readsAt_spadUe st bank row word opcode.toNat
    obtain ⟨hquarantined, hcount⟩ := (s.modStand st (Stand.spoils (bank.val * 2048 + row.val * 64 + word.val))).spadUe_leaves st bank row word
      opcode.toNat
    have hown := hreads.own
    rw [State.stand_modStand] at hown
    refine ⟨_, exec_scratchpadUe .., hquarantined, by rw [hown]; rfl, by rw [hown]; rfl, hcount, fun p => State.fill_quarantined p hquarantined,
      fun m hm => ?_⟩
    rw [hreads.others m hm, State.stand_modStand_ne _ _ hm]
  case repair => exact ⟨_, exec_rowRepair hd hi hc hr, State.onlyStand_modStand s st _, by rw [State.stand_modStand, Stand.bank_modBank]⟩
  case hazard =>
    obtain ⟨hcount, hstands, htime, hsettings⟩ := s.hazardNoted_leaves st code index opcode writer
    obtain ⟨hcounters, hkept, hstop⟩ := (s.hazardNoted st code index opcode writer).hazardActs_leaves
    have hset : (s.hazardNoted st code index opcode writer).setting 0x236002 0 = s.setting 0x236002 0 := by
      rw [State.setting, hsettings]
      rfl
    exact ⟨_, exec_hazard h, (hcounters _).trans hcount, hkept.trans hstands, by rw [hstop, htime, hset]⟩

end Sys2Proof.Machine
end

section
/-! What an instruction of the matrix unit or the vector unit reads before it writes, and the words it stores (04 R98, R99; 06 R150, R151). -/

namespace Sys2Proof.Machine

/-! ## Word addresses (R98) -/

@[simp] theorem wa_wa (a : Nat) : wa (wa a) = wa a := Nat.mod_mod ..
@[simp] theorem Stand.word_wa (x : Stand) (a : Nat) : x.word (wa a) = x.word a := by rw [Stand.word, wa_wa, Stand.word]
theorem Stand.word_congr (x : Stand) {a b : Nat} (h : wa a = wa b) : x.word a = x.word b := by rw [← x.word_wa, h, x.word_wa]
theorem wa_wa_add (a i : Nat) : wa (wa a + i) = wa (a + i) := Nat.mod_add_mod ..
theorem Stand.word_wa_add (x : Stand) (a i : Nat) : x.word (wa a + i) = x.word (a + i) := x.word_congr (wa_wa_add a i)
theorem Stand.vec_wa (x : Stand) (a : Nat) : x.vec (wa a) = x.vec a := by rw [Stand.vec, Stand.word_wa, Stand.vec]
theorem Stand.run_congr (x : Stand) {a b : Nat} (h : wa a = wa b) (n : Nat) : x.run a n = x.run b n := by
  refine List.map_congr_left fun i _ => ?_
  rw [← x.word_wa_add a, h, x.word_wa_add]
theorem Stand.run_congr_word {x y : Stand} (h : x.word = y.word) : x.run = y.run := by
  funext a n
  simp only [Stand.run, h]
theorem Stand.run_wa (x : Stand) (a n : Nat) : x.run (wa a) n = x.run a n := x.run_congr (wa_wa a) n
theorem Stand.run_wa_add (x : Stand) (a i n : Nat) : x.run (wa a + i) n = x.run (a + i) n := x.run_congr (wa_wa_add a i) n
theorem gap_wa (a b : Nat) : gap (wa a) b = gap a b := by rw [gap, wa_wa, gap]

/-! ## Lists made of parts of one length -/

/-- Element k of part i of a list made of parts of L elements. -/
theorem getD_flatMap {α β : Type} {f : α → List β} {d : β} {L k : Nat} (hk : k < L) : ∀ {l : List α} {i : Nat} (hi : i < l.length),
    (∀ a, (f a).length = L) → (l.flatMap f).getD (i * L + k) d = (f l[i]).getD k d
  | [], i => fun hi _ => absurd hi (Nat.not_lt_zero i)
  | a :: l, 0 => fun _ hf => by
    have hk' : k < (f a).length := by rwa [hf]
    simp [List.flatMap_cons, List.getD_eq_getElem?_getD, List.getElem?_append_left hk']
  | a :: l, i + 1 => fun hi hf => by
    rw [List.flatMap_cons, List.getD_append_right _ _ _ _ (by rw [hf]; nlinarith), hf]
    have hnext : (i + 1) * L + k - L = i * L + k := by rw [Nat.add_mul, Nat.one_mul]; omega
    rw [hnext]
    exact getD_flatMap hk (Nat.lt_of_succ_lt_succ hi) hf
theorem length_flatMap_const {α β : Type} {f : α → List β} {L : Nat} (hf : ∀ a, (f a).length = L) (l : List α) :
    (l.flatMap f).length = l.length * L := by
  simp [List.length_flatMap, hf]

/-! ## Reading (R99) -/

/-- Only grants of the scratchpad banks of stand st differ. -/
structure State.glances (s t : State) (st : Nat) : Prop where
  frame : t = { s with stands := t.stands }
  others : ∀ m, m ≠ st → t.stand m = s.stand m
  own : t.stand st = { s.stand st with banks := (t.stand st).banks }
  power : ∀ b, ((t.stand st).bank b).power = ((s.stand st).bank b).power
/-- Nothing of the stands, the tiers and the mesh differs but grants of the scratchpad banks of stand st. -/
structure State.readies (s t : State) (st : Nat) : Prop where
  others : ∀ m, m ≠ st → t.stand m = s.stand m
  own : t.stand st = { s.stand st with banks := (t.stand st).banks }
  power : ∀ b, ((t.stand st).bank b).power = ((s.stand st).bank b).power
  mem : t.mem = s.mem
  mesh : t.mesh = s.mesh

section
variable {s t u : State} {st : Nat}

theorem State.glances_refl (s : State) (st : Nat) : s.glances s st := ⟨rfl, fun _ _ => rfl, rfl, fun _ => rfl⟩
theorem State.glances.trans (h : s.glances t st) (k : t.glances u st) : s.glances u st :=
  ⟨by rw [k.frame, h.frame], fun m hm => (k.others m hm).trans (h.others m hm), by rw [k.own, h.own], fun b => (k.power b).trans (h.power b)⟩
theorem State.glances.readies (h : s.glances t st) : s.readies t st := ⟨h.others, h.own, h.power, by rw [h.frame], by rw [h.frame]⟩
theorem State.glances.counter (h : s.glances t st) (k : Nat) : t.counter k = s.counter k := by rw [h.frame]; rfl

theorem State.readies.trans (h : s.readies t st) (k : t.readies u st) : s.readies u st :=
  ⟨fun m hm => (k.others m hm).trans (h.others m hm), by rw [k.own, h.own], fun b => (k.power b).trans (h.power b), k.mem.trans h.mem,
    k.mesh.trans h.mesh⟩
/-- States with the same stands, tiers and mesh. -/
theorem State.readies_of_eq (hs : t.stands = s.stands) (hm : t.mem = s.mem) (hp : t.mesh = s.mesh) (st : Nat) : s.readies t st := by
  have hstand : ∀ m, t.stand m = s.stand m := fun m => by rw [State.stand, hs, State.stand]
  exact ⟨fun m _ => hstand m, by rw [hstand], fun b => by rw [hstand], hm, hp⟩
theorem State.readies_refl (s : State) (st : Nat) : s.readies s st := State.readies_of_eq rfl rfl rfl st
theorem State.readies_count (s : State) (st k n : Nat) : s.readies (s.count k n) st :=
  State.readies_of_eq (s := s) (t := s.count k n) rfl rfl rfl st
theorem State.readies_log (s : State) (st : Nat) (r : ErrRec) : s.readies (s.log r) st := by
  refine State.readies_of_eq ?_ ?_ ?_ st <;> rw [State.log_frame]
theorem State.readies_operandErr (s : State) (st op rule x : Nat) : s.readies (s.operandErr st op rule x) st := s.readies_log st _

theorem State.readies.word (h : s.readies t st) : (t.stand st).word = (s.stand st).word := by rw [h.own]; rfl
theorem State.readies.run (h : s.readies t st) : (t.stand st).run = (s.stand st).run := Stand.run_congr_word h.word
theorem State.readies.clean (h : s.readies t st) (hc : (s.stand st).clean) : (t.stand st).clean :=
  ⟨fun b => by rw [h.power]; exact hc.1 b, fun a => by rw [h.own]; exact hc.2 a⟩

/-- A read of a clean scratchpad gives the words of the run. -/
theorem State.glances_readWords (hc : (s.stand st).clean) (req op a n : Nat) :
    (s.readWords st req op a n).1 = (s.stand st).run a n ∧ s.glances (s.readWords st req op a n).2 st := by
  obtain ⟨hwords, hframe, hothers, hown, -, hpower⟩ := s.readWords_clean st req op a n hc
  exact ⟨hwords, hframe, hothers, hown, hpower⟩

end

/-! ## Storing (R99) -/

/-- The words ws are stored from a on, round the scratchpad of stand st; nothing else differs but its codes and grants. -/
structure State.stores (s t : State) (st a : Nat) (ws : List Word) : Prop where
  frame : t = { s with stands := t.stands }
  others : ∀ m, m ≠ st → t.stand m = s.stand m
  own : (s.stand st).sameBut (t.stand st)
  word : ∀ b, (t.stand st).word b = if gap a b < ws.length then ws.getD (gap a b) 0 else (s.stand st).word b

/-- A write to a clean scratchpad stores its words. -/
theorem State.stores_writeWords {s : State} {st : Nat} (hc : (s.stand st).clean) (req op a : Nat) {ws : List Word} (hl : ws.length ≤ 65536) :
    s.stores (s.writeWords st req op (wa a) ws) st a ws := by
  obtain ⟨hframe, hothers, hown, -, hword⟩ := s.writeWords_on st req op (wa a) ws hl hc.1
  exact ⟨hframe, hothers, hown, fun b => by rw [hword, gap_wa]⟩

section
variable {s t : State} {st a : Nat} {ws : List Word} (h : s.stores t st a ws)
include h

theorem State.stores.word_add {i : Nat} (hi : i < ws.length) (hl : ws.length ≤ 65536) : (t.stand st).word (a + i) = ws.getD i 0 := by
  rw [h.word, gap_add a (by omega), if_pos hi]
theorem State.stores.word_out {b : Nat} (hb : b < 65536) (hout : ∀ i, i < ws.length → b ≠ wa (a + i)) :
    (t.stand st).word b = (s.stand st).word b := by
  rw [h.word, if_neg fun hgap => hout _ hgap (wa_add_gap a hb).symm]
theorem State.stores.regs : (t.stand st).regs = (s.stand st).regs := by rw [h.own]
theorem State.stores.pc : (t.stand st).pc = (s.stand st).pc := by rw [h.own]
theorem State.stores.dmu : (t.stand st).dmu = (s.stand st).dmu := by rw [h.own]
theorem State.stores.dmuQ : (t.stand st).dmuQ = (s.stand st).dmuQ := by rw [h.own]
theorem State.stores.serving : t.serving = s.serving := by rw [h.frame]
theorem State.stores.counter (k : Nat) : t.counter k = s.counter k := by rw [h.frame]; rfl

end

/-- A stored vector: its header, and its element words from the next address on. -/
theorem State.stores.vec {s t : State} {st a : Nat} {hdr : Hdr} {ws : List Word} (h : s.stores t st a (encVec hdr :: ws))
    (hf : hdr.fmt < 8) (ht : hdr.tile < 65536) (hn : hdr.count < 2048) : (t.stand st).vec a = hdr := by
  have hgap : gap a a = 0 := gap_add a (k := 0) (by decide)
  rw [Stand.vec, h.word, hgap, if_pos (by simp)]
  exact decVec_encVec hf ht hn
theorem State.stores.elem {s t : State} {st a : Nat} {w : Word} {ws : List Word} (h : s.stores t st a (w :: ws)) {i : Nat}
    (hi : i < ws.length) (hl : ws.length < 65536) : (t.stand st).word (a + 1 + i) = ws.getD i 0 := by
  have hword := h.word_add (i := i + 1) (by simpa using hi) (by simpa using hl)
  rwa [Nat.add_comm i 1, ← Nat.add_assoc, Nat.add_comm 1 i] at hword

/-! ## Through an empty queue (R150, R151) -/

section
variable {s : State} {st : Nat}

/-- Two changes of a stand that restore it touch nothing. -/
theorem State.glances_restored {f g : Stand → Stand} (h : g (f (s.stand st)) = s.stand st) : s.glances ((s.modStand st f).modStand st g) st := by
  have hown : ((s.modStand st f).modStand st g).stand st = s.stand st := by rw [State.stand_modStand, State.stand_modStand, h]
  exact ⟨rfl, fun m hm => by rw [State.stand_modStand_ne _ _ hm, State.stand_modStand_ne _ _ hm], by rw [hown], fun b => by rw [hown]⟩
/-- An instruction that is ready begins at once in an idle matrix unit. -/
theorem State.dmuOp_begins {o : DmuOp} (hq : (s.stand st).dmuQ = []) (hr : (s.stand st).dmuReady o = true) :
    ∃ u, s.glances u st ∧ s.dmuOp st o = u.runDmu st o := by
  have hstand : ((s.modStand st fun x => { x with dmuQ := x.dmuQ ++ [o] }).stand st) = { s.stand st with dmuQ := [o] } := by
    rw [State.stand_modStand, hq, List.nil_append]
  have hready : ({ s.stand st with dmuQ := [o] } : Stand).dmuReady o = true := by cases o <;> exact hr
  refine ⟨_, State.glances_restored (f := fun x => { x with dmuQ := x.dmuQ ++ [o] }) (g := fun x => { x with dmuQ := [] }) (by rw [← hq]), ?_⟩
  simp only [State.dmuOp, hstand, List.length_singleton, State.pumpDmu, hready, if_true]
/-- A vector that waits holds its reader in the queue (R68). -/
theorem State.dmuOp_waits {o : DmuOp} (hq : (s.stand st).dmuQ = []) (hr : (s.stand st).dmuReady o = false) :
    s.dmuOp st o = s.modStand st fun x => { x with dmuQ := x.dmuQ ++ [o] } := by
  have hstand : ((s.modStand st fun x => { x with dmuQ := x.dmuQ ++ [o] }).stand st) = { s.stand st with dmuQ := [o] } := by
    rw [State.stand_modStand, hq, List.nil_append]
  have hwait : ({ s.stand st with dmuQ := [o] } : Stand).dmuReady o = false := by cases o <;> exact hr
  simp only [State.dmuOp, hstand, List.length_singleton, State.pumpDmu, hwait, Bool.false_eq_true, if_false]
/-- An instruction begins at once in an idle vector unit. -/
theorem State.vecOp_begins (o : VecOp) (hq : (s.stand st).vecQ = []) : ∃ u, s.glances u st ∧ s.vecOp st o = u.runVec st o := by
  have hstand : ((s.modStand st fun x => { x with vecQ := x.vecQ ++ [o] }).stand st) = { s.stand st with vecQ := [o] } := by
    rw [State.stand_modStand, hq, List.nil_append]
  refine ⟨_, State.glances_restored (f := fun x => { x with vecQ := x.vecQ ++ [o] }) (g := fun x => { x with vecQ := [] }) (by rw [← hq]), ?_⟩
  simp only [State.vecOp, hstand, List.length_singleton, State.pumpVec]

variable (hi : s.issues st) (i : Instr) (eff : State → State)
include hi

/-- At a free controller an instruction for an idle matrix unit takes effect. -/
theorem State.issue_dmu (hq : (s.stand st).dmuQ = []) : s.issue st i (s.stand st).dmuRoom eff = eff (s.issued st) := by
  have hroom : (s.stand st).dmuRoom = true := by rw [Stand.dmuRoom, hq]; rfl
  rw [hroom]
  exact s.issue_ready st i eff hi.1 hi.2
/-- At a free controller an instruction for an idle vector unit begins. -/
theorem State.issue_vec (hq : (s.stand st).vecQ = []) (o : VecOp) (he : eff (s.issued st) = (s.issued st).vecOp st o) :
    ∃ u, (s.issued st).glances u st ∧ s.issue st i (s.stand st).vecRoom eff = u.runVec st o := by
  have hroom : (s.stand st).vecRoom = true := by rw [Stand.vecRoom, hq]; rfl
  rw [hroom, s.issue_ready st i eff hi.1 hi.2, he]
  exact State.vecOp_begins o (by rw [State.stand_issued]; exact hq)

end

/-! ## What an issue with such an effect leaves (R149) -/

@[simp] theorem State.g_issued (s : State) (st r : Nat) : (s.issued st).g st r = s.g st r := by rw [State.g, State.stand_issued]; rfl
theorem State.counter_issued_ne (s : State) (st : Nat) {k : Nat} (h : k ≠ 0x525001) : (s.issued st).counter k = s.counter k :=
  (s.countsOnly_issued st).2 k h
theorem Stand.reg_issued (s : State) (st r : Nat) : ((s.issued st).stand st).reg r = (s.stand st).reg r := by rw [State.stand_issued]; rfl
theorem State.word_issued (s : State) (st : Nat) : ((s.issued st).stand st).word = (s.stand st).word := by rw [State.stand_issued]; rfl
theorem State.clean_issued {s : State} {st : Nat} (h : (s.stand st).clean) : ((s.issued st).stand st).clean := by
  rw [State.stand_issued]
  exact h

/-- What an instruction of the matrix unit leaves of its stand and of everything else. -/
structure State.dmuWork (s t : State) (st : Nat) : Prop where
  pc : (t.stand st).pc = (s.stand st).pc + 1
  regs : (t.stand st).regs = (s.stand st).regs
  mem : t.mem = s.mem
  mesh : t.mesh = s.mesh
  others : ∀ m, m ≠ st → t.stand m = s.stand m

section
variable {s t u : State} {st : Nat}

theorem State.dmuWork_modStand (h : (s.issued st).readies u st) {f : Stand → Stand} (hpc : (f (u.stand st)).pc = (u.stand st).pc)
    (hregs : (f (u.stand st)).regs = (u.stand st).regs) : s.dmuWork (u.modStand st f) st := by
  have hown := h.own
  rw [State.stand_issued] at hown
  refine ⟨?_, ?_, h.mem, h.mesh, fun m hm => ?_⟩
  · rw [State.stand_modStand, hpc, hown]
  · rw [State.stand_modStand, hregs, hown]
  · rw [State.stand_modStand_ne _ _ hm, h.others m hm, State.stand_issued_ne s hm]
theorem State.dmuWork_stores (h : (s.issued st).readies u st) {a : Nat} {ws : List Word} (k : u.stores t st a ws) : s.dmuWork t st := by
  have hown := h.own
  rw [State.stand_issued] at hown
  have hmem : t.mem = u.mem := by rw [k.frame]
  have hmesh : t.mesh = u.mesh := by rw [k.frame]
  refine ⟨?_, ?_, hmem.trans h.mem, hmesh.trans h.mesh, fun m hm => ?_⟩
  · rw [k.pc, hown]
  · rw [k.regs, hown]
  · rw [k.others m hm, h.others m hm, State.stand_issued_ne s hm]
/-- An instruction of the vector unit that reads, then stores, is work on its stand alone. -/
theorem State.standWork_stores (h : (s.issued st).glances u st) {a : Nat} {ws : List Word} (k : u.stores t st a ws) :
    s.standWork t st ∧ (t.stand st).pc = (s.stand st).pc + 1 := by
  obtain ⟨hpc, hregs, -, -, hothers⟩ := State.dmuWork_stores h.readies k
  refine ⟨⟨?_, hregs, hothers⟩, hpc⟩
  rw [k.frame, h.frame]
  rfl
/-- An instruction of the vector unit that reads, then writes a record. -/
theorem State.standWork_log (h : (s.issued st).glances u st) (r : ErrRec) :
    s.standWork (u.log r) st ∧ ((u.log r).stand st).pc = (s.stand st).pc + 1 := by
  have hown := h.own
  rw [State.stand_issued] at hown
  refine ⟨⟨?_, ?_, fun m hm => ?_⟩, ?_⟩
  · rw [State.log_frame, h.frame]
    rfl
  · rw [State.stand_log, hown]
  · rw [State.stand_log, h.others m hm, State.stand_issued_ne s hm]
  · rw [State.stand_log, hown]

end

end Sys2Proof.Machine
end

section
/-! VOP and QNT (05 R137 to R139; 06 R167, R485): operands are read before results are written (log 77), all when the instruction
begins (log 15). -/

namespace Sys2Proof.Machine

/-! ## Operands (R95, R167) -/

/-- The n elements of a TYPE from address a on. -/
def Stand.elems (x : Stand) (ty a n : Nat) : List Word := (List.range n).map (typeElem ty (x.run a n))

@[simp] theorem Stand.length_elems (x : Stand) (ty a n : Nat) : (x.elems ty a n).length = n := by simp [Stand.elems]
theorem Stand.elems_congr {x y : Stand} (h : x.word = y.word) : x.elems = y.elems := by
  funext ty a n
  simp only [Stand.elems, Stand.run, h]
/-- An element lies within the words that its array takes. -/
theorem typeElem_run (x : Stand) (ty a : Nat) {i n : Nat} (h : i < n) : typeElem ty (x.run a (typeWords ty n)) i = typeElem ty (x.run a n) i := by
  unfold typeElem typeWords
  split
  case isTrue =>
    have hhalf : i / 2 < ceilDiv n 2 := by unfold ceilDiv; omega
    rw [Stand.getD_run x hhalf, Stand.getD_run x (by omega)]
  case isFalse => rfl

section
variable {s : State} {st : Nat} (hc : (s.stand st).clean)
include hc

/-- An operand that is read: its elements; only grants are noted. -/
theorem State.vecIn_glances (ty a n : Nat) : (s.vecIn st ty a n).1 = (s.stand st).elems ty a n ∧ s.glances (s.vecIn st ty a n).2 st := by
  obtain ⟨hwords, hglance⟩ := State.glances_readWords hc 18 0x40 (wa a) (typeWords ty n)
  refine ⟨?_, hglance⟩
  refine List.map_congr_left fun i hi => ?_
  rw [State.readArray, hwords, Stand.run_wa, typeElem_run _ _ _ (List.mem_range.mp hi)]
end

/-! ## VOP (Table 6.6) -/

theorem length_typePack_le (t : Nat) : ∀ l : List Word, (typePack t l).length ≤ l.length
  | [] => Nat.le_refl _
  | [a] => by simp only [typePack]; split <;> exact Nat.le_refl _
  | a :: b :: r => by
    have ih := length_typePack_le t r
    simp only [typePack]
    split <;> simp only [List.length_cons] <;> omega
theorem length_vopResults_le (f t : Nat) (a b c : List Word) : (vopResults f t a b c).length ≤ a.length + 1 := by
  unfold vopResults
  split <;> simp

/-- The second operand, which functions above 7 lack, and the third, which only FMA and SEL take. -/
def Stand.secondIn (x : Stand) (f t b n : Nat) : List Word := if f ≤ 7 then x.elems (typeRead f t) b n else []
def Stand.thirdIn (x : Stand) (f t c n : Nat) : List Word := if f = 3 then x.elems t c n else if f = 7 then x.elems 2 c n else []
def State.secondIn (s : State) (st f t b n : Nat) : List Word × State := if f ≤ 7 then s.vecIn st (typeRead f t) b n else ([], s)
def State.thirdIn (s : State) (st f t c n : Nat) : List Word × State :=
  if f = 3 then s.vecIn st t c n else if f = 7 then s.vecIn st 2 c n else ([], s)

theorem Stand.secondIn_congr {x y : Stand} (h : x.word = y.word) : x.secondIn = y.secondIn := by
  funext f ty b n
  simp only [Stand.secondIn, Stand.elems_congr h]
theorem Stand.thirdIn_congr {x y : Stand} (h : x.word = y.word) : x.thirdIn = y.thirdIn := by
  funext f ty c n
  simp only [Stand.thirdIn, Stand.elems_congr h]
theorem State.secondIn_glances {s : State} {st : Nat} (hc : (s.stand st).clean) (f t b n : Nat) :
    (s.secondIn st f t b n).1 = (s.stand st).secondIn f t b n ∧ s.glances (s.secondIn st f t b n).2 st := by
  unfold State.secondIn Stand.secondIn
  split
  case isTrue => exact State.vecIn_glances hc ..
  case isFalse => exact ⟨rfl, s.glances_refl st⟩
theorem State.thirdIn_glances {s : State} {st : Nat} (hc : (s.stand st).clean) (f t c n : Nat) :
    (s.thirdIn st f t c n).1 = (s.stand st).thirdIn f t c n ∧ s.glances (s.thirdIn st f t c n).2 st := by
  unfold State.thirdIn Stand.thirdIn
  split
  case isTrue => exact State.vecIn_glances hc ..
  case isFalse =>
    split
    case isTrue => exact State.vecIn_glances hc ..
    case isFalse => exact ⟨rfl, s.glances_refl st⟩
theorem State.doVop_eq (s : State) {st f : Nat} (t d a b c n : Nat) (hf : f ≠ 10) : s.doVop st f t d a b c n =
    let ra := s.vecIn st (typeRead f t) a n
    let rb := ra.2.secondIn st f t b n
    let rc := rb.2.thirdIn st f t c n
    rc.2.writeWords st 18 0x40 (wa d) (typePack (typeWritten f t) (vopResults f t ra.1 rb.1 rc.1)) := by
  rw [State.doVop, if_neg hf]
  rfl

/-- The words that VOP stores, from the words of its stand. -/
def Stand.vopWords (x : Stand) (f t a b c n : Nat) : List Word :=
  typePack (typeWritten f t) (vopResults f t (x.elems (typeRead f t) a n) (x.secondIn f t b n) (x.thirdIn f t c n))

theorem Stand.vopWords_congr {x y : Stand} (h : x.word = y.word) : x.vopWords = y.vopWords := by
  funext f t a b c n
  simp only [Stand.vopWords, Stand.elems_congr h, Stand.secondIn_congr h, Stand.thirdIn_congr h]
theorem Stand.length_vopWords_le (x : Stand) (f t a b c n : Nat) : (x.vopWords f t a b c n).length ≤ n + 1 :=
  (length_typePack_le ..).trans ((length_vopResults_le ..).trans (by rw [Stand.length_elems]))

/-- VOP reads its operands, then stores its results. -/
theorem State.stores_doVop {s : State} {st f n : Nat} (hc : (s.stand st).clean) (hf : f ≠ 10) (hn : n ≤ 4096) (t d a b c : Nat) :
    ∃ u, s.glances u st ∧ u.stores (s.doVop st f t d a b c n) st d ((s.stand st).vopWords f t a b c n) := by
  obtain ⟨ha, hread⟩ := State.vecIn_glances hc (typeRead f t) a n
  rw [State.doVop_eq s t d a b c n hf]
  generalize s.vecIn st (typeRead f t) a n = ra at ha hread
  obtain ⟨hb, hread'⟩ := State.secondIn_glances (hread.readies.clean hc) f t b n
  rw [Stand.secondIn_congr hread.readies.word] at hb
  replace hread' := hread.trans hread'
  dsimp only
  generalize ra.2.secondIn st f t b n = rb at hb hread'
  obtain ⟨hc', hread''⟩ := State.thirdIn_glances (hread'.readies.clean hc) f t c n
  rw [Stand.thirdIn_congr hread'.readies.word] at hc'
  replace hread'' := hread'.trans hread''
  rw [ha, hb, hc']
  have hlen := (s.stand st).length_vopWords_le f t a b c n
  exact ⟨_, hread'', State.stores_writeWords (hread''.readies.clean hc) 18 0x40 d (hlen.trans (by omega))⟩

/-! ## Packed elements (R66) -/

theorem lowBits_lt (b : Nat) (v : Int) : lowBits b v < 2 ^ b := by
  unfold lowBits
  have hpos : (0 : Int) < 2 ^ b := by positivity
  have hlt := Int.emod_lt_of_pos v hpos
  have hnn := Int.emod_nonneg v hpos.ne'
  zify
  omega
/-- The values of a packed word fill b bits each. -/
theorem packWord_lt (b : Nat) : ∀ l : List Int, packWord b l < 2 ^ (b * l.length)
  | [] => by simp [packWord]
  | v :: l => by
    have hv := lowBits_lt b v
    calc packWord b (v :: l) = lowBits b v + 2 ^ b * packWord b l := rfl
      _ < 2 ^ b * (packWord b l + 1) := by rw [Nat.mul_add, Nat.mul_one]; omega
      _ ≤ 2 ^ b * 2 ^ (b * l.length) := Nat.mul_le_mul_left _ (packWord_lt b l)
      _ = 2 ^ (b * (v :: l).length) := by rw [← pow_add, List.length_cons]; ring_nf
/-- Value j of a packed word comes back. -/
theorem packWord_div_mod (b : Nat) : ∀ (l : List Int) (j : Nat), packWord b l / 2 ^ (j * b) % 2 ^ b =
    if j < l.length then lowBits b (l.getD j 0) else 0
  | [], j => by simp [packWord]
  | v :: l, 0 => by simp [packWord, Nat.mod_eq_of_lt (lowBits_lt b v)]
  | v :: l, j + 1 => by
    have hv := lowBits_lt b v
    have hnext : packWord b (v :: l) / 2 ^ b = packWord b l := by
      rw [packWord, Nat.add_mul_div_left _ _ (by positivity), Nat.div_eq_of_lt hv, Nat.zero_add]
    rw [Nat.add_mul, Nat.one_mul, Nat.add_comm, pow_add, ← Nat.div_div_eq_div_mul, hnext, packWord_div_mod b l j]
    simp
theorem perWord_pos (f : Nat) : 0 < perWord f := by
  unfold perWord
  split_ifs <;> decide
/-- A word holds the elements that Table 3.3 puts in it. -/
theorem fmtBits_mul_perWord_le {f : Nat} (hf : f ≤ 6) : fmtBits f * perWord f ≤ 32 := by
  interval_cases f <;> decide

theorem length_packVec_le (f : Nat) : ∀ (n : Nat) (vs : List Int), (packVec f n vs).length ≤ n
  | 0, _ => Nat.le_refl _
  | n + 1, vs => by
    have ih := length_packVec_le f n (vs.drop (perWord f))
    unfold packVec
    split
    · simp
    · simpa using ih
/-- Every word of a packed vector holds the next values. -/
theorem getD_packVec (f : Nat) : ∀ (n q : Nat) (vs : List Int), vs.length ≤ n → q * perWord f < vs.length →
    q < (packVec f n vs).length ∧
      (packVec f n vs).getD q 0 = BitVec.ofNat 32 (packWord (fmtBits f) ((vs.drop (q * perWord f)).take (perWord f)))
  | 0, q, vs => fun hn hq => by omega
  | n + 1, q, vs => fun hn hq => by
    have hpos := perWord_pos f
    have hne : vs ≠ [] := fun h => by simp [h] at hq
    rw [packVec, if_neg hne]
    cases q with
    | zero => simp
    | succ q =>
      rw [Nat.add_mul, Nat.one_mul] at hq
      have hdrop := List.length_drop (i := perWord f) (l := vs)
      obtain ⟨hlen, hget⟩ := getD_packVec f n q (vs.drop (perWord f)) (by omega) (by omega)
      refine ⟨by simpa using hlen, ?_⟩
      rw [List.getD_cons_succ, hget, List.drop_drop, Nat.add_mul, Nat.one_mul, Nat.add_comm]
/-- Element k of a packed vector is the low bits of value k. -/
theorem rawElem_packVec {f n k : Nat} {vs : List Int} (hf : f ≤ 6) (hn : vs.length ≤ n) (hk : k < vs.length) :
    k / perWord f < (packVec f n vs).length ∧ rawElem f (packVec f n vs) k = lowBits (fmtBits f) (vs.getD k 0) := by
  have hpos := perWord_pos f
  have hdiv := Nat.div_add_mod' k (perWord f)
  have hmod := Nat.mod_lt k hpos
  obtain ⟨hlen, hget⟩ := getD_packVec f n (k / perWord f) vs hn (by omega)
  have hword := packWord_lt (fmtBits f) ((vs.drop (k / perWord f * perWord f)).take (perWord f))
  have hbits : 2 ^ (fmtBits f * ((vs.drop (k / perWord f * perWord f)).take (perWord f)).length) ≤ 2 ^ 32 :=
    Nat.pow_le_pow_right (by decide) ((Nat.mul_le_mul_left _ (by simp)).trans (fmtBits_mul_perWord_le hf))
  refine ⟨hlen, ?_⟩
  rw [rawElem, hget, BitVec.toNat_ofNat, Nat.mod_eq_of_lt (hword.trans_le hbits), packWord_div_mod, if_pos (by simp; omega)]
  simp [List.getD_eq_getElem?_getD, hmod, hdiv]

/-- Elements of a packed vector that is stored behind its header. -/
theorem State.stores.rawElem_packed {s t : State} {st a f n k : Nat} {w : Word} {vs : List Int}
    (h : s.stores t st a (w :: packVec f n vs)) (hf : f ≤ 6) (hn : vs.length ≤ n) (hk : k < vs.length) (hmax : n < 65536) :
    rawElem f ((t.stand st).run (a + 1) n) k = lowBits (fmtBits f) (vs.getD k 0) := by
  obtain ⟨hin, helem⟩ := rawElem_packVec hf hn hk
  have hsize := length_packVec_le f n vs
  rw [← helem, rawElem, Stand.getD_run _ (by omega), h.elem hin (by omega), rawElem]

/-! ## QNT (R485) -/

/-- The values that QNT stores, before they are packed. -/
def Stand.qntValues (x : Stand) (ty a b gc n : Nat) : List Int :=
  let d := decEntry (x.word b) (x.word (b + 1))
  (x.elems ty a n).map fun v => qntY v d.1 d.2.1 d.2.2 (fmtLo (gc % 8) (bit gc 3)) (fmtHi (gc % 8) (bit gc 3))
theorem Stand.qntValues_congr {x y : Stand} (h : x.word = y.word) : x.qntValues = y.qntValues := by
  funext ty a b gc n
  simp only [Stand.qntValues, Stand.elems_congr h, h]
theorem Stand.getD_qntValues (x : Stand) (ty a b gc : Nat) {n k : Nat} (h : k < n) : (x.qntValues ty a b gc n).getD k 0 =
    qntY ((x.elems ty a n).getD k 0) (x.word b).toInt (bits (x.word (b + 1)).toNat 5 0) (signedOf 16 (bits (x.word (b + 1)).toNat 31 16))
      (fmtLo (gc % 8) (bit gc 3)) (fmtHi (gc % 8) (bit gc 3)) := by
  have hk : k < (x.elems ty a n).length := by rwa [Stand.length_elems]
  rw [Stand.qntValues, List.getD_eq_getElem _ _ (by rwa [List.length_map]), List.getElem_map, List.getD_eq_getElem _ _ hk, decEntry]
/-- The header that QNT stores. -/
def qntHdr (gc n : Nat) : Hdr := { pend := false, fmt := gc % 8, signed := bit gc 3, tile := 0, count := n }

theorem bits_low (n : Nat) (hi : Nat) : bits n hi 0 = n % 2 ^ (hi + 1) := by simp [bits]

/-- QNT reads its operands and its entry, then stores a header and the packed values. -/
theorem State.stores_doQnt {s : State} {st gc n : Nat} (hc : (s.stand st).clean) (hbad : qntBad gc n = false) (hn : n ≤ 4096) (t d a b : Nat) :
    ∃ u, s.glances u st ∧ u.stores (s.doQnt st t d a b gc n) st d
      (encVec (qntHdr gc n) :: packVec (gc % 8) n ((s.stand st).qntValues t a b gc n)) := by
  obtain ⟨ha, hread⟩ := State.vecIn_glances hc t a n
  simp only [State.doQnt, hbad, Bool.false_eq_true, if_false, bits_low]
  generalize s.vecIn st t a n = ra at ha hread
  obtain ⟨he, hread'⟩ := State.glances_readWords (hread.readies.clean hc) 18 0x40 (wa b) 2
  rw [hread.readies.run, Stand.run_wa] at he
  replace hread' := hread.trans hread'
  rw [ha, he]
  exact ⟨_, hread', State.stores_writeWords (hread'.readies.clean hc) 18 0x40 d
    ((Nat.succ_le_succ (length_packVec_le ..)).trans (Nat.succ_le_succ (hn.trans (by decide))))⟩

/-! ## Issue -/

section
variable {s : State} {st : StandId} {type : Fin 4} {gd ga gb gc : Reg} {cm1 : Fin 4096} (hi : s.issues st) (hq : (s.stand st).vecQ = [])
include hi hq

theorem exec_vop {func : Fin 64} (hw : vopFields func type = true) : ∃ u, (s.issued st).glances u st ∧
    exec (.vop st func type gd ga gb gc cm1) s = .next (u.doVop st func type (s.g st gd) (s.g st ga) (s.g st gb) (s.g st gc) (cm1 + 1)) := by
  obtain ⟨u, hread, hissue⟩ := State.issue_vec hi (.vop st func type gd ga gb gc cm1) (effVop st func type gd ga gb gc cm1) hq
    (.vop func type (s.g st gd) (s.g st ga) (s.g st gb) (s.g st gc) (cm1 + 1)) (by simp only [effVop, State.g_issued])
  refine ⟨u, hread, ?_⟩
  change execVop _ _ _ _ _ _ _ _ _ = _
  rw [execVop, if_pos hw, hissue]
  rfl
/-- QNT, alone or as FUNC 10 of VOP. -/
theorem exec_qnt (ht : type.val ≤ 1) {i : Instr} (h : i = .qnt st type gd ga gb gc cm1 ∨ i = .vop st 10 type gd ga gb gc cm1) :
    ∃ u, (s.issued st).glances u st ∧
      exec i s = .next (u.doQnt st type (s.g st gd) (s.g st ga) (s.g st gb) (s.g st gc) (cm1 + 1)) := by
  rcases h with rfl | rfl
  · obtain ⟨u, hread, hissue⟩ := State.issue_vec hi (.qnt st type gd ga gb gc cm1) (effQnt st type gd ga gb gc cm1) hq
      (.qnt type (s.g st gd) (s.g st ga) (s.g st gb) (s.g st gc) (cm1 + 1)) (by simp only [effQnt, State.g_issued])
    refine ⟨u, hread, ?_⟩
    change execQnt _ _ _ _ _ _ _ _ = _
    rw [execQnt, if_pos ht, hissue]
    rfl
  · have hw : vopFields 10 type = true := decide_eq_true ⟨by decide, by omega, by omega⟩
    exact exec_vop hi hq hw

end

/-- Settles O34, by the words that VOP and QNT store once they have read their operands. That operands are read before anything is
written is log 77, that the instruction completes when it begins log 15. -/
theorem vectorUnit : Obligations.VectorUnit := by
  unfold Obligations.VectorUnit
  intro s st type gd ga gb gc cm1 hi hq hc x n rest elems
  have hn : n ≤ 4096 := cm1.isLt
  have hclean := State.clean_issued hc
  refine ⟨fun func hw hf => ?vop, fun ht i h => ?qnt⟩
  case vop =>
    obtain ⟨u, hread, hexec⟩ := exec_vop (gd := gd) (ga := ga) (gb := gb) (gc := gc) (cm1 := cm1) hi hq hw
    obtain ⟨v, hread', hstore⟩ := State.stores_doVop (hread.readies.clean hclean) hf hn type (s.g st gd) (s.g st ga) (s.g st gb) (s.g st gc)
    have hall := hread.trans hread'
    rw [Stand.vopWords_congr (hread.readies.word.trans (s.word_issued st))] at hstore
    have hlen := x.length_vopWords_le func type (s.g st ga) (s.g st gb) (s.g st gc) n
    refine ⟨_, hexec, State.standWork_stores hall hstore, fun i hi => hstore.word_add hi (hlen.trans (by omega)), fun a ha hout => ?_⟩
    rw [hstore.word_out ha hout, hall.readies.word, State.word_issued]
  case qnt =>
    obtain ⟨u, hread, hexec⟩ := exec_qnt hi hq ht h
    refine ⟨fun hbad => ⟨_, hexec, ?bad⟩, fun hbad => ⟨_, hexec, ?good⟩⟩
    case bad =>
      rw [State.doQnt, if_pos hbad, State.operandErr]
      exact ⟨State.standWork_log hread _, by rw [State.stand_log, hread.own, State.stand_issued]⟩
    case good =>
      obtain ⟨v, hread', hstore⟩ := State.stores_doQnt (hread.readies.clean hclean) hbad hn type (s.g st gd) (s.g st ga) (s.g st gb)
      rw [Stand.qntValues_congr (hread.readies.word.trans (s.word_issued st))] at hstore
      have hfew : n ≤ 1024 ∧ s.g st gc % 8 ≤ 5 := by
        simp only [qntBad, bits_low, decide_eq_false_iff_not] at hbad
        omega
      have hlen : (x.qntValues type (s.g st ga) (s.g st gb) (s.g st gc) n).length = n := by simp [Stand.qntValues]
      refine ⟨State.standWork_stores (hread.trans hread') hstore,
        hstore.vec (by simp [qntHdr]; omega) (by simp [qntHdr]) (by simp [qntHdr]; omega), fun k hk => ?_⟩
      have helem := hstore.rawElem_packed (by omega) hlen.le (hlen.symm ▸ hk) (by omega)
      rwa [Stand.getD_qntValues _ _ _ _ _ hk] at helem

end Sys2Proof.Machine
end

section
/-! VTOPK, VSMP and VACC (05 R142 to R145; 06 R168): identifiers are compared as signed numbers and values stored canonical (log 78);
operands are read before results are written (log 77). -/

namespace Sys2Proof.Machine

/-! ## Ranking (R142) -/

/-- Rank of a value: that of R137, a NaN below every number. -/
def valueRank (w : Word) : WithBot Int := if isNan w then ⊥ else ((ordKey (canon w) : Int) : WithBot Int)

theorem flt_iff (a b : Word) : flt a b = true ↔ valueRank a < valueRank b := by
  unfold flt valueRank
  cases isNan a <;> cases isNan b <;> simp
theorem rankBefore_iff (a b : Cand) :
    rankBefore a b = true ↔ valueRank b.1 < valueRank a.1 ∨ (valueRank a.1 = valueRank b.1 ∧ a.2.toInt < b.2.toInt) := by
  unfold rankBefore
  simp only [flt_iff, BitVec.slt]
  split
  case isTrue h => simp [h]
  case isFalse h =>
    split
    case isTrue h' => simp [h, h'.ne]
    case isFalse h' => simp [le_antisymm (not_lt.mp h) (not_lt.mp h')]
/-- Candidate a does not come after b. -/
def rankAtMost (a b : Cand) : Prop := rankBefore b a = false

theorem rankAtMost_iff (a b : Cand) : rankAtMost a b ↔
    valueRank b.1 < valueRank a.1 ∨ (valueRank a.1 = valueRank b.1 ∧ a.2.toInt ≤ b.2.toInt) := by
  rw [rankAtMost, ← Bool.not_eq_true, rankBefore_iff]
  rcases lt_trichotomy (valueRank a.1) (valueRank b.1) with h | h | h
  · simp [h, h.not_gt, h.ne]
  · simp [h]
  · simp [h, h.not_gt, h.ne]
theorem rankAtMost_of_rankBefore {a b : Cand} (h : rankBefore a b = true) : rankAtMost a b := by
  rw [rankBefore_iff] at h
  exact (rankAtMost_iff a b).mpr (h.imp_right fun h => ⟨h.1, h.2.le⟩)
theorem rankAtMost.trans {a b c : Cand} (h : rankAtMost a b) (k : rankAtMost b c) : rankAtMost a c := by
  rw [rankAtMost_iff] at *
  rcases h with h | ⟨h, hid⟩ <;> rcases k with k | ⟨k, kid⟩
  · exact .inl (k.trans h)
  · exact .inl (k ▸ h)
  · exact .inl (h ▸ k)
  · exact .inr ⟨h.trans k, hid.trans kid⟩

theorem rankInsert_perm (c : Cand) : ∀ l, (rankInsert c l).Perm (c :: l)
  | [] => .refl _
  | x :: l => by
    unfold rankInsert
    split
    case isTrue => exact .refl _
    case isFalse => exact ((rankInsert_perm c l).cons x).trans (.swap c x l)
theorem rankInsert_pairwise (c : Cand) : ∀ l, l.Pairwise rankAtMost → (rankInsert c l).Pairwise rankAtMost
  | [], _ => List.pairwise_singleton _ c
  | x :: l, h => by
    obtain ⟨hx, hl⟩ := List.pairwise_cons.mp h
    unfold rankInsert
    split
    case isTrue hc =>
      have hcx := rankAtMost_of_rankBefore hc
      refine List.pairwise_cons.mpr ⟨fun y hy => ?_, h⟩
      rcases List.mem_cons.mp hy with rfl | hy
      · exact hcx
      · exact hcx.trans (hx y hy)
    case isFalse hc =>
      refine List.pairwise_cons.mpr ⟨fun y hy => ?_, rankInsert_pairwise c l hl⟩
      rcases List.mem_cons.mp ((rankInsert_perm c l).mem_iff.mp hy) with rfl | hy
      · exact Bool.eq_false_iff.mpr hc
      · exact hx y hy
/-- Candidates are ranked by inserting one after another. -/
theorem foldl_rankInsert (l : List Cand) : ∀ acc : List Cand, acc.Pairwise rankAtMost →
    (l.foldl (fun a c => rankInsert c a) acc).Perm (l ++ acc) ∧ (l.foldl (fun a c => rankInsert c a) acc).Pairwise rankAtMost := by
  induction l with
  | nil => exact fun acc h => ⟨.refl _, h⟩
  | cons c l ih =>
    intro acc h
    obtain ⟨hperm, hsorted⟩ := ih (rankInsert c acc) (rankInsert_pairwise c acc h)
    exact ⟨hperm.trans (((rankInsert_perm c acc).append_left l).trans List.perm_middle), hsorted⟩
theorem ranked_perm (l : List Cand) : (ranked l).Perm l := by
  have h := (foldl_rankInsert l [] .nil).1
  rwa [List.append_nil] at h
theorem ranked_pairwise (l : List Cand) : (ranked l).Pairwise rankAtMost := (foldl_rankInsert l [] .nil).2

/-! ## VTOPK (R168) -/

theorem length_candWords (l : List Cand) : (candWords l).length = l.length * 2 :=
  length_flatMap_const (f := fun c : Cand => [c.1, c.2]) (fun _ => rfl) l
theorem getD_candWords {l : List Cand} {i : Nat} (h : i < l.length) :
    (candWords l).getD (i * 2) 0 = l[i].1 ∧ (candWords l).getD (i * 2 + 1) 0 = l[i].2 :=
  ⟨getD_flatMap (f := fun c : Cand => [c.1, c.2]) (L := 2) (k := 0) (by decide) h fun _ => rfl,
    getD_flatMap (f := fun c : Cand => [c.1, c.2]) (L := 2) (k := 1) (by decide) h fun _ => rfl⟩

/-- The candidates that VTOPK reads. -/
def Stand.cands (x : Stand) (a b n : Nat) (merge : Bool) : List Cand := (List.range n).map fun i =>
  if merge then (canon (x.word (a + 2 * i)), x.word (a + 2 * i + 1)) else (canon (x.word (a + i)), BitVec.ofNat 32 (b + i))

theorem Stand.cands_congr {x y : Stand} (h : x.word = y.word) : x.cands = y.cands := by
  funext a b n merge
  simp only [Stand.cands, h]

/-- VTOPK reads its candidates, then stores the first k in ranked order. -/
theorem State.stores_doVtopk {s : State} {st k n : Nat} (hc : (s.stand st).clean) (hk : k ≤ 64) (d a b : Nat) (merge : Bool) :
    ∃ u, s.glances u st ∧ u.stores (s.doVtopk st k d a b n merge) st d (candWords ((ranked ((s.stand st).cands a b n merge)).take k)) := by
  obtain ⟨hwords, hread⟩ := State.glances_readWords hc 18 0x41 (wa a) (if merge then 2 * n else n)
  rw [State.doVtopk]
  generalize s.readWords st 18 0x41 (wa a) (if merge then 2 * n else n) = r at hwords hread
  have hcands : ((List.range n).map fun i => if merge then (canon (r.1.getD (2 * i) 0), r.1.getD (2 * i + 1) 0)
      else (canon (r.1.getD i 0), BitVec.ofNat 32 (b + i))) = (s.stand st).cands a b n merge := by
    refine List.map_congr_left fun i hi => ?_
    have hlt := List.mem_range.mp hi
    rw [hwords, Stand.run_wa]
    cases merge with
    | true => simp only [if_true]; rw [Stand.getD_run _ (by omega), Stand.getD_run _ (by omega), Nat.add_assoc]
    | false => simp only [Bool.false_eq_true, if_false]; rw [Stand.getD_run _ hlt]
  have hlen : (candWords ((ranked ((s.stand st).cands a b n merge)).take k)).length ≤ 65536 := by
    rw [length_candWords, List.length_take]
    omega
  rw [hcands]
  exact ⟨_, hread, State.stores_writeWords (hread.readies.clean hc) 18 0x41 d hlen⟩

/-! ## VSMP (R143, R168) -/

/-- The token that VSMP picks, from the words of its stand. -/
def Stand.token (x : Stand) (a k p : Nat) : Word :=
  let w := fun i => x.word (p + i)
  sample ((List.range k).map fun i => (x.word (a + 2 * i), x.word (a + 2 * i + 1))) (w 0) (w 1)
    (draw ((w 2).setWidth 64 ||| ((w 3).setWidth 64 <<< 32)) (w 4).toNat)

theorem Stand.token_congr {x y : Stand} (h : x.word = y.word) : x.token = y.token := by
  funext a k p
  simp only [Stand.token, h]
/-- VSMP reads candidates and parameters, then stores the token. -/
theorem State.stores_doVsmp {s : State} {st : Nat} (hc : (s.stand st).clean) (d a k p : Nat) :
    ∃ u, s.glances u st ∧ u.stores (s.doVsmp st d a k p) st d [(s.stand st).token a k p] := by
  obtain ⟨hcands, hread⟩ := State.glances_readWords hc 18 0x42 (wa a) (2 * k)
  rw [State.doVsmp]
  generalize s.readWords st 18 0x42 (wa a) (2 * k) = r at hcands hread
  obtain ⟨hparams, hread'⟩ := State.glances_readWords (hread.readies.clean hc) 18 0x42 (wa p) 5
  replace hread' := hread.trans hread'
  dsimp only
  generalize r.2.readWords st 18 0x42 (wa p) 5 = q at hparams hread'
  have htoken : sample ((List.range k).map fun i => (r.1.getD (2 * i) 0, r.1.getD (2 * i + 1) 0)) (q.1.getD 0 0) (q.1.getD 1 0)
      (draw ((q.1.getD 2 0).setWidth 64 ||| ((q.1.getD 3 0).setWidth 64 <<< 32)) (q.1.getD 4 0).toNat) = (s.stand st).token a k p := by
    have hlist : ((List.range k).map fun i => (r.1.getD (2 * i) 0, r.1.getD (2 * i + 1) 0)) =
        (List.range k).map fun i => ((s.stand st).word (a + 2 * i), (s.stand st).word (a + 2 * i + 1)) := by
      refine List.map_congr_left fun i hi => ?_
      have hlt := List.mem_range.mp hi
      rw [hcands, Stand.run_wa, Stand.getD_run _ (by omega), Stand.getD_run _ (by omega), Nat.add_assoc]
    have hword : ∀ i, i < 5 → q.1.getD i 0 = (s.stand st).word (p + i) := fun i hi => by
      rw [hparams, Stand.run_wa, hread.readies.run, Stand.getD_run _ hi]
    rw [hlist, hword 0 (by decide), hword 1 (by decide), hword 2 (by decide), hword 3 (by decide), hword 4 (by decide), Stand.token]
  rw [htoken]
  exact ⟨_, hread', State.stores_writeWords (hread'.readies.clean hc) 18 0x42 d (by simp)⟩

/-! ## VACC (R145, R168) -/

/-- The accepted guesses are the longest agreeing run from the front. -/
theorem accepted_spec : ∀ (gs ys : List Word), gs.length < ys.length → accepted gs ys ≤ gs.length ∧
    (∀ i, i < accepted gs ys → gs.getD i 0 = ys.getD i 0) ∧
    (accepted gs ys < gs.length → gs.getD (accepted gs ys) 0 ≠ ys.getD (accepted gs ys) 0)
  | [], _ => fun _ => ⟨Nat.le_refl _, fun i hi => absurd hi (Nat.not_lt_zero i), fun h => absurd h (Nat.lt_irrefl _)⟩
  | g :: gs, [] => fun h => absurd h (Nat.not_lt_zero _)
  | g :: gs, y :: ys => fun h => by
    obtain ⟨hle, hsame, hdiff⟩ := accepted_spec gs ys (Nat.lt_of_succ_lt_succ h)
    unfold accepted
    split
    case isTrue heq =>
      refine ⟨Nat.succ_le_succ hle, fun i hi => ?_, fun hlt => hdiff (Nat.lt_of_succ_lt_succ hlt)⟩
      cases i with
      | zero => exact heq
      | succ i => exact hsame i (Nat.lt_of_succ_lt_succ hi)
    case isFalse hne => exact ⟨Nat.zero_le _, fun i hi => absurd hi (Nat.not_lt_zero i), fun _ => hne⟩

/-- What VACC emits: the accepted count, the accepted guesses and the token after them. -/
def Stand.emitted (x : Stand) (a b g : Nat) : List Word :=
  let n := accepted (x.run a g) (x.run b (g + 1))
  BitVec.ofNat 32 n :: ((x.run a g).take n ++ [(x.run b (g + 1)).getD n 0])
theorem Stand.emitted_congr {x y : Stand} (h : x.word = y.word) : x.emitted = y.emitted := by
  funext a b g
  simp only [Stand.emitted, Stand.run, h]
/-- Words of what is emitted, when n guesses are accepted. -/
theorem Stand.getD_emitted (x : Stand) (a b g : Nat) (n : Nat) (hn : n = accepted (x.run a g) (x.run b (g + 1))) (hg : n ≤ g) :
    (x.emitted a b g).length = n + 2 ∧ (x.emitted a b g).getD 0 0 = BitVec.ofNat 32 n ∧
    (∀ i, i < n → (x.emitted a b g).getD (1 + i) 0 = x.word (a + i)) ∧ (x.emitted a b g).getD (1 + n) 0 = x.word (b + n) := by
  have htake : ((x.run a g).take n).length = n := by simpa using hg
  rw [Stand.emitted, ← hn]
  refine ⟨by simp [hg], rfl, fun i hi => ?_, ?_⟩
  · rw [Nat.add_comm 1, List.getD_cons_succ, List.getD_append _ _ _ _ (by omega), ← Stand.getD_run x (n := g) (by omega)]
    simp [List.getD_eq_getElem?_getD, hi]
  · rw [Nat.add_comm 1, List.getD_cons_succ, List.getD_append_right _ _ _ _ htake.le, htake, Nat.sub_self, Stand.getD_run x (by omega)]
    rfl
/-- The counts of guesses offered and accepted and of tokens (R148). -/
def State.vaccCounts (s : State) (g n : Nat) : State := ((s.count 0x524005 g).count 0x524006 n).count 0x524007 (n + 1)

theorem State.counter_vaccCounts (s : State) (g n : Nat) : (s.vaccCounts g n).counter 0x524005 = (s.counter 0x524005 + g) % 2 ^ 64 ∧
    (s.vaccCounts g n).counter 0x524006 = (s.counter 0x524006 + n) % 2 ^ 64 ∧
    (s.vaccCounts g n).counter 0x524007 = (s.counter 0x524007 + (n + 1)) % 2 ^ 64 := by
  refine ⟨?_, ?_, ?_⟩ <;> simp [State.vaccCounts, State.counter_count_ne]
theorem State.standWork_vaccCounts {s t : State} {st : Nat} (h : s.standWork t st) (g n : Nat) : s.standWork (t.vaccCounts g n) st := by
  obtain ⟨hframe, hregs, hothers⟩ := h
  refine ⟨?_, hregs, hothers⟩
  rw [hframe]
  rfl

/-- VACC reads guesses and tokens, then stores what it emits and counts. -/
theorem State.stores_doVacc {s : State} {st g : Nat} (hc : (s.stand st).clean) (hg : g ≤ 4) (d a b : Nat) :
    ∃ u t, s.glances u st ∧ u.stores t st d ((s.stand st).emitted a b g) ∧
      s.doVacc st d a b g = t.vaccCounts g (accepted ((s.stand st).run a g) ((s.stand st).run b (g + 1))) := by
  obtain ⟨hguesses, hread⟩ := State.glances_readWords hc 18 0x43 (wa a) g
  rw [State.doVacc]
  generalize s.readWords st 18 0x43 (wa a) g = r at hguesses hread
  obtain ⟨htokens, hread'⟩ := State.glances_readWords (hread.readies.clean hc) 18 0x43 (wa b) (g + 1)
  rw [hread.readies.run, Stand.run_wa] at htokens
  rw [Stand.run_wa] at hguesses
  replace hread' := hread.trans hread'
  rw [hguesses, htokens]
  have hlen : ((s.stand st).emitted a b g).length ≤ 65536 := by simp [Stand.emitted]; omega
  exact ⟨_, _, hread', State.stores_writeWords (hread'.readies.clean hc) 18 0x43 d hlen, rfl⟩

/-! ## Issue -/

section
variable {s : State} {st : StandId} (hi : s.issues st) (hq : (s.stand st).vecQ = [])
include hi hq

theorem exec_vtopk {km1 : Fin 64} {gd ga gb : Reg} {cm1 : Fin 4096} {merge : Bool} (hw : merge = false ∨ cm1.val + 1 = 2 * (km1.val + 1)) :
    ∃ u, (s.issued st).glances u st ∧
      exec (.vtopk st km1 gd ga gb cm1 merge) s = .next (u.doVtopk st (km1 + 1) (s.g st gd) (s.g st ga) (s.g st gb) (cm1 + 1) merge) := by
  obtain ⟨u, hread, hissue⟩ := State.issue_vec hi (.vtopk st km1 gd ga gb cm1 merge) (effVtopk st km1 gd ga gb cm1 merge) hq
    (.vtopk (km1 + 1) (s.g st gd) (s.g st ga) (s.g st gb) (cm1 + 1) merge) (by simp only [effVtopk, State.g_issued])
  refine ⟨u, hread, ?_⟩
  change execVtopk _ _ _ _ _ _ _ _ = _
  rw [execVtopk, if_pos hw, hissue]
  rfl
theorem exec_vsmp (gd ga : Reg) (km1 : Fin 64) (gp : Reg) : ∃ u, (s.issued st).glances u st ∧
    exec (.vsmp st gd ga km1 gp) s = .next (u.doVsmp st (s.g st gd) (s.g st ga) (km1 + 1) (s.g st gp)) := by
  obtain ⟨u, hread, hissue⟩ := State.issue_vec hi (.vsmp st gd ga km1 gp) (effVsmp st gd ga km1 gp) hq
    (.vsmp (s.g st gd) (s.g st ga) (km1 + 1) (s.g st gp)) (by simp only [effVsmp, State.g_issued])
  refine ⟨u, hread, ?_⟩
  change execVsmp _ _ _ _ _ _ = _
  rw [execVsmp, hissue]
  rfl
theorem exec_vacc (gd ga gb : Reg) {g : Fin 8} (hg : g.val ≤ 4) : ∃ u, (s.issued st).glances u st ∧
    exec (.vacc st gd ga gb g) s = .next (u.doVacc st (s.g st gd) (s.g st ga) (s.g st gb) g) := by
  obtain ⟨u, hread, hissue⟩ := State.issue_vec hi (.vacc st gd ga gb g) (effVacc st gd ga gb g) hq
    (.vacc (s.g st gd) (s.g st ga) (s.g st gb) g) (by simp only [effVacc, State.g_issued])
  refine ⟨u, hread, ?_⟩
  change execVacc _ _ _ _ _ _ = _
  rw [execVacc, if_pos hg, hissue]
  rfl

end

/-- Settles O35, by the words that the three instructions store once they have read their operands (log 77), and by the order in which
candidates are ranked (log 78). -/
theorem samplingUnit : Obligations.SamplingUnit := by
  unfold Obligations.SamplingUnit
  intro s st hi hq hc x rest
  have hclean := State.clean_issued hc
  have hsame : ∀ {u : State}, (s.issued st).glances u st → (u.stand st).word = x.word := fun hread =>
    hread.readies.word.trans (s.word_issued st)
  refine ⟨?topk, fun cs => ⟨ranked_perm cs, ranked_pairwise cs⟩, fun gd ga km1 gp => ?smp,
    fun gd ga gb g hg => ?acc⟩
  case topk =>
    intro km1 gd ga gb cm1 merge hw cs
    obtain ⟨u, hread, hexec⟩ := exec_vtopk (gd := gd) (ga := ga) (gb := gb) hi hq hw
    obtain ⟨v, hread', hstore⟩ := State.stores_doVtopk (n := cm1 + 1)
      (hread.readies.clean hclean) km1.isLt (s.g st gd) (s.g st ga) (s.g st gb) merge
    rw [Stand.cands_congr (hsame hread)] at hstore
    change v.stores _ st _ (candWords ((ranked cs).take (km1 + 1))) at hstore
    have hlen : (ranked cs).length = cm1 + 1 := by rw [(ranked_perm cs).length_eq]; simp [cs]
    refine ⟨_, hexec, State.standWork_stores (hread.trans hread') hstore, fun i hi => ?_⟩
    obtain ⟨hik, hin⟩ := lt_min_iff.mp hi
    have htake : i < ((ranked cs).take (km1 + 1)).length := by rw [List.length_take, hlen]; exact lt_min hik hin
    have hsize := length_candWords ((ranked cs).take (km1 + 1))
    have hmost : ((ranked cs).take (km1 + 1)).length ≤ 64 := (List.length_take_le ..).trans km1.isLt
    obtain ⟨hvalue, hid⟩ := getD_candWords htake
    have hcand : (ranked cs).getD i (0, 0) = ((ranked cs).take (km1 + 1))[i] := by rw [List.getD_eq_getElem _ _ (hlen ▸ hin), List.getElem_take]
    rw [hcand, ← hvalue, ← hid, Nat.mul_comm 2 i, Nat.add_assoc]
    exact ⟨hstore.word_add (by omega) (by omega), hstore.word_add (by omega) (by omega)⟩
  case smp =>
    obtain ⟨u, hread, hexec⟩ := exec_vsmp hi hq gd ga km1 gp
    obtain ⟨v, hread', hstore⟩ := State.stores_doVsmp (hread.readies.clean hclean) (s.g st gd) (s.g st ga) (km1 + 1) (s.g st gp)
    rw [Stand.token_congr (hsame hread)] at hstore
    refine ⟨_, hexec, State.standWork_stores (hread.trans hread') hstore, hstore.word_add (i := 0) (by simp) (by simp), fun a ha hout => ?_⟩
    rw [hstore.word_out ha fun i hi => ?_, hsame (hread.trans hread')]
    obtain rfl : i = 0 := by simpa using hi
    exact hout
  case acc =>
    obtain ⟨u, hread, hexec⟩ := exec_vacc hi hq gd ga gb hg
    obtain ⟨v, w, hread', hstore, hcount⟩ := State.stores_doVacc (hread.readies.clean hclean) hg (s.g st gd) (s.g st ga) (s.g st gb)
    have hwords : (u.stand st).run = x.run := Stand.run_congr_word (hsame hread)
    rw [hwords] at hcount
    rw [Stand.emitted_congr (hsame hread)] at hstore
    obtain ⟨hle, hagree, hdiffer⟩ := accepted_spec (x.run (s.g st ga) g) (x.run (s.g st gb) (g + 1)) (by simp)
    generalize hn : accepted (x.run (s.g st ga) g) (x.run (s.g st gb) (g + 1)) = n at hcount hle hagree hdiffer
    rw [Stand.length_run] at hle hdiffer
    obtain ⟨hlen, hfirst, hguess, htoken⟩ := x.getD_emitted (s.g st ga) (s.g st gb) g n hn.symm hle
    obtain ⟨hwork, hpc⟩ := State.standWork_stores (hread.trans hread') hstore
    refine ⟨_, hexec, ?_⟩
    rw [hcount]
    have hstored : ∀ i, i < n + 2 → (w.stand st).word (s.g st gd + i) = (x.emitted (s.g st ga) (s.g st gb) g).getD i 0 :=
      fun i hi => hstore.word_add (by omega) (by omega)
    obtain ⟨hoffered, haccepted, htokens⟩ := w.counter_vaccCounts g n
    rw [hstore.counter, (hread.trans hread').counter, State.counter_issued_ne _ _ (by decide)] at hoffered haccepted htokens
    refine ⟨⟨State.standWork_vaccCounts hwork g n, hpc⟩, n, hle, fun i hi => ?_, fun hlt => ?_, (hstored 0 (by omega)).trans hfirst,
      fun i hi => ?_, ?_, hoffered, haccepted, htokens⟩
    · have h := hagree i hi
      rwa [Stand.getD_run _ (by omega), Stand.getD_run _ (by omega)] at h
    · have h := hdiffer hlt
      rwa [Stand.getD_run _ hlt, Stand.getD_run _ (by omega)] at h
    · rw [Nat.add_assoc, ← hguess i hi]
      exact hstored _ (by omega)
    · rw [Nat.add_assoc, ← htoken]
      exact hstored _ (by omega)

end Sys2Proof.Machine
end

section
/-! The terms and the stored form of a matrix operation (03 R93; 05 R124, R126). -/

namespace Sys2Proof.Machine

theorem signedOf_zero (w : Nat) : signedOf w 0 = 0 := by simp [signedOf]
/-- Recorded width of a buffer. -/
def Dmu.width (d : Dmu) (y : Bool) : Nat := if y then d.wy else d.wx
/-- A buffer of a width that the mode takes is read as it is stored, one of another width as zeros. -/
theorem Dmu.intOp_eq (d : Dmu) (mode : Nat) (y : Bool) (idx : Nat) : d.intOp mode y idx =
    if widthOk mode y (d.width y) then signedOf (d.width y) (bufElem (d.buf y) (d.width y) idx) else 0 := by
  change signedOf (d.width y) (if widthOk mode y (d.width y) then bufElem (d.buf y) (d.width y) idx else 0) = _
  split
  case isTrue => rfl
  case isFalse => exact signedOf_zero _
/-- In the integer modes a term is the product of its operands. -/
theorem Dmu.term_int (d : Dmu) {mode : Nat} (h : mode ≠ 2) (kk xb yb : Nat) (xf yf : Bool) (i j k : Nat) :
    (d.term mode kk xb yb xf yf i j k).1 = d.intOp mode false (xb + i * kk + k) * d.intOp mode true (yb + k * 32 + j) := by
  rw [Dmu.term, if_neg h]
/-- A NaN or infinite operand gives 0, and nothing is rounded (R93). -/
theorem fp8prod_of_none {xf : Bool} {a : Nat} (h : fp8 xf a = none) (yf : Bool) (b : Nat) : fp8prod xf yf a b = (0, false) := by
  rw [fp8prod, h]
theorem toInt_accStore_int {mode : Nat} (h : mode ≠ 2) (v : Int) : (accStore mode v).toInt = v.bmod (2 ^ 48) := by
  rw [accStore, if_neg h, BitVec.toInt_signExtend_of_le (by decide), BitVec.toInt_ofInt]
theorem toInt_accStore_fp8 (v : Int) : (accStore 2 v).toInt = v.bmod (2 ^ 64) := by
  rw [accStore, if_pos rfl, BitVec.toInt_ofInt]

/-- Settles O32, by what an operand of a buffer at a width is. -/
theorem matrixTerms : Obligations.MatrixTerms := by
  unfold Obligations.MatrixTerms
  intro d mode kk xb yb i j k xf yf xi yi
  refine ⟨?int8, ?int4, ?otherWidth, ?nonFinite, fun v => ⟨fun h => toInt_accStore_int h v, fun h => h ▸ toInt_accStore_fp8 v⟩⟩
  case int8 =>
    rintro rfl hx hy
    have hwx : d.width false = 8 := hx
    have hwy : widthOk 0 true (d.width true) = true := by
      change widthOk 0 true d.wy = true
      rcases hy with hy | hy <;> rw [hy] <;> rfl
    rw [Dmu.term_int d (by decide), Dmu.intOp_eq, Dmu.intOp_eq, hwx, if_pos hwy]
    rfl
  case int4 =>
    rintro rfl hx hy
    have hwx : d.width false = 4 := hx
    have hwy : d.width true = 4 := hy
    rw [Dmu.term_int d (by decide), Dmu.intOp_eq, Dmu.intOp_eq, hwx, hwy]
    rfl
  case otherWidth =>
    rintro rfl hx
    have hwx : widthOk 0 false (d.width false) = false := by simpa [widthOk, Dmu.width] using hx
    rw [Dmu.term_int d (by decide), Dmu.intOp_eq, hwx, if_neg Bool.false_ne_true, Int.zero_mul]
  case nonFinite =>
    rintro rfl hnone
    rw [Dmu.term, if_pos rfl]
    exact fp8prod_of_none hnone _ _

end Sys2Proof.Machine
end

section
/-! XLD (05 R126; 06 R166): the elements that a load leaves in its buffer, at the width that it records. Other formats load zeros at
width 8, and indices wrap at the buffer's size (log 76). -/

namespace Sys2Proof.Machine

/-! ## Elements of a buffer (R126) -/

theorem bufCap_ge (w : Nat) : 32768 ≤ bufCap w := by unfold bufCap; split <;> decide

/-- A stored element comes back as its low bits; an element at another place stays. -/
theorem bufElem_bufPut (b : Tab Byte) {w : Nat} (hw : w = 4 ∨ w = 8) (idx v k : Nat) :
    bufElem (bufPut b w idx v) w k = if k % bufCap w = idx % bufCap w then v % 2 ^ w else bufElem b w k := by
  rcases hw with rfl | rfl
  · simp only [bufElem, bufPut, bufCap, if_true, Tab.get_set]
    generalize k % 65536 = j
    generalize idx % 65536 = i
    by_cases hbyte : j / 2 = i / 2
    · have hold := (Tab.get 0 b (i / 2)).isLt
      rw [if_pos hbyte, hbyte, BitVec.toNat_ofNat]
      generalize (Tab.get 0 b (i / 2)).toNat = o at hold
      rcases Nat.mod_two_eq_zero_or_one i with hi | hi <;> rcases Nat.mod_two_eq_zero_or_one j with hj | hj
      · rw [if_pos hi, if_pos (by omega), hj]; omega
      · rw [if_pos hi, if_neg (by omega), hj]; omega
      · rw [if_neg (by omega), if_neg (by omega), hj]; omega
      · rw [if_neg (by omega), if_pos (by omega), hj]; omega
    · rw [if_neg hbyte, if_neg (by omega)]
  · simp only [bufElem, bufPut, bufCap, Nat.reduceEqDiff, if_false, Tab.get_set]
    split
    case isTrue => exact BitVec.toNat_ofNat ..
    case isFalse => rfl

theorem bufElem_bufPuts_out {w : Nat} (hw : w = 4 ∨ w = 8) (j : Nat) : ∀ (vs : List Nat) (b : Tab Byte) (i : Nat),
    (∀ k, k < vs.length → j % bufCap w ≠ (i + k) % bufCap w) → bufElem (bufPuts b w i vs) w j = bufElem b w j
  | [], _, _ => fun _ => rfl
  | v :: vs, b, i => fun h => by
    have hnext : ∀ k, k < vs.length → j % bufCap w ≠ (i + 1 + k) % bufCap w := fun k hk => by
      have := h (k + 1) (Nat.succ_lt_succ hk)
      rwa [Nat.add_comm k 1, ← Nat.add_assoc] at this
    rw [bufPuts, bufElem_bufPuts_out hw j vs _ _ hnext, bufElem_bufPut b hw, if_neg (by simpa using h 0 (Nat.succ_pos _))]
/-- Indices of fewer elements than a buffer holds do not meet. -/
theorem add_mod_ne {c i k : Nat} (hk : 0 < k) (hc : k < c) : i % c ≠ (i + k) % c := fun h => by
  have hdvd : c ∣ k := (Nat.modEq_zero_iff_dvd).mp (Nat.ModEq.add_left_cancel' i (by simpa [Nat.ModEq] using h.symm))
  exact absurd (Nat.le_of_dvd hk hdvd) (by omega)
/-- Loaded elements come back from their places. -/
theorem bufElem_bufPuts {w : Nat} (hw : w = 4 ∨ w = 8) : ∀ (vs : List Nat) (b : Tab Byte) (i k : Nat), vs.length ≤ bufCap w →
    k < vs.length → bufElem (bufPuts b w i vs) w (i + k) = vs.getD k 0 % 2 ^ w
  | [], _, _, k => fun _ hk => absurd hk (Nat.not_lt_zero k)
  | v :: vs, b, i, 0 => fun hl _ => by
    rw [bufPuts, bufElem_bufPuts_out hw _ vs _ _ fun k hk => ?_, bufElem_bufPut b hw]
    · simp
    · rw [Nat.add_zero, Nat.add_assoc, Nat.add_comm 1 k]
      exact add_mod_ne (Nat.succ_pos k) (by simp only [List.length_cons] at hl; omega)
  | v :: vs, b, i, k + 1 => fun hl hk => by
    rw [bufPuts, Nat.add_comm k 1, ← Nat.add_assoc, bufElem_bufPuts hw vs _ (i + 1) k (by simp only [List.length_cons] at hl; omega)
      (Nat.lt_of_succ_lt_succ hk), Nat.add_comm 1 k, List.getD_cons_succ]

/-! ## Loading -/

section
variable (d : Dmu) (y : Bool) (w i : Nat) (vs : List Nat)

theorem Dmu.buf_load : (d.load y w i vs).buf y = bufPuts (d.buf y) w i vs := by cases y <;> rfl
theorem Dmu.buf_load_other : (d.load y w i vs).buf (!y) = d.buf (!y) := by cases y <;> rfl
theorem Dmu.width_load : (d.load y w i vs).width y = w := by cases y <;> rfl
theorem Dmu.set0_load : (d.load y w i vs).set0 = d.set0 := by cases y <;> rfl
theorem Dmu.set1_load : (d.load y w i vs).set1 = d.set1 := by cases y <;> rfl

end

/-- An element of a vector, reached from the word in which a part of it begins. -/
theorem rawElem_run_from (x : Stand) {f : Nat} (a start : Nat) {count k n : Nat} (hf : f ≠ 7) (hk : k < count) (hn : (start + k) / perWord f < n) :
    rawElem f (x.run (a + start / perWord f) (ceilDiv (start % perWord f + count) (perWord f))) (start % perWord f + k) =
      rawElem f (x.run a n) (start + k) := by
  have hpos := perWord_pos f
  have hdiv : (start + k) / perWord f = start / perWord f + (start % perWord f + k) / perWord f := by
    conv => lhs; rw [← Nat.div_add_mod start (perWord f), Nat.add_assoc, Nat.mul_add_div hpos]
  have hmod : (start + k) % perWord f = (start % perWord f + k) % perWord f := by rw [Nat.mod_add_mod]
  have hin := div_perWord_lt_elemWords hf (Nat.add_lt_add_left hk (start % perWord f))
  rw [elemWords, if_neg hf] at hin
  rw [rawElem, rawElem, Stand.getD_run x hin, Stand.getD_run x hn, hmod, hdiv, Nat.add_assoc]

/-- A record does not depend on the stands. -/
theorem State.log_modStand (s : State) (st : Nat) (f : Stand → Stand) (r : ErrRec) : (s.modStand st f).log r = (s.log r).modStand st f := by
  by_cases h : s.rel.collector.length < 4096
  · have h' : (s.modStand st f).rel.collector.length < 4096 := h
    rw [State.log, State.log, if_pos h, if_pos h']
    rfl
  · have h' : ¬ (s.modStand st f).rel.collector.length < 4096 := h
    rw [State.log, State.log, if_neg h, if_neg h']
    rfl

/-- Width that XLD records: 4 for A4, 8 otherwise. -/
def xldWidth (f : Nat) : Nat := if f = 2 then 4 else 8
/-- Elements that XLD loads from the vector at a: those of an A8 or A4 vector from element start on, zeros for any other format. -/
def Stand.xldElems (x : Stand) (a start count : Nat) : List Nat :=
  let f := (x.vec a).fmt
  (List.range count).map fun k => if f = 2 ∨ f = 4 then rawElem f (x.run (a + 1) 20000) (start + k) else 0

/-- XLD reads its vector, then loads its buffer. -/
theorem State.doXld_loads {s : State} {st start count : Nat} (hc : (s.stand st).clean) (hs : start < 65536) (hn : count ≤ 1024) (y : Bool)
    (a didx : Nat) : ∃ u, s.readies u st ∧ s.doXld st y a start count didx = u.modStand st fun x =>
      { x with dmu := x.dmu.load y (xldWidth ((s.stand st).vec a).fmt) didx ((s.stand st).xldElems a start count) } := by
  obtain ⟨hhdr, hread⟩ := State.glances_readWords hc 17 0x38 a 1
  have hfmt : (decVec ((s.readWords st 17 0x38 a 1).1.headD 0)) = (s.stand st).vec a := by rw [hhdr]; rfl
  simp only [State.doXld, hfmt, Stand.xldElems]
  generalize (s.readWords st 17 0x38 a 1).2 = u at hread
  generalize ((s.stand st).vec a).fmt = f
  by_cases hf : f = 2 ∨ f = 4
  case pos =>
    obtain ⟨helems, hread'⟩ := State.glances_readWords (hread.readies.clean hc) 17 0x38 (a + 1 + start / perWord f)
      (ceilDiv (start % perWord f + count) (perWord f))
    have hwidth : fmtBits f = xldWidth f := by rcases hf with rfl | rfl <;> rfl
    have hper : 4 ≤ perWord f := by rcases hf with rfl | rfl <;> decide
    have hmap : ((List.range count).map fun k => rawElem f ((u.stand st).run (a + 1 + start / perWord f)
        (ceilDiv (start % perWord f + count) (perWord f))) (start % perWord f + k)) =
        (List.range count).map fun k => rawElem f ((s.stand st).run (a + 1) 20000) (start + k) := by
      refine List.map_congr_left fun k hk => ?_
      have hlt := List.mem_range.mp hk
      rw [hread.readies.run, rawElem_run_from _ _ _ (by omega) hlt]
      calc (start + k) / perWord f ≤ (start + k) / 4 := Nat.div_le_div_left hper (by decide)
        _ < 20000 := by omega
    refine ⟨_, (hread.trans hread').readies, ?_⟩
    simp only [if_pos hf]
    rw [helems, hwidth, hmap]
  case neg =>
    refine ⟨_, hread.readies.trans (u.readies_operandErr st 0x38 166 f), ?_⟩
    simp only [if_neg hf]
    rw [State.operandErr, State.log_modStand, xldWidth, if_neg fun h => hf (.inl h), List.map_const', List.length_range]
    rfl
theorem Stand.xldElems_congr {x y : Stand} (h : x.word = y.word) : x.xldElems = y.xldElems := by
  funext a start count
  have hvec : x.vec a = y.vec a := by rw [Stand.vec, h, Stand.vec]
  rw [Stand.xldElems, hvec, Stand.run_congr_word h, Stand.xldElems]
/-- The loaded elements come back from the buffer. -/
theorem Stand.bufElem_xldElems (x : Stand) (b : Tab Byte) (a start didx : Nat) {count k : Nat} (hn : count ≤ 1024) (hk : k < count) :
    let f := (x.vec a).fmt
    bufElem (bufPuts b (xldWidth f) didx (x.xldElems a start count)) (xldWidth f) (didx + k) =
      if f = 2 ∨ f = 4 then rawElem f (x.run (a + 1) 20000) (start + k) else 0 := by
  intro f
  have hw : xldWidth f = 4 ∨ xldWidth f = 8 := by unfold xldWidth; split <;> simp
  have hlen : (x.xldElems a start count).length = count := by simp [Stand.xldElems]
  have hcap := bufCap_ge (xldWidth f)
  have hget : (x.xldElems a start count).getD k 0 = if f = 2 ∨ f = 4 then rawElem f (x.run (a + 1) 20000) (start + k) else 0 := by
    rw [List.getD_eq_getElem _ _ (by omega)]
    simp [Stand.xldElems, f]
  rw [bufElem_bufPuts hw _ _ _ _ (by omega) (by omega), hget]
  split
  case isTrue hf =>
    have hbits : xldWidth f = fmtBits f := by rcases hf with hf | hf <;> rw [hf] <;> rfl
    rw [hbits, rawElem, Nat.mod_mod]
  case isFalse => exact Nat.zero_mod _

end Sys2Proof.Machine
end

section
/-! MMA and MWO at an idle matrix unit (05 R124, R127; 06 R166). -/

namespace Sys2Proof.Machine

/-! ## MMA (R124) -/

theorem Tab.get_foldl_set_out {α β : Type} [DecidableEq β] (d : β) (key : α → Nat) (v : α → β) (n : Nat) : ∀ (l : List α) (t : Tab β),
    (∀ c ∈ l, n ≠ key c) → Tab.get d (l.foldl (fun a c => Tab.set d a (key c) (v c)) t) n = Tab.get d t n
  | [], _ => fun _ => rfl
  | c :: l, t => fun h => by
    obtain ⟨hc, hl⟩ := List.forall_mem_cons.mp h
    rw [List.foldl_cons, Tab.get_foldl_set_out d key v n l _ hl, Tab.get_set_ne _ _ _ hc]
/-- Writes at different keys: each leaves its value. -/
theorem Tab.get_foldl_set_in {α β : Type} [DecidableEq β] (d : β) (key : α → Nat) (v : α → β) (c : α) : ∀ (l : List α) (t : Tab β),
    (∀ e ∈ l, key e = key c → e = c) → c ∈ l → Tab.get d (l.foldl (fun a c => Tab.set d a (key c) (v c)) t) (key c) = v c
  | [], _ => fun _ hc => absurd hc List.not_mem_nil
  | e :: l, t => fun h hc => by
    obtain ⟨he, hl⟩ := List.forall_mem_cons.mp h
    rw [List.foldl_cons]
    by_cases hin : c ∈ l
    case pos => exact Tab.get_foldl_set_in d key v c l _ hl hin
    case neg =>
      obtain rfl : c = e := (List.mem_cons.mp hc).resolve_right hin
      rw [Tab.get_foldl_set_out d key v _ l _ fun e' he' hkey => hin (hl e' he' hkey.symm ▸ he'), Tab.get_set_eq]

theorem mem_cellsOf {m n : Nat} {c : Nat × Nat} : c ∈ cellsOf m n ↔ c.1 < m ∧ c.2 < n := by
  obtain ⟨i, j⟩ := c
  simp [cellsOf]

/-- Value of cell (i, j) after an operation (R124). -/
def Dmu.cell (d : Dmu) (mode k : Nat) (add xf yf : Bool) (xb yb i j : Nat) : DWord :=
  accStore mode ((if add then (Tab.get 0 (d.set (d.count % 2)) (i * 32 + j)).toInt else 0) +
    ((List.range k).map fun e => (d.term mode k xb yb xf yf i j e).1).sum)

section
variable (d : Dmu) (mode m n k : Nat) (add xf yf : Bool) (xb yb : Nat)

theorem Dmu.set_mma : (d.mma mode m n k add xf yf xb yb).set (d.count % 2) =
    (cellsOf m n).foldl (fun a c => Tab.set 0 a (c.1 * 32 + c.2) (d.cell mode k add xf yf xb yb c.1 c.2)) (d.set (d.count % 2)) := by
  unfold Dmu.mma
  rcases Nat.mod_two_eq_zero_or_one d.count with h | h <;> rw [h] <;> simp only [Dmu.cell, h] <;> rfl
theorem Dmu.set_mma_other : (d.mma mode m n k add xf yf xb yb).set (1 - d.count % 2) = d.set (1 - d.count % 2) := by
  unfold Dmu.mma
  rcases Nat.mod_two_eq_zero_or_one d.count with h | h <;> rw [h] <;> rfl
/-- An operation leaves the operand buffers and counts itself. -/
theorem Dmu.mma_leaves : (d.mma mode m n k add xf yf xb yb).count = d.count + 1 ∧ (d.mma mode m n k add xf yf xb yb).bufX = d.bufX ∧
    (d.mma mode m n k add xf yf xb yb).bufY = d.bufY := by
  unfold Dmu.mma
  rcases Nat.mod_two_eq_zero_or_one d.count with h | h <;> rw [h] <;> exact ⟨rfl, rfl, rfl⟩

theorem Dmu.get_set_mma (hn : n ≤ 32) {i j : Nat} (hi : i < m) (hj : j < n) :
    Tab.get 0 ((d.mma mode m n k add xf yf xb yb).set (d.count % 2)) (i * 32 + j) = d.cell mode k add xf yf xb yb i j := by
  rw [Dmu.set_mma]
  refine Tab.get_foldl_set_in 0 (fun c : Nat × Nat => c.1 * 32 + c.2) (fun c => d.cell mode k add xf yf xb yb c.1 c.2) (i, j) _ _
    (fun c hc hkey => ?_) (mem_cellsOf.mpr ⟨hi, hj⟩)
  obtain ⟨-, hc2⟩ := mem_cellsOf.mp hc
  dsimp only at hkey
  exact Prod.ext (by dsimp only; omega) (by dsimp only; omega)
theorem Dmu.get_set_mma_out {p : Nat} (hp : ∀ i j, i < m → j < n → p ≠ i * 32 + j) :
    Tab.get 0 ((d.mma mode m n k add xf yf xb yb).set (d.count % 2)) p = Tab.get 0 (d.set (d.count % 2)) p := by
  rw [Dmu.set_mma]
  refine Tab.get_foldl_set_out 0 (fun c : Nat × Nat => c.1 * 32 + c.2) _ p _ _ fun c hc => ?_
  obtain ⟨hc1, hc2⟩ := mem_cellsOf.mp hc
  exact hp c.1 c.2 hc1 hc2

end

/-- The record of an operand buffer of another width (R126). -/
def State.mmaWidths (s : State) (st mode : Nat) : State :=
  if widthOk mode false (s.stand st).dmu.wx && widthOk mode true (s.stand st).dmu.wy then s else s.operandErr st 0x39 126 mode
/-- The counts of the FP8 mode, for products rounded and operands not finite, and its record (R93). -/
def State.mmaCounts (s : State) (st mode rounded bad : Nat) : State :=
  if mode = 2 then
    if bad = 0 then (s.count 0x524001 rounded).count 0x524002 bad
    else ((s.count 0x524001 rounded).count 0x524002 bad).operandErr st 0x39 93 2
  else s

theorem State.readies_mmaWidths (s : State) (st mode : Nat) : s.readies (s.mmaWidths st mode) st := by
  unfold State.mmaWidths
  split
  case isTrue => exact s.readies_refl st
  case isFalse => exact s.readies_operandErr st 0x39 126 mode
theorem State.readies_mmaCounts (s : State) (st mode rounded bad : Nat) : s.readies (s.mmaCounts st mode rounded bad) st := by
  have hcount := (s.readies_count st 0x524001 rounded).trans (State.readies_count _ st 0x524002 bad)
  unfold State.mmaCounts
  split_ifs
  · exact hcount
  · exact hcount.trans (State.readies_operandErr _ st 0x39 93 2)
  · exact s.readies_refl st
/-- The records and counts of an MMA go before its operation. -/
theorem State.doMma_runs (s : State) (st mode m n k : Nat) (add xf yf : Bool) (xb yb : Nat) : ∃ u, s.readies u st ∧
    s.doMma st mode m n k add xf yf xb yb = u.modStand st fun x => { x with dmu := x.dmu.mma mode m n k add xf yf xb yb } :=
  ⟨_, (s.readies_mmaWidths st mode).trans (State.readies_mmaCounts _ st mode ((s.stand st).dmu.rounded m n k xf yf xb yb)
    ((s.stand st).dmu.nonFinite m n k xf yf xb yb)), rfl⟩

/-! ## RAW48 vectors in the scratchpad (R67) -/

/-- An element whose two words stand in a list comes back. -/
theorem rawAcc_of_rawWords {ws : List Word} {i : Nat} {a : Acc} (h : [ws.getD (2 * i) 0, ws.getD (2 * i + 1) 0] = rawWords a) :
    rawAcc ws i = a := by
  obtain ⟨hlo, hhi⟩ : ws.getD (2 * i) 0 = BitVec.ofNat 32 (lowBits 64 a.toInt) ∧
      ws.getD (2 * i + 1) 0 = BitVec.ofNat 32 (lowBits 64 a.toInt / 2 ^ 32) := by simpa [rawWords] using h
  have hlow : lowBits 64 a.toInt % 2 ^ 48 = a.toNat := by
    have ha := a.isLt
    rw [lowBits, BitVec.toInt_eq_toNat_cond]
    split <;> omega
  have hbound := lowBits_lt 64 a.toInt
  refine BitVec.eq_of_toNat_eq ?_
  rw [rawAcc, hlo, hhi, BitVec.toNat_ofNat, BitVec.toNat_ofNat, BitVec.toNat_ofNat, ← hlow]
  omega
/-- The header of a RAW48 vector of n elements (R67). -/
def rawHdr (n : Nat) : Hdr := { pend := false, fmt := 7, signed := true, tile := 0, count := n }
theorem decVec_rawHdr {n : Nat} (h : n < 2048) : decVec (encVec (rawHdr n)) = rawHdr n :=
  decVec_encVec (h := rawHdr n) (by simp [rawHdr]) (by simp [rawHdr]) h
/-- A RAW48 vector whose words stand from b on is read back: its header and its elements. -/
theorem Stand.rawVector_at {x : Stand} {b n : Nat} {vs : List Acc} (hlen : vs.length = n) (hn : n < 2048)
    (h : ∀ k, k < 1 + 2 * n → x.word (b + k) = (encVec (rawHdr n) :: rawVector vs).getD k 0) :
    x.vec b = rawHdr n ∧ ∀ j, j < n → rawAcc (x.run (b + 1) (2 * n)) j = vs.getD j 0 := by
  refine ⟨?_, fun j hj => rawAcc_of_rawWords ?_⟩
  · rw [Stand.vec]
    exact (congrArg decVec (h 0 (by omega))).trans (decVec_rawHdr hn)
  · have hword : ∀ k, k < 2 * n → (x.run (b + 1) (2 * n)).getD k 0 = (rawVector vs).getD k 0 := fun k hk => by
      rw [Stand.getD_run x hk, Nat.add_assoc, h _ (by omega), Nat.add_comm 1 k, List.getD_cons_succ]
    have hin : j < vs.length := by omega
    rw [hword _ (by omega), hword _ (by omega), List.getD_eq_getElem _ _ hin]
    exact getD_rawVector hin

/-! ## MWO (R127) -/

/-- Words of a row of a write-out: in RAW48 a header and two words per element, in FIX64 two words, in FP32 one. -/
def rowLen (wmode n : Nat) : Nat := if wmode = 0 then 1 + 2 * n else if wmode = 1 then 2 * n else n
/-- Mode of a set's latest operation. -/
def Dmu.modeOf (d : Dmu) (set : Nat) : Option Nat := if set = 0 then d.mode0 else d.mode1
/-- A write-out of zeros: the set's mode does not fit (R127), or the set was never written (log 75). -/
def Dmu.zeroOut (d : Dmu) (wmode set : Nat) : Bool := mwoBad wmode (d.modeOf set) || (d.modeOf set).isNone
/-- Accumulator (i, j) of a set, or the zero written for it. -/
def Dmu.outAcc (d : Dmu) (wmode set i j : Nat) : DWord := if d.zeroOut wmode set then 0 else Tab.get 0 (d.set set) (i * 32 + j)
/-- Row i of a write-out. -/
def Dmu.outRow (d : Dmu) (wmode set n : Nat) (scale : Word) (i : Nat) : List Word :=
  mwoRow wmode ((d.modeOf set).getD 0) (d.zeroOut wmode set) ((List.range n).map fun j => Tab.get 0 (d.set set) (i * 32 + j)) scale

section
variable (d : Dmu) (wmode set n : Nat) (scale : Word) (i : Nat)

theorem Dmu.outRow_raw : d.outRow 0 set n scale i = encVec (rawHdr n) ::
    rawVector ((List.range n).map fun j => (d.outAcc 0 set i j).truncate 48) := by
  have hmap : ((List.range n).map fun j => Tab.get 0 (d.set set) (i * 32 + j)).map (fun v => if d.zeroOut 0 set then 0 else v.truncate 48) =
      (List.range n).map fun j => (d.outAcc 0 set i j).truncate 48 := by
    rw [List.map_map]
    refine List.map_congr_left fun j _ => ?_
    cases h : d.zeroOut 0 set <;> simp [Dmu.outAcc, h]
  rw [Dmu.outRow, mwoRow, if_pos rfl, hmap, List.length_map, List.length_range, rawHdr]
theorem Dmu.outRow_fix : d.outRow 1 set n scale i =
    (List.range n).flatMap fun j => [(d.outAcc 1 set i j).truncate 32, ((d.outAcc 1 set i j) >>> 32).truncate 32] := by
  rw [Dmu.outRow, mwoRow, if_neg (by decide), if_pos rfl, List.flatMap_map]
  refine congrArg (fun f => (List.range n).flatMap f) (funext fun j => ?_)
  cases h : d.zeroOut 1 set <;> simp [Dmu.outAcc, h]
theorem Dmu.outRow_f32 (h0 : wmode ≠ 0) (h1 : wmode ≠ 1) : d.outRow wmode set n scale i = (List.range n).map fun j =>
    if d.zeroOut wmode set then 0 else mwoF32 ((d.modeOf set).getD 0) (d.outAcc wmode set i j).toInt scale := by
  rw [Dmu.outRow, mwoRow, if_neg h0, if_neg h1, List.map_map]
  refine List.map_congr_left fun j _ => ?_
  cases h : d.zeroOut wmode set <;> simp [Dmu.outAcc, h]
theorem Dmu.length_outRow : (d.outRow wmode set n scale i).length = rowLen wmode n := by
  by_cases h0 : wmode = 0
  · subst h0
    rw [Dmu.outRow_raw, List.length_cons, length_rawVector, List.length_map, List.length_range, rowLen, if_pos rfl, Nat.add_comm]
  · by_cases h1 : wmode = 1
    · subst h1
      rw [Dmu.outRow_fix, length_flatMap_const (L := 2) fun _ => rfl, List.length_range, Nat.mul_comm]
      rfl
    · rw [Dmu.outRow_f32 _ _ _ _ _ _ h0 h1, List.length_map, List.length_range, rowLen, if_neg h0, if_neg h1]

end

section
variable (d : Dmu) (set : Nat) (scale : Word) (i : Nat) {n j : Nat} (hj : j < n)
include hj

theorem Dmu.getD_outRow_fix : (d.outRow 1 set n scale i).getD (j * 2) 0 = (d.outAcc 1 set i j).truncate 32 ∧
    (d.outRow 1 set n scale i).getD (j * 2 + 1) 0 = ((d.outAcc 1 set i j) >>> 32).truncate 32 := by
  have hget : ∀ k, k < 2 → (d.outRow 1 set n scale i).getD (j * 2 + k) 0 =
      [(d.outAcc 1 set i j).truncate 32, ((d.outAcc 1 set i j) >>> 32).truncate 32].getD k 0 := fun k hk => by
    rw [Dmu.outRow_fix, getD_flatMap hk (by simpa using hj) fun _ => rfl, List.getElem_range]
  exact ⟨hget 0 (by decide), hget 1 (by decide)⟩
theorem Dmu.getD_outRow_f32 {wmode : Nat} (h0 : wmode ≠ 0) (h1 : wmode ≠ 1) : (d.outRow wmode set n scale i).getD j 0 =
    if d.zeroOut wmode set then 0 else mwoF32 ((d.modeOf set).getD 0) (d.outAcc wmode set i j).toInt scale := by
  rw [Dmu.outRow_f32 _ _ _ _ _ _ h0 h1, List.getD_eq_getElem _ _ (by simpa using hj), List.getElem_map, List.getElem_range]

end

theorem rowLen_le (wmode n : Nat) : rowLen wmode n ≤ 1 + 2 * n := by unfold rowLen; split_ifs <;> omega

/-- MWO stores its rows one after another. -/
theorem State.stores_doMwo {s : State} {st m n : Nat} (hc : (s.stand st).clean) (hm : m ≤ 32) (hn : n ≤ 32) (wmode set a : Nat) (scale : Word) :
    ∃ u, s.readies u st ∧
      u.stores (s.doMwo st wmode set m n (wa a) scale) st a ((List.range m).flatMap ((s.stand st).dmu.outRow wmode set n scale)) := by
  have hlen : ((List.range m).flatMap ((s.stand st).dmu.outRow wmode set n scale)).length ≤ 65536 := by
    rw [length_flatMap_const fun i => Dmu.length_outRow .., List.length_range]
    have hrow : rowLen wmode n ≤ 65 := (rowLen_le wmode n).trans (by omega)
    exact (Nat.mul_le_mul hm hrow).trans (by decide)
  have hrecord : s.readies (if mwoBad wmode ((s.stand st).dmu.modeOf set) then s.operandErr st 0x3A 127 wmode else s) st := by
    split
    case isTrue => exact s.readies_operandErr st 0x3A 127 wmode
    case isFalse => exact s.readies_refl st
  exact ⟨_, hrecord, State.stores_writeWords (hrecord.clean hc) 17 0x3A a hlen⟩

section
variable {s t : State} {st a m n wmode set : Nat} {d : Dmu} {scale : Word}
  (h : s.stores t st a ((List.range m).flatMap (d.outRow wmode set n scale))) (hm : m ≤ 32) (hn : n ≤ 32) {i : Nat} (hi : i < m)
include h hm hn hi

/-- Word k of row i of a stored write-out. -/
theorem State.stores.word_row {k : Nat} (hk : k < rowLen wmode n) :
    (t.stand st).word (a + (i * rowLen wmode n + k)) = (d.outRow wmode set n scale i).getD k 0 := by
  have hlen := length_flatMap_const (fun i => d.length_outRow wmode set n scale i) (List.range m)
  rw [List.length_range] at hlen
  have hrow : rowLen wmode n ≤ 65 := (rowLen_le wmode n).trans (by omega)
  have hmax := Nat.mul_le_mul hm hrow
  have hin : i * rowLen wmode n + k < m * rowLen wmode n := by nlinarith
  rw [h.word_add (by omega) (by omega), getD_flatMap hk (by simpa using hi) fun i => d.length_outRow wmode set n scale i, List.getElem_range]

variable {j : Nat} (hj : j < n)
include hj

/-- In RAW48 mode a row is a vector of its accumulators (R67). -/
theorem State.stores.row_raw (hw : wmode = 0) : (t.stand st).vec (a + i * (1 + 2 * n)) = rawHdr n ∧
    rawAcc ((t.stand st).run (a + i * (1 + 2 * n) + 1) (2 * n)) j = (d.outAcc wmode set i j).truncate 48 := by
  subst hw
  obtain ⟨hhdr, helem⟩ := (t.stand st).rawVector_at (b := a + i * (1 + 2 * n)) (n := n)
    (vs := (List.range n).map fun j => (d.outAcc 0 set i j).truncate 48) (by simp) (by omega) fun k hk => by
      rw [← Dmu.outRow_raw d set n scale i, Nat.add_assoc]
      exact h.word_row hm hn hi hk
  refine ⟨hhdr, (helem j hj).trans ?_⟩
  rw [List.getD_eq_getElem _ _ (by simpa using hj), List.getElem_map, List.getElem_range]
/-- In FIX64 mode an accumulator takes two words, the low one first (Table 5.2). -/
theorem State.stores.row_fix (hw : wmode = 1) : (t.stand st).word (a + 2 * (i * n + j)) = (d.outAcc wmode set i j).truncate 32 ∧
    (t.stand st).word (a + 2 * (i * n + j) + 1) = ((d.outAcc wmode set i j) >>> 32).truncate 32 := by
  subst hw
  obtain ⟨hlow, hhigh⟩ := d.getD_outRow_fix set scale i hj
  have hword : ∀ k, k < 2 → (t.stand st).word (a + 2 * (i * n + j) + k) = (d.outRow 1 set n scale i).getD (j * 2 + k) 0 := fun k hk => by
    have hplace : a + 2 * (i * n + j) + k = a + (i * (2 * n) + (j * 2 + k)) := by ring
    rw [hplace]
    exact h.word_row hm hn hi (by rw [rowLen, if_neg (by decide), if_pos rfl]; omega)
  exact ⟨(hword 0 (by decide)).trans hlow, (hword 1 (by decide)).trans hhigh⟩
/-- In FP32 mode an accumulator takes one word. -/
theorem State.stores.row_f32 (h0 : wmode ≠ 0) (h1 : wmode ≠ 1) : (t.stand st).word (a + i * n + j) =
    if d.zeroOut wmode set then 0 else mwoF32 ((d.modeOf set).getD 0) (d.outAcc wmode set i j).toInt scale := by
  have hlen : rowLen wmode n = n := by rw [rowLen, if_neg h0, if_neg h1]
  have hword := h.word_row hm hn hi (k := j) (by omega)
  rw [hlen, ← Nat.add_assoc] at hword
  rw [hword, d.getD_outRow_f32 set scale i hj h0 h1]

end

/-! ## Issue -/

section
variable {s : State} {st : StandId} (hi : s.issues st) (hq : (s.stand st).dmuQ = [])
include hi hq

theorem exec_xld {y : Bool} {ga gb : Reg} {count : Fin 2048} {didx : BitVec 16} (h1 : 1 ≤ count.val) (h2 : count.val ≤ 1024) :
    exec (.xld st y ga gb count didx) s =
      .next ((s.issued st).dmuOp st (.xld y (s.g st ga % 65536) (s.g st gb % 65536) count didx.toNat)) := by
  change execXld _ _ _ _ _ _ _ = _
  rw [execXld, if_pos ⟨h1, h2⟩, State.issue_dmu hi _ _ hq, effXld, State.g_issued, State.g_issued, bits_low]
  rfl
theorem exec_mma {mode : Fin 4} {mm1 nm1 : Fin 32} {km1 : Fin 2048} {add xf yf : Bool} {gb : Reg} (hw : mmaFields mode km1 = true) :
    ∃ u, (s.issued st).glances u st ∧ exec (.mma st mode mm1 nm1 km1 add xf yf gb) s =
      .next (u.doMma st mode (mm1 + 1) (nm1 + 1) (km1 + 1) add xf yf (s.g st gb % 65536) (s.g st gb / 65536 % 65536)) := by
  obtain ⟨u, hread, hrun⟩ := State.dmuOp_begins (s := s.issued st)
    (o := .mma mode (mm1 + 1) (nm1 + 1) (km1 + 1) add xf yf (s.g st gb % 65536) (s.g st gb / 65536 % 65536))
    (by rw [State.stand_issued]; exact hq) rfl
  refine ⟨u, hread, ?_⟩
  change execMma _ _ _ _ _ _ _ _ _ _ = _
  rw [execMma, if_pos hw, State.issue_dmu hi _ _ hq, effMma, State.g_issued, bits_low]
  exact congrArg _ hrun
theorem exec_mwo {wmode : Fin 4} {set : Fin 2} {mm1 nm1 : Fin 32} {gd gs : Reg} (hw : wmode.val ≠ 3) :
    ∃ u, (s.issued st).glances u st ∧ exec (.mwo st wmode set mm1 nm1 gd gs) s =
      .next (u.doMwo st wmode set (mm1 + 1) (nm1 + 1) (wa (s.g st gd)) ((s.stand st).reg gs)) := by
  obtain ⟨u, hread, hrun⟩ := State.dmuOp_begins (s := s.issued st)
    (o := .mwo wmode set (mm1 + 1) (nm1 + 1) (wa (s.g st gd)) ((s.stand st).reg gs)) (by rw [State.stand_issued]; exact hq) rfl
  refine ⟨u, hread, ?_⟩
  change execMwo _ _ _ _ _ _ _ _ = _
  rw [execMwo, if_pos hw, State.issue_dmu hi _ _ hq, effMwo, State.g_issued, Stand.reg_issued]
  exact congrArg _ hrun

end

/-- Settles O31, by what a load leaves in its buffer (log 76), an operation in its set, and a write-out in the scratchpad (log 75). -/
theorem matrixUnit : Obligations.MatrixUnit := by
  unfold Obligations.MatrixUnit
  intro s st hi hq hc x d rest
  have hclean := State.clean_issued hc
  have hrest : ∀ {t}, s.dmuWork t st → rest t := fun h => ⟨h.pc, h.regs, h.mem, h.mesh, h.others⟩
  have hown : ∀ {u}, (s.issued st).readies u st → (u.stand st).dmuQ = [] ∧ (u.stand st).spad = x.spad ∧ (u.stand st).dmu = d := fun h => by
    rw [h.own, State.stand_issued]
    exact ⟨hq, rfl, rfl⟩
  refine ⟨fun y ga gb count didx h1 h2 => ?xld, fun mode mm1 nm1 km1 add xf yf gb hw => ?mma,
    fun wmode set mm1 nm1 gd gs hw => ?mwo⟩
  case xld =>
    intro a h i
    have hqi : ((s.issued st).stand st).dmuQ = [] := by rw [State.stand_issued]; exact hq
    have hvec : ((s.issued st).stand st).vec a = h := by rw [State.stand_issued]; rfl
    refine ⟨fun hpend => ⟨_, exec_xld hi hq h1 h2, ?wait⟩, fun hpend => ?load⟩
    case wait =>
      rw [State.dmuOp_waits hqi (by rw [Stand.dmuReady, Stand.pendAt, hvec, hpend]; rfl)]
      refine ⟨hrest (State.dmuWork_modStand (State.readies_refl _ st) rfl rfl), ?_, ?_⟩
      · rw [State.stand_modStand, State.stand_issued]
      · rw [State.stand_modStand, hqi]
        rfl
    case load =>
      obtain ⟨u, hread, hrun⟩ := State.dmuOp_begins hqi
        (o := .xld y a (s.g st gb % 65536) count didx.toNat) (by rw [Stand.dmuReady, Stand.pendAt, hvec, hpend]; rfl)
      obtain ⟨v, hread', hload⟩ := State.doXld_loads (hread.readies.clean hclean) (Nat.mod_lt (s.g st gb) (by decide)) h2 y a didx.toNat
      have hall := hread.readies.trans hread'
      obtain ⟨hqueue, hspad, hdmu⟩ := hown hall
      have hsame := hread.readies.word.trans (s.word_issued st)
      have hvec' : (u.stand st).vec a = h := by rw [Stand.vec, hsame]; rfl
      refine ⟨_, exec_xld hi hq h1 h2, ?_⟩
      rw [hrun, State.runDmu, hload, Stand.xldElems_congr hsame, hvec']
      refine ⟨hrest (State.dmuWork_modStand hall rfl rfl), ?_⟩
      rw [State.stand_modStand]
      dsimp only
      rw [hdmu]
      refine ⟨hqueue, hspad, d.set0_load .., d.set1_load .., d.buf_load_other .., d.width_load y (xldWidth h.fmt) .., fun k hk => ?_⟩
      rw [Dmu.buf_load]
      exact x.bufElem_xldElems (d.buf y) _ _ _ h2 hk
  case mma =>
    intro q
    obtain ⟨u, hread, hexec⟩ := exec_mma (mm1 := mm1) (nm1 := nm1) (add := add) (xf := xf) (yf := yf) (gb := gb) hi hq hw
    obtain ⟨v, hread', hrun⟩ := u.doMma_runs st mode (mm1 + 1) (nm1 + 1) (km1 + 1) add xf yf (s.g st gb % 65536) (s.g st gb / 65536 % 65536)
    have hall := hread.readies.trans hread'
    obtain ⟨hqueue, hspad, hdmu⟩ := hown hall
    refine ⟨_, hexec, ?_⟩
    rw [hrun]
    refine ⟨hrest (State.dmuWork_modStand hall rfl rfl), ?_⟩
    rw [State.stand_modStand]
    dsimp only
    rw [hdmu]
    obtain ⟨hcount, hbufX, hbufY⟩ := d.mma_leaves mode (mm1 + 1) (nm1 + 1) (km1 + 1) add xf yf (s.g st gb % 65536) (s.g st gb / 65536 % 65536)
    refine ⟨hqueue, hspad, hcount, d.set_mma_other .., hbufX, hbufY, fun i j hi hj => ?_, fun p hp => ?_⟩
    · exact d.get_set_mma _ _ _ _ _ _ _ _ _ nm1.isLt (Nat.lt_succ_of_le hi) (Nat.lt_succ_of_le hj)
    · exact d.get_set_mma_out _ _ _ _ _ _ _ _ _ fun i j hi hj => hp i j (Nat.le_of_lt_succ hi) (Nat.le_of_lt_succ hj)
  case mwo =>
    intro a n mode zero v
    obtain ⟨u, hread, hexec⟩ := exec_mwo (set := set) (mm1 := mm1) (nm1 := nm1) (gd := gd) (gs := gs) hi hq hw
    obtain ⟨w, hread', hstore⟩ := State.stores_doMwo (hread.readies.clean hclean) mm1.isLt nm1.isLt wmode set a (x.reg gs)
    have hall := hread.readies.trans hread'
    obtain ⟨hqueue, hspad, hdmu⟩ := hown hall
    rw [(hown hread.readies).2.2] at hstore
    refine ⟨_, hexec, hrest (State.dmuWork_stores hall hstore), hstore.dmuQ.trans hqueue, hstore.dmu.trans hdmu, fun i j hi hj => ?_⟩
    have hrow := Nat.lt_succ_of_le hi
    have hcol := Nat.lt_succ_of_le hj
    exact ⟨fun hw => hstore.row_raw mm1.isLt nm1.isLt hrow hcol hw, fun hw => hstore.row_fix mm1.isLt nm1.isLt hrow hcol hw,
      fun hw => hstore.row_f32 mm1.isLt nm1.isLt hrow hcol (by omega) (by omega)⟩

end Sys2Proof.Machine
end

section
/-! ADA and ADB at an idle matrix unit (05 R133 to R135; 06 R166). Each instruction that meets a handle fault counts it and tells the
serving engine (log 122). -/

namespace Sys2Proof.Machine

/-! ## The slot that a handle names (R133, R135) -/

theorem leNat_lt : ∀ bs : List Byte, leNat bs < 256 ^ bs.length
  | [] => by simp [leNat]
  | b :: bs => by
    have ih := leNat_lt bs
    have hb := b.isLt
    rw [leNat, List.length_cons, pow_succ]
    omega
theorem length_slice (bs : List Byte) (o n : Nat) : (slice bs o n).length = n := by
  simp [slice]
theorem field_lt (bs : List Byte) (o n : Nat) : field bs o n < 256 ^ n := by
  have h := leNat_lt (slice bs o n)
  rwa [length_slice] at h

/-- Tier A reads without error (R305). -/
def State.tierClean (s : State) : Prop := ∀ k, s.wrongBurst false k = 0

section
variable {s u : State} {st base matrix : Nat}

theorem State.tierBytes_congr (h : u.mem = s.mem) (b : Bool) : u.tierBytes b = s.tierBytes b := by
  funext a n
  simp only [State.tierBytes, State.tierByte, h]
theorem State.slotHdr_congr (h : u.mem = s.mem) (n : Nat) : u.slotHdr n = s.slotHdr n := by
  rw [State.slotHdr, State.tierBytes_congr h, State.slotHdr]
theorem State.tierClean.congr (h : s.tierClean) (hm : u.mem = s.mem) : u.tierClean := fun k => by
  have hk := h k
  rwa [State.wrongBurst, ← hm] at hk

/-- A segment's RANK is one byte (Table 5.7). -/
theorem State.rank_segment {g : Segment} : ∀ (f o : Nat) (s : State), (State.segment st base matrix f o s).1 = some g → g.rank < 256
  | 0, _, _ => fun h => absurd h (by simp [State.segment])
  | f + 1, o, s => fun h => by
    rw [State.segment] at h
    split at h
    case isTrue => exact absurd h (by simp)
    case isFalse =>
      dsimp only at h
      split at h
      case isTrue =>
        rw [← Option.some.inj h]
        exact field_lt _ 2 1
      case isFalse => exact State.rank_segment f _ _ h
/-- A slot that is not live, or of another generation, gives no segment (R135). -/
theorem State.handleSegment_fault (handle : Word)
    (hf : ¬ ((s.slotHdr (bits handle.toNat 27 16)).st = 2 ∨ (s.slotHdr (bits handle.toNat 27 16)).st = 3) ∨
    (s.slotHdr (bits handle.toNat 27 16)).gen ≠ bits handle.toNat 15 0) : (s.handleSegment st handle matrix).1 = none := by
  rw [State.handleSegment, if_neg fun hok => hf.elim (fun hst => hst hok.1) fun hgen => hgen hok.2]
theorem State.rank_handleSegment (handle : Word) {g : Segment} (hg : (s.handleSegment st handle matrix).1 = some g) : g.rank < 256 := by
  rw [State.handleSegment] at hg
  split at hg
  case isTrue => exact State.rank_segment _ _ _ hg
  case isFalse => exact absurd hg (by simp)

variable (hst : st < 5104)
include hst

/-- A stand that reads tier A without error changes nothing. -/
theorem State.tierRead_of_clean (h : s.tierClean) (a n : Nat) : s.tierRead false a n st = (s.tierBytes false a n, s) := by
  rw [State.tierRead_clean s false a n st fun k _ => h k, State.tierAsk, if_pos hst]

/-- Reads of rows without error change nothing. -/
theorem State.foldl_tierRead (h : s.tierClean) (f : Nat → Nat) (n : Nat) (l : List Nat) :
    l.foldl (fun s k => (s.tierRead false (f k) n st).2) s = s := by
  refine List.foldl_fixed' (fun k => ?_) l
  rw [State.tierRead_of_clean hst h]

/-- The search for a segment changes nothing, and depends on the tiers alone. -/
theorem State.segment_of_clean (h : s.tierClean) (hm : u.mem = s.mem) : ∀ f o,
    (State.segment st base matrix f o s).2 = s ∧ (State.segment st base matrix f o u).1 = (State.segment st base matrix f o s).1
  | 0, _ => ⟨rfl, rfl⟩
  | f + 1, o => by
    obtain ⟨hstate, hseg⟩ := State.segment_of_clean h hm f (field (s.tierBytes false (base + o) 20) 16 4)
    rw [State.segment, State.segment, State.tierRead_of_clean hst h, State.tierRead_of_clean hst (h.congr hm), State.tierBytes_congr hm]
    split
    case isTrue => exact ⟨rfl, rfl⟩
    case isFalse =>
      dsimp only
      split
      case isTrue => exact ⟨rfl, rfl⟩
      case isFalse => exact ⟨hstate, hseg⟩
variable (h : s.tierClean) (handle : Word)
include h

theorem State.handleSegment_state : (s.handleSegment st handle matrix).2 = s := by
  rw [State.handleSegment, State.tierRead_of_clean hst h]
  dsimp only
  split
  case isTrue => exact (State.segment_of_clean hst h (u := s) rfl _ _).1
  case isFalse => rfl
theorem State.handleSegment_congr (hm : u.mem = s.mem) : (u.handleSegment st handle matrix).1 = (s.handleSegment st handle matrix).1 := by
  rw [State.handleSegment, State.handleSegment, State.tierRead_of_clean hst h, State.tierRead_of_clean hst (h.congr hm), State.slotHdr_congr hm]
  dsimp only
  split
  case isTrue => exact (State.segment_of_clean hst h hm _ _).2
  case isFalse => rfl

end

/-! ## What an adapter instruction writes -/

/-- After a fault is counted once the serving engine is told of the handle (R135). -/
def State.notesFault (s t : State) (handle : Word) : Prop :=
  t.counter 0x524003 = (s.counter 0x524003 + 1) % 2 ^ 64 ∧ t.serving.faultErr = s.serving.faultErr ++ [(handle.toNat, 1)]
/-- A RAW48 vector of the values vs is stored at d, after nothing that reaches stands, tiers and mesh but reads. -/
def State.writesRaw (s t : State) (st d : Nat) (vs : List Acc) : Prop :=
  ∃ u, s.readies u st ∧ u.stores t st d (encVec (rawHdr vs.length) :: rawVector vs)

theorem State.handleFault_frame (s : State) (st op : Nat) (handle : Word) (matrix : Nat) :
    s.readies (s.handleFault st op handle matrix) st ∧ s.notesFault (s.handleFault st op handle matrix) handle := by
  unfold State.handleFault State.record
  refine ⟨State.readies_of_eq ?_ ?_ ?_ st, ?_, ?_⟩
  · exact State.stands_log ..
  · exact State.log_mem ..
  · dsimp only
    rw [State.log_frame]
    rfl
  · change (State.log _ _).counter _ = _
    rw [State.counter_log_ne _ _ (by decide), State.counter_count]
  · dsimp only
    rw [State.log_frame]
    rfl
theorem State.notesFault.stores {s t u : State} {handle : Word} {st d : Nat} {ws : List Word} (h : s.notesFault u handle)
    (k : u.stores t st d ws) : s.notesFault t handle := by
  obtain ⟨hcount, herr⟩ := h
  exact ⟨(k.counter _).trans hcount, by rw [k.serving]; exact herr⟩
theorem State.readies_freeAccs (s : State) (st n : Nat) : s.readies (s.freeAccs n).2 st := by
  refine State.readies_of_eq ?_ ?_ ?_ st <;> rfl
theorem State.length_freeAccs (s : State) (n : Nat) : (s.freeAccs n).1.length = n := by simp [State.freeAccs]
theorem State.stores_dmuRaw {s : State} {st : Nat} (hc : (s.stand st).clean) (op d : Nat) {vs : List Acc} (hl : vs.length < 2048) :
    s.stores (s.dmuRaw st op (wa d) vs) st d (encVec (rawHdr vs.length) :: rawVector vs) :=
  State.stores_writeWords hc 17 op d (by rw [List.length_cons, length_rawVector]; omega)

section
variable {s t u : State} {st d : Nat} {vs : List Acc}

theorem State.writesRaw_dmuRaw (hc : (s.stand st).clean) (h : s.readies u st) (op d : Nat) (hl : vs.length < 2048) :
    s.writesRaw (u.dmuRaw st op (wa d) vs) st d vs := ⟨u, h, State.stores_dmuRaw (h.clean hc) op d hl⟩
theorem State.writesRaw.after (h : u.writesRaw t st d vs) (k : s.readies u st) : s.writesRaw t st d vs := by
  obtain ⟨v, hread, hstore⟩ := h
  exact ⟨v, k.trans hread, hstore⟩

variable (h : s.writesRaw t st d vs) (hl : vs.length < 2048)
include h hl

theorem State.writesRaw.vec : (t.stand st).vec d = rawHdr vs.length := by
  obtain ⟨v, -, hstore⟩ := h
  exact hstore.vec (by simp [rawHdr]) (by simp [rawHdr]) hl
theorem State.writesRaw.word {k : Nat} (hk : k < 2 * vs.length) : (t.stand st).word (d + 1 + k) = (rawVector vs).getD k 0 := by
  obtain ⟨v, -, hstore⟩ := h
  have hlen := length_rawVector vs
  exact hstore.elem (by omega) (by omega)
theorem State.writesRaw.rawAcc {k : Nat} (hk : k < vs.length) : rawAcc ((t.stand st).run (d + 1) (2 * vs.length)) k = vs.getD k 0 := by
  obtain ⟨v, -, hstore⟩ := h
  have hlen := length_rawVector vs
  exact ((t.stand st).rawVector_at rfl hl fun k hk => hstore.word_add (by rw [List.length_cons]; omega) (by rw [List.length_cons]; omega)).2 k hk

end

theorem rawVector_zeros : ∀ n, rawVector (List.replicate n 0) = List.replicate (2 * n) 0
  | 0 => rfl
  | n + 1 => by rw [List.replicate_succ, rawVector, rawVector_zeros n]; rfl
/-- A vector of zero sums is zero in every word. -/
theorem State.writesRaw.word_zeros {s t : State} {st d n k : Nat} (h : s.writesRaw t st d (List.replicate n 0)) (hn : n < 2048) (hk : k < 2 * n) :
    (t.stand st).word (d + 1 + k) = 0 := by
  rw [h.word (by simpa using hn) (by simpa using hk), rawVector_zeros, List.getD_replicate _ hk]

/-! ## ADA (R134) -/

/-- Partial sum k of the inputs of the vector at a, by row k of A (R134). -/
def State.adaSum (s : State) (x : Stand) (base : Nat) (g : Segment) (a start k : Nat) : Acc :=
  let h := x.vec a
  BitVec.ofInt 48 (((s.tierBytes false (base + g.off + 20 + k * g.din + start) h.count).zipIdx.map fun e =>
    a8 e.1 * elemInt h.fmt h.signed (x.run (a + 1) (elemWords h.fmt h.count)) e.2).sum)

section
variable {s : State} {st : Nat} (hc : (s.stand st).clean) (handle : Word) (a d matrix start : Nat)
include hc

/-- A vector that is read: its header, the words of its elements when COUNT is valid; only grants are noted. -/
theorem State.readVector_glances (op : Nat) : (s.readVector st 17 op (wa a)).1 = (s.stand st).vec a ∧
    (1 ≤ ((s.stand st).vec a).count → ((s.stand st).vec a).count ≤ 1024 → (s.readVector st 17 op (wa a)).2.1 =
      (s.stand st).run (a + 1) (elemWords ((s.stand st).vec a).fmt ((s.stand st).vec a).count)) ∧
    s.glances (s.readVector st 17 op (wa a)).2.2 st := by
  obtain ⟨hhdr, hread⟩ := State.glances_readWords hc 17 op (wa a) 1
  have hvec : decVec ((s.readWords st 17 op (wa a) 1).1.headD 0) = (s.stand st).vec a := by
    rw [hhdr, ← Stand.vec_wa]
    rfl
  rw [State.readVector, hvec]
  generalize (s.readWords st 17 op (wa a) 1).2 = u at hread
  obtain ⟨hwords, hread'⟩ := State.glances_readWords (hread.readies.clean hc) 17 op (wa a + 1)
    (if ((s.stand st).vec a).count = 0 ∨ 1024 < ((s.stand st).vec a).count then 0
      else elemWords ((s.stand st).vec a).fmt ((s.stand st).vec a).count)
  refine ⟨rfl, fun h1 h2 => ?_, hread.trans hread'⟩
  rw [hwords, if_neg (by omega), hread.readies.run, Stand.run_wa_add]

variable (hst : st < 5104) (hm : s.tierClean)
include hst hm

theorem State.doAda_none (h : (s.handleSegment st handle matrix).1 = none) :
    s.writesRaw (s.doAda st handle (wa a) (wa d) matrix start) st d (List.replicate 64 0) ∧
      s.notesFault (s.doAda st handle (wa a) (wa d) matrix start) handle := by
  have heq : s.doAda st handle (wa a) (wa d) matrix start =
      (s.handleFault st 0x3B handle matrix).dmuRaw st 0x3B (wa d) (List.replicate 64 0) := by
    simp only [State.doAda, h, State.handleSegment_state hst hm]
  obtain ⟨hread, hnote⟩ := s.handleFault_frame st 0x3B handle matrix
  have hstore := State.stores_dmuRaw (hread.clean hc) 0x3B d (vs := List.replicate 64 0) (by simp)
  rw [heq]
  exact ⟨⟨_, hread, hstore⟩, hnote.stores hstore⟩
theorem State.doAda_some {g : Segment} (h : (s.handleSegment st handle matrix).1 = some g) : ∃ vs, vs.length = g.rank ∧
    s.writesRaw (s.doAda st handle (wa a) (wa d) matrix start) st d vs ∧
    (((s.stand st).vec a).fmt ≤ 5 → 1 ≤ ((s.stand st).vec a).count → ((s.stand st).vec a).count ≤ 1024 →
      start + ((s.stand st).vec a).count ≤ g.din →
      vs = (List.range g.rank).map (s.adaSum (s.stand st) (bits handle.toNat 27 16 * 16777216) g a start)) := by
  have hrank : g.rank < 2048 := (State.rank_handleSegment handle h).trans (by decide)
  obtain ⟨hhdr, hwords, hread⟩ := State.readVector_glances hc a 0x3B
  simp only [State.doAda, h, State.handleSegment_state hst hm]
  generalize s.readVector st 17 0x3B (wa a) = v at hhdr hwords hread
  have hmem := hread.readies.mem
  rw [hhdr]
  split
  case isTrue hbad =>
    have hlen := v.2.2.length_freeAccs g.rank
    exact ⟨_, hlen, State.writesRaw_dmuRaw hc (hread.readies.trans (State.readies_freeAccs _ st g.rank)) 0x3B d (by omega), by omega⟩
  case isFalse hok =>
    rw [State.foldl_tierRead hst (hm.congr hmem)]
    refine ⟨_, by simp, State.writesRaw_dmuRaw hc hread.readies 0x3B d (by simpa using hrank), fun _ h1 h2 _ => ?_⟩
    rw [List.map_map, hwords h1 h2, State.tierBytes_congr hmem]
    rfl

/-! ## ADB (R134) -/

theorem State.doAdb_none {count : Nat} (hn : count < 2048) (h : (s.handleSegment st handle matrix).1 = none) :
    s.writesRaw (s.doAdb st handle (wa a) (wa d) matrix start count) st d (List.replicate count 0) ∧
      s.notesFault (s.doAdb st handle (wa a) (wa d) matrix start count) handle := by
  have heq : s.doAdb st handle (wa a) (wa d) matrix start count =
      (s.handleFault st 0x3C handle matrix).dmuRaw st 0x3C (wa d) (List.replicate count 0) := by
    simp only [State.doAdb, h, State.handleSegment_state hst hm]
  obtain ⟨hread, hnote⟩ := s.handleFault_frame st 0x3C handle matrix
  have hlen : (List.replicate count (0 : Acc)).length < 2048 := by simpa using hn
  have hstore := State.stores_dmuRaw (hread.clean hc) 0x3C d hlen
  rw [heq]
  exact ⟨⟨_, hread, hstore⟩, hnote.stores hstore⟩
theorem State.doAdb_some {count : Nat} (hn : count < 2048) {g : Segment} (h : (s.handleSegment st handle matrix).1 = some g) :
    ∃ vs, vs.length = count ∧ s.writesRaw (s.doAdb st handle (wa a) (wa d) matrix start count) st d vs := by
  obtain ⟨-, -, hread⟩ := State.readVector_glances hc a 0x3C
  simp only [State.doAdb, h, State.handleSegment_state hst hm]
  generalize s.readVector st 17 0x3C (wa a) = v at hread
  split
  case isTrue hbad =>
    have hlen := v.2.2.length_freeAccs count
    exact ⟨_, hlen, State.writesRaw_dmuRaw hc (hread.readies.trans (State.readies_freeAccs _ st count)) 0x3C d (by omega)⟩
  case isFalse hok =>
    have hclean : ∀ k m, (v.2.2.count k m).tierClean := fun k m => hm.congr hread.readies.mem
    simp only [State.tierRead_of_clean hst (hclean _ _)]
    have hread' : ∀ clipped n, s.readies ((v.2.2.count 0x524004 clipped).freeAccs n).2 st := fun clipped n =>
      (hread.readies.trans (State.readies_count _ st _ _)).trans (State.readies_freeAccs _ st n)
    have hlen : ∀ (ys : List Acc) (u : State), ys.length = min count (g.dout - start) →
        (ys ++ (u.freeAccs (count - min count (g.dout - start))).1).length = count := fun ys u hys => by
      rw [List.length_append, State.length_freeAccs, hys]
      omega
    refine ⟨_, hlen _ _ (by simp), State.writesRaw_dmuRaw hc (hread' _ _) 0x3C d ?_⟩
    rw [hlen _ _ (by simp)]
    exact hn

end

/-! ## Issue -/

section
variable {s : State} {st : StandId} {gh gx gd gi : Reg} {matrix : BitVec 16} (hi : s.issues st) (hq : (s.stand st).dmuQ = [])
  (hpend : ((s.stand st).vec (s.g st gx % 65536)).pend = false)
include hi hq hpend

theorem exec_ada : ∃ u, (s.issued st).glances u st ∧ exec (.ada st gh gx gd matrix gi) s =
    .next (u.doAda st ((s.stand st).reg gh) (wa (s.g st gx)) (wa (s.g st gd)) matrix.toNat (s.g st gi % 65536)) := by
  obtain ⟨u, hread, hrun⟩ := State.dmuOp_begins (s := s.issued st)
    (o := .ada ((s.stand st).reg gh) (wa (s.g st gx)) (wa (s.g st gd)) matrix.toNat (s.g st gi % 65536))
    (by rw [State.stand_issued]; exact hq) (by rw [State.stand_issued]; exact congrArg Bool.not hpend)
  refine ⟨u, hread, ?_⟩
  change execAda _ _ _ _ _ _ _ = _
  rw [execAda, State.issue_dmu hi _ _ hq, effAda, State.g_issued, State.g_issued, State.g_issued, Stand.reg_issued, bits_low]
  exact congrArg _ hrun
theorem exec_adb : ∃ u, (s.issued st).glances u st ∧ exec (.adb st gh gx gd matrix gi) s =
    .next (u.doAdb st ((s.stand st).reg gh) (wa (s.g st gx)) (wa (s.g st gd)) matrix.toNat (s.g st gi % 65536) (bits (s.g st gi) 26 16)) := by
  obtain ⟨u, hread, hrun⟩ := State.dmuOp_begins (s := s.issued st)
    (o := .adb ((s.stand st).reg gh) (wa (s.g st gx)) (wa (s.g st gd)) matrix.toNat (s.g st gi % 65536) (bits (s.g st gi) 26 16))
    (by rw [State.stand_issued]; exact hq) (by rw [State.stand_issued]; exact congrArg Bool.not hpend)
  refine ⟨u, hread, ?_⟩
  change execAdb _ _ _ _ _ _ _ = _
  rw [execAdb, State.issue_dmu hi _ _ hq, effAdb, State.g_issued, State.g_issued, State.g_issued, Stand.reg_issued, bits_low]
  exact congrArg _ hrun

end

/-- What an adapter instruction that stores a RAW48 vector leaves of its stand. -/
theorem State.writesRaw.leaves {s t : State} {st d : Nat} {vs : List Acc} (h : (s.issued st).writesRaw t st d vs) :
    s.dmuWork t st ∧ (t.stand st).dmuQ = (s.stand st).dmuQ ∧ (t.stand st).dmu = (s.stand st).dmu := by
  obtain ⟨u, hread, hstore⟩ := h
  have hown := hread.own
  rw [State.stand_issued] at hown
  exact ⟨State.dmuWork_stores hread hstore, by rw [hstore.dmuQ, hown], by rw [hstore.dmu, hown]⟩

/-- A fault noted after an issue. -/
theorem State.notesFault.of_issued {s t u : State} {st : Nat} {handle : Word} (h : u.notesFault t handle) (k : (s.issued st).glances u st) :
    s.notesFault t handle := by
  obtain ⟨hcount, herr⟩ := h
  have hserving : u.serving = s.serving := by rw [k.frame]; rfl
  rw [k.counter, State.counter_issued_ne _ _ (by decide)] at hcount
  rw [hserving] at herr
  exact ⟨hcount, herr⟩
theorem State.adaSum_congr {s u : State} {x y : Stand} (hm : u.mem = s.mem) (h : y.word = x.word) (base : Nat) (g : Segment) (a start : Nat) :
    u.adaSum y base g a start = s.adaSum x base g a start := by
  funext k
  have hvec : y.vec a = x.vec a := by rw [Stand.vec, h, Stand.vec]
  rw [State.adaSum, State.adaSum, State.tierBytes_congr hm, hvec, Stand.run_congr_word h]

section
variable {s : State} {st : StandId} {gh gx gd gi : Reg} {matrix : BitVec 16} (hi : s.issues st) (hq : (s.stand st).dmuQ = [])
  (hc : (s.stand st).clean) (hm : s.tierClean) (hpend : ((s.stand st).vec (s.g st gx % 65536)).pend = false)
include hi hq hc hm hpend

/-- What ADA does: zeros after a fault, otherwise one sum for each row of A. -/
theorem exec_ada_writes : ∃ t vs, exec (.ada st gh gx gd matrix gi) s = .next t ∧ vs.length < 2048 ∧
    (s.issued st).writesRaw t st (s.g st gd) vs ∧
    ((s.handleSegment st ((s.stand st).reg gh) matrix.toNat).1 = none → vs = List.replicate 64 0 ∧ s.notesFault t ((s.stand st).reg gh)) ∧
    ∀ g, (s.handleSegment st ((s.stand st).reg gh) matrix.toNat).1 = some g → vs.length = g.rank ∧
      (((s.stand st).vec (s.g st gx)).fmt ≤ 5 → 1 ≤ ((s.stand st).vec (s.g st gx)).count → ((s.stand st).vec (s.g st gx)).count ≤ 1024 →
        s.g st gi % 65536 + ((s.stand st).vec (s.g st gx)).count ≤ g.din → vs = (List.range g.rank).map
          (s.adaSum (s.stand st) (bits (s.g st gh) 27 16 * 16777216) g (s.g st gx) (s.g st gi % 65536))) := by
  have hst : st.val < 5104 := st.isLt.trans (by decide)
  obtain ⟨u, hread, hexec⟩ := exec_ada (gh := gh) (gd := gd) (matrix := matrix) (gi := gi) hi hq hpend
  have hclean := hread.readies.clean (State.clean_issued hc)
  have hmem : u.mem = s.mem := hread.readies.mem
  have hsame := hread.readies.word.trans (s.word_issued st)
  have hseg := State.handleSegment_congr (matrix := matrix.toNat) hst hm ((s.stand st).reg gh) hmem
  cases hcase : (s.handleSegment st ((s.stand st).reg gh) matrix.toNat).1 with
  | none =>
    obtain ⟨hraw, hnote⟩ := State.doAda_none hclean ((s.stand st).reg gh) (s.g st gx) (s.g st gd) matrix.toNat (s.g st gi % 65536) hst
      (hm.congr hmem) (hseg.trans hcase)
    exact ⟨_, _, hexec, by simp, hraw.after hread.readies, fun _ => ⟨rfl, hnote.of_issued hread⟩, fun g hg => absurd hg (by simp)⟩
  | some g =>
    obtain ⟨vs, hlen, hraw, hsums⟩ := State.doAda_some hclean ((s.stand st).reg gh) (s.g st gx) (s.g st gd) matrix.toNat (s.g st gi % 65536) hst
      (hm.congr hmem) (hseg.trans hcase)
    have hrank := State.rank_handleSegment _ hcase
    have hvec : (u.stand st).vec (s.g st gx) = (s.stand st).vec (s.g st gx) := by rw [Stand.vec, hsame, Stand.vec]
    rw [hvec, State.adaSum_congr hmem hsame] at hsums
    refine ⟨_, vs, hexec, by omega, hraw.after hread.readies, fun hnone => absurd hnone (by simp), fun g' hg => ?_⟩
    obtain rfl := Option.some.inj hg
    exact ⟨hlen, hsums⟩
/-- What ADB does: zeros after a fault, otherwise as many outputs. -/
theorem exec_adb_writes : ∃ t vs, exec (.adb st gh gx gd matrix gi) s = .next t ∧ vs.length = bits (s.g st gi) 26 16 ∧
    (s.issued st).writesRaw t st (s.g st gd) vs ∧
    ((s.handleSegment st ((s.stand st).reg gh) matrix.toNat).1 = none →
      vs = List.replicate (bits (s.g st gi) 26 16) 0 ∧ s.notesFault t ((s.stand st).reg gh)) := by
  have hst : st.val < 5104 := st.isLt.trans (by decide)
  have hcount : bits (s.g st gi) 26 16 < 2048 := Nat.mod_lt _ (by decide)
  obtain ⟨u, hread, hexec⟩ := exec_adb (gh := gh) (gd := gd) (matrix := matrix) (gi := gi) hi hq hpend
  have hclean := hread.readies.clean (State.clean_issued hc)
  have hmem : u.mem = s.mem := hread.readies.mem
  have hseg := State.handleSegment_congr (matrix := matrix.toNat) hst hm ((s.stand st).reg gh) hmem
  cases hcase : (s.handleSegment st ((s.stand st).reg gh) matrix.toNat).1 with
  | none =>
    obtain ⟨hraw, hnote⟩ := State.doAdb_none hclean ((s.stand st).reg gh) (s.g st gx) (s.g st gd) matrix.toNat (s.g st gi % 65536) hst
      (hm.congr hmem) hcount (hseg.trans hcase)
    exact ⟨_, _, hexec, by simp, hraw.after hread.readies, fun _ => ⟨rfl, hnote.of_issued hread⟩⟩
  | some g =>
    obtain ⟨vs, hlen, hraw⟩ := State.doAdb_some hclean ((s.stand st).reg gh) (s.g st gx) (s.g st gd) matrix.toNat (s.g st gi % 65536) hst
      (hm.congr hmem) hcount (hseg.trans hcase)
    exact ⟨_, vs, hexec, hlen, hraw.after hread.readies, fun hnone => absurd hnone (by simp)⟩

end

/-- Settles O33, by the vector that ADA and ADB write: zeros after a fault, which each of them notes once (log 122), and sums otherwise. -/
theorem adapterSums : Obligations.AdapterSums := by
  unfold Obligations.AdapterSums
  intro s st gh gx gd gi matrix hi hq hc x n fault clean count raw hpend hm
  have hcount : count < 2048 := Nat.mod_lt _ (by decide)
  have hnone : fault → (s.handleSegment st (x.reg gh) matrix.toNat).1 = none := fun hf =>
    State.handleSegment_fault _ (by rw [bits_low]; exact hf)
  obtain ⟨t, vs, hada, hlen, hraw, hzero, hsums⟩ := exec_ada_writes (gh := gh) (gd := gd) (gi := gi) (matrix := matrix) hi hq hc hm hpend
  obtain ⟨t', vs', hadb, hlen', hraw', hzero'⟩ := exec_adb_writes (gh := gh) (gd := gd) (gi := gi) (matrix := matrix) hi hq hc hm hpend
  refine ⟨?leaves, ?sums, fun hf => ⟨t, hada, ?zeros⟩, fun hf => ⟨t', hadb, ?zerosB⟩⟩
  case leaves =>
    have hleaves : ∀ {t : State} {vs : List Acc}, (s.issued st).writesRaw t st (s.g st gd) vs → vs.length < 2048 →
        (fault → s.notesFault t (x.reg gh)) → (t.stand st).pc = x.pc + 1 ∧ (t.stand st).regs = x.regs ∧ (t.stand st).dmuQ = [] ∧
          (t.stand st).dmu = x.dmu ∧ (∀ m, m ≠ st.val → t.stand m = s.stand m) ∧ t.mem = s.mem ∧ t.mesh = s.mesh ∧ (∃ k, raw t k) ∧
          (fault → t.counter 0x524003 = (s.counter 0x524003 + 1) % 2 ^ 64 ∧ t.serving.faultErr = s.serving.faultErr ++ [(s.g st gh, 1)]) :=
      fun hraw hlen hnote => by
        obtain ⟨⟨hpc, hregs, hmem, hmesh, hothers⟩, hqueue, hdmu⟩ := hraw.leaves
        exact ⟨hpc, hregs, hqueue.trans hq, hdmu, hothers, hmem, hmesh, ⟨_, hraw.vec hlen⟩, hnote⟩
    rintro i (rfl | rfl)
    · exact ⟨t, hada, hleaves hraw hlen fun hf => (hzero (hnone hf)).2⟩
    · exact ⟨t', hadb, hleaves hraw' (hlen'.trans_lt hcount) fun hf => (hzero' (hnone hf)).2⟩
  case sums =>
    intro g hg h from0 hfmt h1 h2 hdin
    obtain ⟨hrank, hvalues⟩ := hsums g hg
    refine ⟨t, hada, ?_⟩
    rw [← hrank]
    refine ⟨hraw.vec hlen, fun k hk => (hraw.rawAcc hlen hk).trans ?_⟩
    rw [List.getD_eq_getElem _ _ hk]
    simp only [hvalues hfmt h1 h2 hdin, List.getElem_map, List.getElem_range]
    rfl
  case zeros =>
    obtain ⟨rfl, -⟩ := hzero (hnone hf)
    exact ⟨hraw.vec hlen, fun k hk => hraw.word_zeros (by decide) hk⟩
  case zerosB =>
    obtain ⟨rfl, -⟩ := hzero' (hnone hf)
    refine ⟨?_, fun k hk => hraw'.word_zeros hcount hk⟩
    have hvec := hraw'.vec (hlen'.trans_lt hcount)
    rwa [hlen'] at hvec

end Sys2Proof.Machine
end

section
/-! The instructions that the controller itself executes at issue: scalar instructions, LDW and STW, RDCTL, WAIT and the implicit BEND
(06 R149, R154, R155, R176, R177, R180). -/

namespace Sys2Proof.Machine

/-! ## Registers and ALU (R149, R154) -/

/-- Settles O9: g0 is no register of the table. -/
theorem registerZero : Obligations.RegisterZero := fun x _ => ⟨x.reg_zero, if_pos rfl⟩

/-- Settles O8, one FUNC after the other. -/
theorem aluTable : Obligations.AluTable := by
  unfold Obligations.AluTable
  intro a b
  refine ⟨BitVec.toNat_add a b, BitVec.toInt_sub, fun i => BitVec.getLsbD_and, fun i => BitVec.getLsbD_or, fun i => BitVec.getLsbD_xor,
    ?shl, ?shr, ?sra, BitVec.toNat_mul a b, ?slt, ?sltu⟩
  case shl => exact (BitVec.toNat_shiftLeft ..).trans (by rw [Nat.shiftLeft_eq])
  case shr => exact (BitVec.toNat_ushiftRight ..).trans (Nat.shiftRight_eq_div_pow ..)
  case sra => exact (BitVec.toInt_sshiftRight ..).trans (Int.shiftRight_eq_div_pow ..)
  case slt => simp only [aluOp, BitVec.slt, decide_eq_true_eq]
  case sltu => simp only [aluOp, BitVec.ult, decide_eq_true_eq]

/-- What a write to a register does, g0 among them. -/
theorem Stand.putsReg_putReg (x : Stand) (r : Nat) (v : Word) : x.putsReg (x.putReg r v) r v := by
  refine ⟨x.reg_putReg r v, fun q hq => x.reg_putReg_ne v hq, ?_⟩
  unfold Stand.putReg
  split <;> rfl

/-! ## An instruction at a free controller (R149, R150) -/

section
variable {s : State} {st : Nat} {c : Instr} {eff : State → State} {P : State → Prop} (hi : s.issues st)
include hi

/-- An instruction that need not wait takes effect. -/
theorem State.gives_effect {ready : Bool} (he : exec c s = .next (s.issue st c ready eff)) (hr : ready = true) (h : P (eff (s.issued st))) :
    s.gives c P := by
  subst hr
  exact ⟨_, he.trans (congrArg _ (s.issue_ready st c eff hi.1 hi.2)), h⟩
/-- One that must wait is held, and nothing else changes. -/
theorem State.gives_held {ready : Bool} (he : exec c s = .next (s.issue st c ready eff)) (hr : ready = false) : s.gives c fun t =>
    s.onlyStand t st ∧ t.stand st = { s.stand st with backlog := [c], headSince := s.time.tick } := by
  subst hr
  exact ⟨_, he.trans (congrArg _ (State.issue_held c eff hi)), s.onlyStand_modStand st _, State.stand_modStand ..⟩
/-- An instruction that only changes its stand. -/
theorem State.gives_modStand {f : Stand → Stand} (he : exec c s = .next (s.issue st c true fun s => s.modStand st f)) {p : Stand → Prop}
    (h : p (f (s.stand st).stepped)) : s.gives c fun t => s.onlyStand t st ∧ s.countsOnly t 0x525001 1 ∧ p (t.stand st) := by
  refine State.gives_effect hi he rfl ⟨s.onlyStand_issued st f, s.countsOnly_issued st, ?_⟩
  rw [State.stand_modStand, State.stand_issued]
  exact h
/-- An instruction without an effect. -/
theorem State.gives_stepped {ready : Bool} (he : exec c s = .next (s.issue st c ready id)) (hr : ready = true) : s.gives c fun t =>
    s.onlyStand t st ∧ s.countsOnly t 0x525001 1 ∧ t.stand st = (s.stand st).stepped :=
  State.gives_effect hi he hr ⟨(s.onlyStand_issued_self st).1, s.countsOnly_issued st, s.stand_issued st⟩

end

/-- Settles O7: every one of them changes its own stand alone, as its effect says. -/
theorem scalarIssue : Obligations.ScalarIssue := by
  unfold Obligations.ScalarIssue
  intro s st hi ok
  refine ⟨State.gives_stepped hi rfl rfl, fun gd imm => ?li, fun gd ga gb immf func imm hf => ?alu, fun cond ga gb target hc => ?br, ?bend⟩
  case li =>
    exact State.gives_modStand (f := fun x => x.putReg gd imm) (p := fun y => Stand.putsReg _ y gd imm) hi rfl (Stand.putsReg_putReg ..)
  case alu =>
    exact State.gives_modStand (c := .alu st gd ga gb immf func imm)
      (f := fun x => x.putReg gd (aluOp func (x.reg ga) (if immf then imm.signExtend 32 else x.reg gb)))
      (p := fun y => Stand.putsReg _ y gd _) hi (if_pos hf) (Stand.putsReg_putReg ..)
  case br =>
    exact State.gives_modStand (c := .br st cond ga gb target)
      (f := fun x => if brTaken cond (x.reg ga) (x.reg gb) then { x with pc := target } else x)
      (p := fun y => y = _) hi (if_pos hc) rfl
  case bend =>
    exact State.gives_modStand (f := fun x => { x with bended := true }) (p := fun y => y = _) hi rfl rfl

/-! ## LDW and STW (R99, R118, R154) -/

/-- The word at a as a reader sees it: 0 in a bank that is OFF. -/
def Stand.seen (x : Stand) (a : Nat) : Word := if (x.bank (bankOf a)).power = .off then 0 else x.word a

/-- A read of one word. -/
theorem State.readWords_one (s : State) (st req op a : Nat) : (s.readWords st req op a 1).1 = [(s.stand st).seen a] := by
  have hlen : accessLen a 1 = 1 := Nat.le_antisymm (accessLen_le a 1) (accessLen_pos a Nat.one_pos)
  simp only [State.readWords, State.readAcc, hlen, Stand.seen, one_ne_zero, if_false, List.append_nil]
  split <;> rfl
/-- A write of one word: nothing in a bank that is OFF. -/
theorem State.writeWords_one (s : State) (st req op a b : Nat) (v : Word) : ((s.writeWords st req op a [v]).stand st).word b =
    if wa b = wa a ∧ ((s.stand st).bank (Machine.bankOf a)).power ≠ .off then v else (s.stand st).word b := by
  have hlen : accessLen a 1 = 1 := Nat.le_antisymm (accessLen_le a 1) (accessLen_pos a Nat.one_pos)
  simp only [State.writeWords, State.writeAcc, List.length_singleton, List.cons_ne_nil, hlen, if_false]
  by_cases hoff : ((s.stand st).bank (Machine.bankOf a)).power = .off
  · rw [if_pos hoff, if_neg fun h => h.2 hoff, State.stand_modStand, State.offAccess, State.stand_log]
    rfl
  · rw [if_neg hoff, State.stand_modStand, State.stand_modStand]
    simp only [Stand.word, Stand.modBank, List.take_succ_cons, List.take_zero, Tab.setRun]
    by_cases hb : wa b = wa a
    · simp only [hb, Tab.get_set, ne_eq, hoff, not_false_eq_true, and_self, if_true]
    · rw [Tab.get_set_ne _ _ _ hb, if_neg fun h => hb h.1]

/-- Settles O10: LDW reads, STW writes one word through requester 16. -/
theorem wordAccess : Obligations.WordAccess := by
  unfold Obligations.WordAccess
  intro s st r ga off hi a x isOff
  have ha : wa (s.g st ga + off.toNat) = a := rfl
  have hwa : wa a = a := wa_wa _
  have hbank : Machine.bankOf a = a / 2048 := by rw [Machine.bankOf, hwa]
  have hx : (s.issued st).stand st = x.stepped := s.stand_issued st
  refine ⟨State.gives_effect (c := .ldw st r ga off) hi rfl rfl ?ldw, State.gives_effect (c := .stw st r ga off) hi rfl rfl ?stw⟩
  case ldw =>
    obtain ⟨hframe, hothers, hown, -⟩ := (s.issued st).readsAt_readWords st 16 0x03 a 1
    have hvalue : ((s.issued st).readWords st 16 0x03 a 1).1 = [if isOff then 0 else x.word a] := by
      rw [State.readWords_one, hx, Stand.seen, hbank]
      rfl
    simp only [effLdw, State.g_issued, ha, State.stand_modStand, hvalue, List.headD_cons]
    obtain ⟨hreg, hregs, hput⟩ := Stand.putsReg_putReg (((s.issued st).readWords st 16 0x03 a 1).2.stand st) r (if isOff then 0 else x.word a)
    refine ⟨hreg.trans (by rw [ite_or]), fun q hq => (hregs q hq).trans (by rw [hown, hx]; rfl), fun b => ?word, fun m hm => ?other,
      ?mem, ?pc⟩
    case word => rw [hput, hown, hx]; rfl
    case other => rw [State.stand_modStand_ne _ _ hm, hothers m hm, State.stand_issued_ne s hm]
    case mem => rw [State.modStand, hframe]; rfl
    case pc => rw [hput, hown, hx]; rfl
  case stw =>
    obtain ⟨hframe, hothers, hown, -⟩ := (s.issued st).writesAt_writeWords st 16 0x04 a [x.reg r]
    have heff : effStw st r ga off (s.issued st) = (s.issued st).writeWords st 16 0x04 a [x.reg r] := by
      rw [effStw, State.g_issued, ha, Stand.reg_issued]
    rw [heff]
    refine ⟨fun q => by rw [hown, hx]; rfl, fun b => ?_, fun m hm => ?_, by rw [hframe]; rfl, by rw [hown, hx]; rfl⟩
    · rw [State.writeWords_one, hx, hbank, hwa]
      rfl
    · rw [hothers m hm, State.stand_issued_ne s hm]

/-! ## RDCTL, WAIT and the implicit BEND (R155, R176, R180, Table 6.5) -/

/-- No selector of RDCTL reads what an issue changes. -/
theorem State.rdctl_issued (s : State) (st arg sel : Nat) : (s.issued st).rdctl st arg sel = s.rdctl st arg sel := by
  have hmask : (s.issued st).fillMask st = s.fillMask st := by simp only [State.fillMask, State.fill_issued]
  unfold State.rdctl State.filledFlags
  rw [State.stand_issued, hmask]
  rfl

/-- RDCTL at its stand. -/
def Stand.rdctl (x : Stand) (v : Word) (gd : Nat) (clr : Bool) (arg sel : Nat) : Stand :=
  if clr ∧ sel = 3 then { x.putReg gd v with credit := (x.putReg gd v).credit.modWin arg fun w => { w with flags := w.flags &&& ~~~v } }
  else if clr ∧ sel = 4 then { x.putReg gd v with voidFlags := (x.putReg gd v).voidFlags &&& ~~~(v.setWidth 16) }
  else x.putReg gd v

section
variable (x : Stand) (v : Word) (gd : Nat) (clr : Bool) (arg sel : Nat)

theorem Stand.reg_rdctl (q : Nat) : (x.rdctl v gd clr arg sel).reg q = (x.putReg gd v).reg q := by
  unfold Stand.rdctl
  split
  case isTrue => rfl
  case isFalse => split <;> rfl
theorem Stand.credit_putReg : (x.putReg gd v).credit = x.credit := by
  unfold Stand.putReg
  split <;> rfl
theorem Stand.voidFlags_putReg : (x.putReg gd v).voidFlags = x.voidFlags := by
  unfold Stand.putReg
  split <;> rfl
/-- The filled flags read as 1 are cleared, of the window read alone (R155). -/
theorem Stand.flags_rdctl (hv : sel = 3 → v = (x.credit.win arg).flags) (k : Nat) : ((x.rdctl v gd clr arg sel).credit.win k).flags =
    if k = arg ∧ sel = 3 ∧ clr then 0 else (x.credit.win k).flags := by
  unfold Stand.rdctl
  by_cases hclear : clr ∧ sel = 3
  · obtain ⟨hclr, hsel⟩ := hclear
    rw [if_pos ⟨hclr, hsel⟩]
    by_cases hk : k = arg
    · subst hk
      rw [if_pos ⟨rfl, hsel, hclr⟩, CreditUnit.win_modWin, x.credit_putReg, hv hsel, BitVec.and_not_self]
    · rw [if_neg fun h => hk h.1, CreditUnit.win_modWin_ne _ _ hk, x.credit_putReg]
  · have hkeep : ¬(k = arg ∧ sel = 3 ∧ clr) := fun ⟨_, hsel, hclr⟩ => hclear ⟨hclr, hsel⟩
    rw [if_neg hclear, if_neg hkeep]
    split <;> rw [x.credit_putReg]
/-- The void flags read as 1 are cleared (R155). -/
theorem Stand.voidFlags_rdctl (hv : sel = 4 → v = x.voidFlags.setWidth 32) : (x.rdctl v gd clr arg sel).voidFlags =
    if sel = 4 ∧ clr then 0 else x.voidFlags := by
  unfold Stand.rdctl
  by_cases hclear : clr ∧ sel = 4
  · obtain ⟨hclr, hsel⟩ := hclear
    have hother : ¬(clr ∧ sel = 3) := fun h => absurd (hsel.symm.trans h.2) (by decide)
    rw [if_neg hother, if_pos ⟨hclr, hsel⟩, if_pos ⟨hsel, hclr⟩, x.voidFlags_putReg, hv hsel,
      BitVec.setWidth_setWidth_of_le _ (by decide), BitVec.setWidth_eq, BitVec.and_not_self]
  · have hkeep : ¬(sel = 4 ∧ clr) := fun h => hclear h.symm
    rw [if_neg hclear, if_neg hkeep]
    split <;> rw [x.voidFlags_putReg]

end

/-- Settles O11: the value of RDCTL is that of its selector before the bits are cleared. -/
theorem controlReads : Obligations.ControlReads := by
  unfold Obligations.ControlReads
  refine ⟨fun s st hbeat hpast => ?implicit, fun s st hi => ?_⟩
  case implicit =>
    refine ⟨effImplicitBend st s, if_pos ⟨hbeat, hpast⟩, ?_, ?_, fun m hm => ?_, fun k hk => ?_⟩
    · rw [effImplicitBend, State.programErr, State.stand_log, effBend, State.stand_modStand]
    · rw [effImplicitBend, State.programErr, State.log_frame]
      rfl
    · rw [effImplicitBend, State.programErr, State.stand_log, effBend, State.stand_modStand_ne _ _ hm]
    · exact State.counter_log_ne _ _ hk
  intro x
  refine ⟨fun gd clr arg sel => ?rdctl, fun cores dmu vec net dma tile hw => State.gives_stepped hi rfl hw,
    fun cores dmu vec net dma tile hw => State.gives_held hi rfl hw⟩
  have heff : effRdctl st gd clr arg sel (s.issued st) =
      (s.issued st).modStand st fun x => x.rdctl (s.rdctl st arg sel) gd clr arg sel := by
    rw [effRdctl, State.rdctl_issued]
    rfl
  have hstand : (effRdctl st gd clr arg sel (s.issued st)).stand st = x.rdctl (s.rdctl st arg sel) gd clr arg sel := by
    rw [heff, State.stand_modStand, State.stand_issued]
    rfl
  have hflags : sel.val = 3 → s.rdctl st arg sel = (x.credit.win arg).flags := fun h => by rw [h]; rfl
  have hvoid : sel.val = 4 → s.rdctl st arg sel = x.voidFlags.setWidth 32 := fun h => by rw [h]; rfl
  obtain ⟨hreg, hregs, -⟩ := Stand.putsReg_putReg x gd (s.rdctl st arg sel)
  refine State.gives_effect (c := .rdctl st gd clr arg sel) hi rfl rfl ⟨?_, fun q hq => ?_, fun k => ?_, ?_, fun m hm => ?_, ?_, ?_⟩
  · rw [hstand, Stand.reg_rdctl, hreg]
  · rw [hstand, Stand.reg_rdctl, hregs q hq]
  · rw [hstand, Stand.flags_rdctl x _ gd clr arg sel hflags]
  · rw [hstand, Stand.voidFlags_rdctl x _ gd clr arg sel hvoid]
  · rw [heff]; exact (s.onlyStand_issued st _).2 m hm
  · rw [heff]; rfl
  · rw [heff]; exact s.countsOnly_issued st

end Sys2Proof.Machine
end

section
/-! Barrier channels (06 R165; 07 R226) and the flag unit, whose frames reach no stand of this module (11 R355, R356). -/

namespace Sys2Proof.Machine

/-! ## What the flag unit does leaves the stands and the tiers (R356) -/

/-- The stands and the tiers are the same. -/
structure State.offStands (s t : State) : Prop where
  stands : t.stands = s.stands
  mem : t.mem = s.mem

section
variable {s t u : State}

theorem State.offStands_refl (s : State) : s.offStands s := ⟨rfl, rfl⟩
theorem State.offStands.trans (h : s.offStands t) (k : t.offStands u) : s.offStands u := ⟨k.stands.trans h.stands, k.mem.trans h.mem⟩
theorem State.offStands.stand (h : s.offStands t) (m : Nat) : t.stand m = s.stand m := by rw [State.stand, h.stands, State.stand]
theorem State.offStands_log (s : State) (r : ErrRec) : s.offStands (s.log r) := ⟨s.stands_log r, by rw [State.log_frame]⟩
theorem State.offStands_foldl {α : Type} {f : State → α → State} (h : ∀ (s : State) a, s.offStands (f s a)) :
    ∀ (l : List α) (s : State), s.offStands (l.foldl f s)
  | [], s => s.offStands_refl
  | a :: l, s => (h s a).trans (State.offStands_foldl h l (f s a))

end

theorem State.offStands_modPath (s : State) (port peer : Nat) (f : Path → Path) : s.offStands (s.modPath port peer f) := ⟨rfl, rfl⟩
theorem State.offStands_modChan (s : State) (c : Nat) (f : FlagChan → FlagChan) : s.offStands (s.modChan c f) := ⟨rfl, rfl⟩
theorem State.offStands_count (s : State) (k n : Nat) : s.offStands (s.count k n) := ⟨rfl, rfl⟩
theorem State.offStands_emitFrame (s : State) (p peer : Nat) (f : Frame) : s.offStands (s.emitFrame p peer f) := ⟨rfl, rfl⟩

theorem State.offStands_pumpPath (port peer : Nat) : ∀ (k : Nat) (s : State), s.offStands (State.pumpPath port peer k s)
  | 0, s => s.offStands_refl
  | k + 1, s => by
    simp only [State.pumpPath]
    split
    case isTrue =>
      split
      case h_1 => exact s.offStands_refl
      case h_2 =>
        exact ((s.offStands_modPath port peer _).trans (State.offStands_emitFrame ..)).trans (State.offStands_pumpPath port peer k _)
    case isFalse => exact s.offStands_refl
theorem State.offStands_pathSend (s : State) (port peer : Nat) (f : Frame) : s.offStands (s.pathSend port peer f) :=
  (s.offStands_modPath port peer _).trans (State.offStands_pumpPath port peer _ _)
/-- A frame of the flag unit holds no row of an endpoint. -/
theorem State.frameGone_barrier (s : State) {f : Frame} (hf : f.kind = 4) : s.frameGone f = s := by
  simp [State.frameGone, hf]
theorem State.offStands_unreachable (s : State) {f : Frame} (hf : f.kind = 4) : s.offStands (s.unreachable f) := by
  rw [State.unreachable, State.frameGone_barrier _ hf]
  exact (s.offStands_count 0x528009 1).trans (State.offStands_log ..)
theorem State.offStands_route (s : State) (port : Nat) {f : Frame} (hf : f.kind = 4) : s.offStands (s.route port f) := by
  unfold State.route
  split
  case isTrue =>
    split
    case h_1 => exact s.offStands_unreachable hf
    case h_2 alt _ =>
      refine State.offStands.trans ?_ (State.offStands_pathSend ..)
      split
      · exact s.offStands_count 0x528008 1
      · exact s.offStands_refl
  case isFalse =>
    dsimp only
    generalize (if port = 13 then 13 else 12) = c
    split <;> exact State.offStands_pathSend ..
theorem State.offStands_sendBarrier (s : State) (c q op dplace : Nat) : s.offStands (s.sendBarrier c q op dplace) :=
  s.offStands_route 0 rfl
theorem State.offStands_applyComplete (s : State) (c q : Nat) : s.offStands (s.applyComplete c q) := by
  unfold State.applyComplete
  dsimp only
  split_ifs <;> exact ⟨rfl, rfl⟩
theorem State.offStands_rootArrive (s : State) (c q place : Nat) : s.offStands (s.rootArrive c q place) := by
  unfold State.rootArrive
  dsimp only
  split_ifs
  · exact s.offStands_refl
  · exact ((s.offStands_modChan c _).trans (State.offStands_modChan ..)).trans
      ((State.offStands_foldl (fun s n => s.offStands_sendBarrier c q 2 n) _ _).trans (State.offStands_applyComplete ..))
  · exact s.offStands_modChan c _
theorem State.offStands_flagCheck (s : State) (c : Nat) : s.offStands (s.flagCheck c) := by
  unfold State.flagCheck State.flagArrive
  dsimp only
  split_ifs
  · exact s.offStands_refl
  · exact (s.offStands_modChan c _).trans (State.offStands_rootArrive ..)
  · exact (s.offStands_modChan c _).trans (State.offStands_sendBarrier ..)
  · exact s.offStands_refl

/-! ## BARV and BWT (R165) -/

theorem State.offStands_barrierMisuse (s : State) (st op : Nat) : s.offStands (s.barrierMisuse st op) :=
  (s.offStands_count 0x525006 1).trans (State.offStands_log ..)
theorem State.counter_barrierMisuse (s : State) (st op : Nat) :
    (s.barrierMisuse st op).counter 0x525006 = (s.counter 0x525006 + 1) % 2 ^ 64 := by
  rw [State.barrierMisuse, State.programErr, State.counter_log_ne _ _ (by decide), State.counter_count]
/-- What a misuse leaves at a free controller. -/
theorem State.issued_barrierMisuse (s : State) (st op : Nat) (t : State) (ht : t = (s.issued st).barrierMisuse st op) :
    (t.mem = s.mem ∧ ∀ m, m ≠ st → t.stand m = s.stand m) ∧ t.stand st = (s.stand st).stepped ∧
      t.counter 0x525006 = (s.counter 0x525006 + 1) % 2 ^ 64 := by
  subst ht
  have h := (s.issued st).offStands_barrierMisuse st op
  refine ⟨⟨h.mem, fun m hm => (h.stand m).trans (State.stand_issued_ne s hm)⟩, (h.stand st).trans (s.stand_issued st), ?_⟩
  rw [State.counter_barrierMisuse, State.counter_issued_ne _ _ (by decide)]

/-- A channel of this module alone needs no flag unit (R355). -/
theorem State.flagCheck_local {s : State} {c : Nat} (h : s.extended c = false) : s.flagCheck c = s := by simp [State.flagCheck, h]
/-- The arrival of BARV. -/
def Stand.arrives (x : Stand) (c : Nat) : Stand :=
  { x with arrivals := Tab.set 0 x.arrivals c (x.arrivalsOn c + 1), arrived := Tab.set false x.arrived c true }

theorem Stand.arrivalsOn_arrives (x : Stand) (c d : Nat) :
    (x.arrives c).arrivalsOn d = if d = c then x.arrivalsOn c + 1 else x.arrivalsOn d := by
  rw [Stand.arrivalsOn, Stand.arrives, Tab.get_set]
  rfl
theorem Stand.hasArrived_arrives (x : Stand) (c : Nat) : (x.arrives c).hasArrived c = true := by
  rw [Stand.hasArrived, Stand.arrives, Tab.get_set_eq]

/-- Settles O30: the flag unit, which a BARV may set off, reaches no stand. -/
theorem barriers : Obligations.Barriers := by
  unfold Obligations.Barriers
  intro s st c x others
  have hstand : (s.issued st).stand st = x.stepped := s.stand_issued st
  refine ⟨fun hi hpart harr => ?barv, fun hi hmis => ?barvMisuse, fun hi hw => ?bwtHeld, fun hi hpart harr hph => ?bwt,
    fun hi hmis => ?bwtMisuse, fun hext => ⟨_, rfl, ?phase⟩⟩
  case barv =>
    have hcond : ¬((!(s.issued st).participates c st) = true ∨ (s.issued st).phase c < ((s.issued st).stand st).arrivalsOn c) := by
      rw [hstand]
      rintro (h | h)
      · exact absurd hpart ((Bool.not_eq_true' _).mp h ▸ Bool.false_ne_true)
      · exact absurd h (Nat.not_lt.mpr harr)
    have heff : effBarv st c (s.issued st) = ((s.issued st).modStand st fun x => x.arrives c).flagCheck c := if_neg hcond
    have hflag := ((s.issued st).modStand st fun x => x.arrives c).offStands_flagCheck c
    have hown : (effBarv st c (s.issued st)).stand st = x.stepped.arrives c := by
      rw [heff, hflag.stand, State.stand_modStand, hstand]
    refine State.gives_effect (c := .barv st c) hi rfl rfl ⟨⟨?_, fun m hm => ?_⟩, hown, ?_, ?_, fun d hd => ?_, fun hext => ?_⟩
    · rw [heff, hflag.mem]
      rfl
    · rw [heff, hflag.stand, State.stand_modStand_ne _ _ hm, State.stand_issued_ne s hm]
    · rw [hown, Stand.arrivalsOn_arrives, if_pos rfl]
      rfl
    · rw [hown, Stand.hasArrived_arrives]
    · rw [hown, Stand.arrivalsOn_arrives, if_neg hd]
      rfl
    · rw [heff, State.flagCheck_local (s := (s.issued st).modStand st fun x => x.arrives c) hext]
      exact s.onlyStand_issued st _
  case barvMisuse =>
    have hcond : (!(s.issued st).participates c st) = true ∨ (s.issued st).phase c < ((s.issued st).stand st).arrivalsOn c := by
      rw [hstand]
      exact hmis.imp_left fun h => by rw [Bool.not_eq_true']; exact h
    exact State.gives_effect (c := .barv st c) hi rfl rfl (s.issued_barrierMisuse st 0x30 _ (if_pos hcond))
  case bwtHeld => exact State.gives_held (c := .bwt st c) hi rfl (by rw [hw]; rfl)
  case bwt =>
    have hready : (!s.bwtWaits st c) = true := by
      rw [State.bwtWaits, decide_eq_false (Nat.not_lt.mpr hph), Bool.and_false]
      rfl
    have hcond : (s.issued st).participates c st ∧ ((s.issued st).stand st).hasArrived c := by
      rw [hstand]
      exact ⟨hpart, harr⟩
    have heff : effBwt st c (s.issued st) = s.issued st := if_pos hcond
    refine State.gives_effect (c := .bwt st c) hi rfl hready ?_
    rw [heff]
    exact ⟨(s.onlyStand_issued_self st).1, hstand, s.countsOnly_issued st⟩
  case bwtMisuse =>
    have hready : (!s.bwtWaits st c) = true := by
      rw [State.bwtWaits, Bool.not_eq_true', Bool.and_eq_false_imp, Bool.and_eq_true]
      exact fun ⟨hpart, harr⟩ => hmis.elim (fun h => absurd (h.symm.trans hpart) (by decide)) fun h => absurd (h.symm.trans harr) (by decide)
    have hcond : ¬((s.issued st).participates c st ∧ ((s.issued st).stand st).hasArrived c) := by
      rw [hstand]
      rintro ⟨hpart, harr⟩
      exact hmis.elim (fun h => absurd (h.symm.trans hpart) (by decide)) fun h => absurd (h.symm.trans harr) (by decide)
    exact State.gives_effect (c := .bwt st c) hi rfl hready (s.issued_barrierMisuse st 0x31 _ (if_neg hcond))
  case phase =>
    cases hall : s.allArrived c
    case false => simp [State.completePhase, hall]
    case true =>
      simp only [State.completePhase, hall, hext, Bool.not_true, Bool.false_eq_true, if_false, if_true]
      refine ⟨?_, fun d hd => ?_, rfl⟩
      · rw [State.phase, Tab.get_set_eq]
      · rw [State.phase, Tab.get_set_ne _ _ _ hd, State.phase]

end Sys2Proof.Machine
end

section
/-! What the core queues and their engines may change of the state (06 R150, R156 to R158, R169). -/

namespace Sys2Proof.Machine

/-- What operations on the cores of stand st may do to the state: counters, records, the arrays of the stand, and of the stands only its
own, of which grants and repairs of banks, queues and engines, the quarantine and the tiles. -/
structure State.coreWork (s t : State) (st : Nat) : Prop where
  frame : t = { s with stands := t.stands, cores := t.cores, counters := t.counters, rel := t.rel }
  others : ∀ m, m ≠ st → t.stand m = s.stand m
  own : t.stand st = { s.stand st with banks := (t.stand st).banks, units := (t.stand st).units, quarantined := (t.stand st).quarantined,
                                       tile := (t.stand st).tile, tiles := (t.stand st).tiles }
  arrays : ∀ m c, m ≠ st → c < 17 → t.core m c = s.core m c

section
variable {s t u : State} {st : Nat}

theorem State.coreWork_refl (s : State) (st : Nat) : s.coreWork s st := ⟨rfl, fun _ _ => rfl, rfl, fun _ _ _ _ => rfl⟩
theorem State.coreWork.trans (h : s.coreWork t st) (k : t.coreWork u st) : s.coreWork u st :=
  ⟨by rw [k.frame, h.frame], fun m hm => (k.others m hm).trans (h.others m hm), by rw [k.own, h.own],
    fun m c hm hc => (k.arrays m c hm hc).trans (h.arrays m c hm hc)⟩
theorem State.readsAt.coreWork (h : s.readsAt t st) : s.coreWork t st := by
  obtain ⟨hframe, hothers, hown, -⟩ := h
  exact ⟨by rw [hframe], hothers, by rw [hown], fun m c _ _ => by rw [hframe]; rfl⟩
theorem State.coreWork_count (s : State) (st k n : Nat) : s.coreWork (s.count k n) st := (s.readsAt_count st k n).coreWork
theorem State.coreWork_modPos (s : State) (st p : Nat) (f : PosUnit → PosUnit) : s.coreWork (s.modStand st fun x => x.modPos p f) st :=
  (s.readsAt_modPos st p f).coreWork
/-- A change of queues, engines and tiles. -/
theorem State.coreWork_modStand (s : State) (st : Nat) {f : Stand → Stand}
    (h : f (s.stand st) = { s.stand st with units := (f (s.stand st)).units, tile := (f (s.stand st)).tile,
                                            tiles := (f (s.stand st)).tiles }) :
    s.coreWork (s.modStand st f) st :=
  ⟨rfl, fun _ hm => State.stand_modStand_ne s _ hm, by rw [State.stand_modStand, h], fun _ _ _ _ => rfl⟩
theorem State.coreWork_modTile (s : State) (st uid : Nat) (f : Tile → Tile) : s.coreWork (s.modStand st fun x => x.modTile uid f) st :=
  s.coreWork_modStand st rfl
/-- A change of a core of the stand. -/
theorem State.coreWork_modCore (s : State) (st : Nat) {c : Nat} (f : Core → Core) (hc : c < 17) : s.coreWork (s.modCore st c f) st := by
  refine ⟨rfl, fun _ _ => rfl, rfl, fun m d hm hd => State.cores_modCore_ne s f ?_⟩
  unfold arrayNo
  omega
theorem State.coreWork_foldl {α : Type} {f : State → α → State} {l : List α}
    (h : ∀ (s : State) a, a ∈ l → s.coreWork (f s a) st) (s : State) : s.coreWork (l.foldl f s) st := by
  induction l generalizing s with
  | nil => exact s.coreWork_refl st
  | cons a l ih => exact (h s a (List.mem_cons_self ..)).trans (ih (fun s b hb => h s b (List.mem_cons_of_mem _ hb)) _)

end

/-! ## Operations that begin (R156 to R158) -/

section
variable (s : State) (st p : Nat) {c : Nat} (hc : c < 17)

theorem State.coreWork_beginRqnt (r : RqOp) (n : Nat) (rep : Bool) : s.coreWork (s.beginRqnt st p r n rep) st :=
  (s.readsAt_beginRqnt st p r n rep).coreWork
theorem State.coreWork_beginPass (c : Nat) (op : PassOp) : s.coreWork (s.beginPass st p c op) st := by
  unfold State.beginPass
  refine State.coreWork.trans ?counts (State.coreWork_modStand _ st ?own)
  case own => cases op.tile <;> rfl
  case counts =>
    split
    · exact (s.coreWork_count st _ _).trans (State.coreWork_count ..)
    · split
      · exact (s.coreWork_count st _ _).trans (State.coreWork_count ..)
      · exact s.coreWork_count st _ _

include hc

theorem State.coreWork_fillSlot (k : Nat) (v : InSlot) : s.coreWork (s.fillSlot st p c k v) st := by
  have hslot := s.coreWork_modCore st (fun x => x.putSlot k v) hc
  unfold State.fillSlot
  dsimp only
  split
  case isTrue => exact hslot.trans (State.coreWork_modCore _ st _ (by decide))
  case isFalse => exact hslot
theorem State.coreWork_beginVld (k a : Nat) : s.coreWork (s.beginVld st p c k a) st := by
  have hhdr := (s.readsAt_readWords st p 0x10 a 1).coreWork
  unfold State.beginVld
  dsimp only
  split
  case isTrue => exact (hhdr.trans (State.coreWork_fillSlot _ st p hc k _)).trans (State.readsAt_log ..).coreWork
  case isFalse => exact (hhdr.trans (State.readsAt_readWords ..).coreWork).trans (State.coreWork_fillSlot _ st p hc k _)
theorem State.coreWork_beginCore (ahead : List CoreOp) (o : CoreOp) : s.coreWork (s.beginCore st p c ahead o) st := by
  unfold State.beginCore
  cases o with
  | vld k a => exact (s.coreWork_modPos st p _).trans (State.coreWork_beginVld _ st p hc k a)
  | pass q => exact (s.coreWork_modPos st p _).trans (State.coreWork_beginPass _ st p c q)
  | rqnt r => exact (s.coreWork_modPos st p _).trans (State.coreWork_beginRqnt _ st p r _ _)

end
theorem State.coreWork_pumpCore (st p : Nat) {c : Nat} (hc : c < 17) : ∀ (fuel : Nat) (s : State),
    s.coreWork (State.pumpCore st p c fuel s) st
  | 0, s => s.coreWork_refl st
  | fuel + 1, s => by
    simp only [State.pumpCore]
    split
    case h_1 => exact s.coreWork_refl st
    case h_2 => exact (State.coreWork_beginCore s st p hc _ _).trans (State.coreWork_pumpCore st p hc fuel _)

/-! ## Operations handed to a position (R150, R151, R169) -/

/-- A stand has 17 cores. -/
theorem State.fill_lt {s : State} {st p c : Nat} (hp : p < 16) (h : s.fill st p = some c) : c < 17 := by
  rw [State.eq_of_fill h]
  split <;> omega

section
variable (s : State) (st : Nat) {p : Nat} (hp : p < 16)
include hp

theorem State.coreWork_pumpPos : s.coreWork (s.pumpPos st p) st := by
  unfold State.pumpPos
  split
  case h_1 => exact (s.readsAt_vacate st p).coreWork
  case h_2 c hf => exact State.coreWork_pumpCore st p (State.fill_lt hp hf) _ s
theorem State.coreWork_handOver (o : CoreOp) : s.coreWork (s.handOver st p o) st := by
  unfold State.handOver
  split
  case isTrue => exact s.coreWork_count st 0x525004 1
  case isFalse => exact (s.coreWork_modPos st p _).trans (State.coreWork_pumpPos _ st hp)

end

/-! ## VLD, PASS and RQNT (R156 to R158) -/

theorem mem_insertBy {f : Nat → Nat} {q r : Nat} : ∀ {l : List Nat}, q ∈ insertBy f r l → q = r ∨ q ∈ l
  | [], h => by simpa [insertBy] using h
  | y :: l, h => by
    rw [insertBy] at h
    split at h
    · simpa using h
    · rcases List.mem_cons.1 h with rfl | h
      · exact .inr (List.mem_cons_self ..)
      · exact (mem_insertBy h).imp_right (List.mem_cons_of_mem _)
/-- The order of grants is one of the requesters that present accesses (R101). -/
theorem Stand.mem_grantOrder {x : Stand} {a : Nat → Nat} {q : Nat} {l : List Nat} (h : q ∈ x.grantOrder a l) : q ∈ l := by
  have hfold : ∀ (l o : List Nat), q ∈ l.foldl (fun o r => insertBy (fun q => (x.bank (bankOf (a q))).turn q) r o) o →
      q ∈ o ∨ q ∈ l := by
    intro l
    induction l with
    | nil => exact fun o h => .inl h
    | cons r l ih =>
      intro o h
      rcases ih _ h with h | h
      · rcases mem_insertBy h with rfl | h
        · exact .inr (List.mem_cons_self ..)
        · exact .inl h
      · exact .inr (List.mem_cons_of_mem _ h)
  exact (hfold l [] h).resolve_left (List.not_mem_nil)
theorem lt_of_mem_posOf {m : BitVec 16} {p : Nat} (h : p ∈ posOf m) : p < 16 := List.mem_range.1 (List.mem_of_mem_filter h)

theorem State.coreWork_effVld (s : State) (st : Nat) (pos : BitVec 16) (slot a stride : Nat) : s.coreWork (effVld st pos slot a stride s) st :=
  State.coreWork_foldl (fun s _ hp => s.coreWork_handOver st (lt_of_mem_posOf (Stand.mem_grantOrder hp)) _) s
theorem State.coreWork_effPass (s : State) (st : Nat) (pos : BitVec 16) (op : PassOp) : s.coreWork (effPass st pos op s) st := by
  refine State.coreWork_foldl (fun s _ hp => State.coreWork.trans ?step (State.coreWork_handOver _ st (lt_of_mem_posOf hp) _)) s
  split
  · split
    · exact s.coreWork_modTile st _ _
    · exact s.coreWork_refl st
  · exact s.coreWork_refl st
theorem State.coreWork_effRqnt (s : State) (st : Nat) {p : Nat} (op : RqOp) (hp : p < 16) : s.coreWork (effRqnt st p op s) st := by
  refine State.coreWork.trans ?step (State.coreWork_handOver _ st hp _)
  split
  · split
    · exact s.coreWork_modTile st _ _
    · exact s.coreWork_refl st
  · exact s.coreWork_refl st

/-- An issue whose effect is work on the cores. -/
theorem State.issuedAt_of_coreWork {s t : State} {st : Nat} (h : (s.issued st).coreWork t st) : s.issuedAt t st := by
  obtain ⟨hframe, hothers, hown, harrays⟩ := h
  rw [State.stand_issued] at hown
  refine ⟨by rw [hframe]; rfl, by rw [hown], by rw [hown], fun a => by rw [hown]; rfl, by rw [hown], fun m hm => ?_, fun m c hm hc => ?_⟩
  · rw [hothers m hm, State.stand_issued_ne s hm]
  · rw [harrays m c hm hc]
    rfl

/-- Settles O15: whatever begins, and on whichever positions, is work on the cores of the stand. -/
theorem coreIssue : Obligations.CoreIssue := by
  unfold Obligations.CoreIssue
  intro s st pos c hi hform
  have hexec : ∃ eff, exec c s = .next (s.issue st c (s.coresRoom st pos) eff) ∧ (s.issued st).coreWork (eff (s.issued st)) st := by
    rcases hform with ⟨slot, ga, stride, rfl⟩ | ⟨slot, bsel, first, nrows, width, sign, dense, acc, hf, rfl⟩ |
      ⟨p, firsto, nout, mode, fmt, sign, gt, gd, hf, rfl, rfl⟩
    · exact ⟨_, rfl, State.coreWork_effVld ..⟩
    · exact ⟨_, if_pos hf, State.coreWork_effPass ..⟩
    · have hroom : s.coresRoom st (BitVec.ofNat 16 (2 ^ p.val)) = ((s.stand st).pos p).room := by
        rw [State.coresRoom, posOf_single, List.all_cons, List.all_nil, Bool.and_true]
      rw [hroom]
      exact ⟨_, if_pos hf, State.coreWork_effRqnt _ st _ p.isLt⟩
  obtain ⟨eff, hexec, hwork⟩ := hexec
  exact ⟨fun hroom => State.gives_effect hi hexec hroom (State.issuedAt_of_coreWork hwork), fun hroom => State.gives_held hi hexec hroom⟩

end Sys2Proof.Machine
end

section
/-! The end of an interlock (03 R68; 06 R171, R176): a WAIT that the controller holds, a load that waits on its vector. -/

namespace Sys2Proof.Machine

/-! ## A WAIT in the controller's hold (R176) -/

section
variable {s : State} {st : Nat}

/-- What the controller holds does not decide whether it can issue. -/
theorem State.canIssue_setBacklog (s : State) (st : Nat) (l : List Instr) : (s.setBacklog st l).canIssue st = s.canIssue st := by
  simp only [State.canIssue, State.inBeat, State.pastImage, State.setBacklog, State.stand_modStand]
  rfl
/-- The controller issues an instruction that it took from its hold. -/
theorem State.issues_setBacklog (h : s.canIssue st = true) : (s.setBacklog st []).issues st :=
  ⟨(s.canIssue_setBacklog st []).trans h, by rw [State.setBacklog, State.stand_modStand]⟩

variable {i : Instr} {ready : Bool} (hc : s.canIssue st = true) (hb : (s.stand st).backlog = [i])
  (hrun : runInstr i (s.setBacklog st []) = .next ((s.setBacklog st []).issue st i ready id))
include hc hb hrun

/-- An instruction that is held alone and need no longer wait issues and leaves the hold. -/
theorem State.pump_ctrl_ready (hr : ready = true) : s.pump st .ctrl = ((s.setBacklog st []).issued st).endHold st i [] := by
  obtain ⟨hissue, hfree⟩ := State.issues_setBacklog hc
  have hnone : (((s.setBacklog st []).issued st).stand st).backlog = [] := by rw [State.stand_issued]; exact hfree
  subst hr
  simp only [State.pump, hc, if_true, hb, List.length_singleton, State.drain, hrun, State.issue_ready _ st i id hissue hfree, id, hnone]
/-- One that must still wait stays in the hold, and nothing changes. -/
theorem State.pump_ctrl_waits (hr : ready = false) : s.pump st .ctrl = s := by
  have hheld : (((s.setBacklog st []).issue st i false id).stand st).backlog ≠ [] := by
    rw [State.issue_held i id (State.issues_setBacklog hc), State.stand_modStand]
    exact List.cons_ne_nil _ _
  subst hr
  simp only [State.pump, hc, if_true, hb, List.length_singleton, State.drain, hrun, if_neg hheld]

end

/-! ## A load that waits on its vector (R68, R171) -/

section
variable {s : State} {st p c : Nat}

/-- A position that holds one operation alone begins it once nothing holds it back. -/
theorem State.pumpPos_holding {o : CoreOp} (hf : s.fill st p = some c) (hu : (s.stand st).pos p = { queue := [o] })
    (hr : (s.stand st).repeatHolds p = false) :
    s.pumpPos st p = if s.coreReady st p [] o then s.beginCore st p c [] o else s := by
  cases hready : s.coreReady st p [] o <;>
    simp [State.pumpPos, hf, hu, State.pumpCore, Stand.mayBegin, hr, State.firstReady, hready]
/-- A load alone in a position's queue waits on PEND only. -/
theorem State.coreReady_vld {k a : Nat} (hu : (s.stand st).pos p = { queue := [.vld k a] }) :
    s.coreReady st p [] (.vld k a) = !(s.stand st).pendAt a := by
  simp [State.coreReady, hu, PosUnit.inEngines, handed]

/-- The slot of the core that fills the position takes the value, paired with core 16 or not. -/
theorem State.slot_fillSlot (s : State) (st p c k : Nat) (v : InSlot) : ((s.fillSlot st p c k v).core st c).slot k = v := by
  unfold State.fillSlot
  dsimp only
  split
  case isTrue =>
    by_cases h : c = 16
    · rw [h, State.core_modCore, Core.slot_putSlot]
    · rw [State.core_modCore_ne _ _ h, State.core_modCore, Core.slot_putSlot]
  case isFalse => rw [State.core_modCore, Core.slot_putSlot]
theorem State.stand_fillSlot (s : State) (st p c k m : Nat) (v : InSlot) : (s.fillSlot st p c k v).stand m = s.stand m := by
  unfold State.fillSlot
  dsimp only
  split <;> rfl

/-- A load from a clean scratchpad, whatever the header of its vector: the slot notes where it came from; of the stands only grants of
banks differ. -/
theorem State.beginVld_fills (hc : (s.stand st).clean) (p c k a : Nat) :
    let t := s.beginVld st p c k a
    ((t.core st c).slot k).src = some a ∧ t.stand st = { s.stand st with banks := (t.stand st).banks } ∧
      ∀ m, m ≠ st → t.stand m = s.stand m := by
  have hhdr := (State.glances_readWords hc p 0x10 a 1).2.readies
  intro t
  simp only [t, State.beginVld]
  split
  case isTrue =>
    simp only [State.operandErr, State.core_log, State.stand_log, State.slot_fillSlot, State.stand_fillSlot]
    exact ⟨trivial, hhdr.own, hhdr.others⟩
  case isFalse =>
    simp only [State.slot_fillSlot, State.stand_fillSlot]
    have hread := fun n => hhdr.trans (State.glances_readWords (hhdr.clean hc) p 0x10 (a + 1) n).2.readies
    exact ⟨trivial, (hread _).own, (hread _).others⟩

/-- A load that begins leaves its position's queue empty. -/
theorem State.beginCore_vld {k a : Nat} (hc : (s.stand st).clean) (hu : (s.stand st).pos p = { queue := [.vld k a] }) (c : Nat) :
    let t := s.beginCore st p c [] (.vld k a)
    (t.stand st).pos p = {} ∧ ((t.core st c).slot k).src = some a ∧ (t.stand st).regs = (s.stand st).regs ∧
      (t.stand st).spad = (s.stand st).spad ∧ ∀ m, m ≠ st → t.stand m = s.stand m := by
  intro t
  obtain ⟨u, hunit, hown, hothers⟩ : ∃ u : State, u.beginVld st p c k a = t ∧ u.stand st = (s.stand st).modPos p (fun _ => {}) ∧
      ∀ m, m ≠ st → u.stand m = s.stand m := by
    refine ⟨_, rfl, ?_, fun m hm => State.stand_modStand_ne _ _ hm⟩
    rw [State.stand_modStand, Stand.modPos, Stand.modPos, hu]
    rfl
  have hclean : (u.stand st).clean := by rw [hown]; exact hc
  obtain ⟨hsrc, hfilled, hrest⟩ := State.beginVld_fills hclean p c k a
  rw [hunit] at hsrc hfilled hrest
  rw [hown] at hfilled
  refine ⟨?_, hsrc, by rw [hfilled]; rfl, by rw [hfilled]; rfl, fun m hm => (hrest m hm).trans (hothers m hm)⟩
  have hpos : (t.stand st).pos p = ((s.stand st).modPos p fun _ => {}).pos p := by rw [hfilled]; rfl
  exact hpos.trans (Stand.pos_modPos ..)

end

/-- Settles O36: an instruction of the controller issues again once its hold is taken from it; a load begins as soon as PEND is 0. -/
theorem interlockRelease : Obligations.InterlockRelease := by
  unfold Obligations.InterlockRelease
  intro s st hcan x
  refine ⟨fun cores dmu vec net dma tile hb => ⟨fun hmet => ?_, fun hwait => ?_⟩, fun p c k a i hform hf hu hr hclean => ?_⟩
  · have hmet' : ((s.setBacklog st []).stand st).waitMet cores dmu vec net dma tile = true := by
      rw [State.setBacklog, State.stand_modStand]
      exact hmet
    refine ⟨_, congrArg Host.Outcome.next (State.pump_ctrl_ready hcan hb rfl hmet'), ?_⟩
    have hissued : ((s.setBacklog st []).issued st).stand st = { x with backlog := [], pc := x.pc + 1 } := by
      rw [State.stand_issued, State.setBacklog, State.stand_modStand]
    refine ⟨⟨rfl, fun m hm => ?_⟩, ?_, ?_, ?_, ?_⟩
    · rw [State.endHold, State.stand_modStand_ne _ _ hm, State.stand_issued_ne _ hm, State.setBacklog, State.stand_modStand_ne _ _ hm]
    · rw [State.endHold, State.stand_modStand]
    · rw [State.endHold, State.stand_modStand, hissued]
    · rw [State.endHold, State.stand_modStand, hissued]
    · exact (s.setBacklog st []).countsOnly_issued st
  · have hwait' : ((s.setBacklog st []).stand st).waitMet cores dmu vec net dma tile = false := by
      rw [State.setBacklog, State.stand_modStand]
      exact hwait
    exact congrArg Host.Outcome.next (State.pump_ctrl_waits hcan hb rfl hwait')
  · have harith : s.arith = true := by
      simp only [State.canIssue, State.inBeat, Bool.and_eq_true] at hcan
      exact hcan.1.1.1.1.1
    have hexec : exec i s = .next (s.pumpPos st p) := by
      rcases hform with rfl | rfl <;> exact congrArg Host.Outcome.next (if_pos harith)
    rw [State.pumpPos_holding hf hu hr, State.coreReady_vld hu] at hexec
    constructor
    · intro hpend
      rw [hexec, hpend]
      rfl
    · intro hpend
      rw [hpend] at hexec
      exact ⟨_, hexec, State.beginCore_vld hclean hu c⟩

end Sys2Proof.Machine
end

section
/-! Which commands are refused as ill-formed, and that every other one answers a next state (06 R189). -/

namespace Sys2Proof.Machine

/-- The command answers a next state. -/
def Runs (r : Res) : Prop := ∃ t, r = .next t
theorem runs_next (t : State) : Runs (.next t) := ⟨t, rfl⟩
theorem runs_ite {c : Prop} [Decidable c] {a b : Res} (ha : Runs a) (hb : Runs b) : Runs (if c then a else b) := by
  split
  · exact ha
  · exact hb
/-- A command behind a guard. -/
theorem runs_guard {c : Prop} [Decidable c] (t u : State) : Runs (if c then .next t else .next u) := runs_ite (runs_next t) (runs_next u)

/-- An instruction that breaks a check of R189 is refused. -/
theorem exec_of_not_wellFormed {i : Instr} (s : State) (h : i.wellFormed = false) : exec i s = .refused .illFormed := by
  cases i with
  | alu | br | xld | mwo | qnt | vacc => exact if_neg (of_decide_eq_false h)
  | pass | rqnt | wopen | creq | mwr | red | dma | mma | vop => exact if_neg (Bool.eq_false_iff.1 h)
  | rwr => exact if_neg fun hf => Bool.eq_false_iff.1 h (Bool.and_eq_true_iff.2 hf)
  | vtopk st km1 gd ga gb cm1 merge =>
    refine if_neg ?_
    simpa [Instr.wellFormed] using h
  | _ => cases h

/-- One that meets them issues, or waits, in every state. -/
theorem runs_exec {i : Instr} {s : State} (h : i.wellFormed = true) (htile : ∀ st tile, i = .topen st tile → (s.tileWord tile.toNat).isSome) :
    Runs (exec i s) := by
  cases i with
  | alu | br | xld | mwo | qnt | vacc => exact ⟨_, if_pos (of_decide_eq_true h)⟩
  | pass | rqnt | wopen | creq | mwr | red | dma | mma | vop => exact ⟨_, if_pos h⟩
  | rwr => exact ⟨_, if_pos (Bool.and_eq_true_iff.1 h)⟩
  | vtopk st km1 gd ga gb cm1 merge =>
    refine ⟨_, if_pos ?_⟩
    simpa [Instr.wellFormed] using h
  | topen st tile =>
    obtain ⟨w, hw⟩ := Option.isSome_iff_exists.1 (htile st tile rfl)
    exact ⟨_, exec_topen hw⟩
  -- behind one guard
  | implicitBend | bankWakeDone | hazard | beatBoundary | beatLaunch | beatWatchdog | flitCrcFail | reductionPartArrive | seamWireTest
  | descriptorTimeout | attemptTimeout | arrayWriteVerifyDone | shardFinalCheck | patrolRead | clearArbiterCounters | resendPoint
  | hostWindowWrite | hostWindowRead | cxlSnoop | portModeNegotiation | helloSend | helloLoss | ack | retransmitTimeout | relay | reduce
  | reroute | arrive | complete | withdraw | shardData | neighbourSolicitation | cableInsert | voltageMarginCommand | groveFecFailure
  | adcResult | diodeReading | diodeReadingTimeout | throttleRelease | orderlyStopClockStop | immediateStop | arrayCalibrationDue
  | vauxValid | brownout | phaseFailed | powerSample | coldReset | warmReset | perstN | fatalDelayExpiry | escalatedWatchdog
  | debugFlagWrite | getVersion | getCapabilities | negotiateAlgorithms | getDigests | getCertificate | challenge | getMeasurements
  | spdmUnsupportedRequest | firmwareUpload | msixEventVector | msixVectorUnmask | hotReset => exact runs_guard ..
  -- behind two or three
  | scrubRead | pseudoChannelRemap | adcTrigger | thermistorReading | fatalReset | coldExit => exact runs_ite (runs_next _) (runs_guard ..)
  | adcCalibrationRun => exact runs_ite (runs_guard ..) (runs_next _)
  | meshLinkWireTest | arbiterPark | vlanDatagram => exact runs_ite (runs_next _) (runs_ite (runs_next _) (runs_guard ..))
  -- by what they find: a packet's body, a row's state, a queue's front
  | gateWaitExpiry _ g => cases g <;> exact runs_guard ..
  | creqReceive | cgrantReceive | creditVoidReceive | awayReceive | remoteWriteReceive | rowFilled | rowRepair
  | packetReceive | mcastForward | reducePacketArrive | combiningWindowExpiry | reductionTimeout | shardArrive | memreqReceive
  | memrspReceive | arbiterGrant | hostLinkTraining | shardReq | repairSequencerDone | selfTestStep | forcedClearing | sliceCommand
  | errorRecordWrite | railSequence | requestLimitTimeout | recountSnapshot =>
    delta exec execCreqReceive execCgrantReceive execCreditVoidReceive execAwayReceive execRemoteWriteReceive execRowFilled execRowRepair
      execPacketReceive execMcastForward execReducePacketArrive execCombiningWindowExpiry execReductionTimeout execShardArrive
      execMemreqReceive execMemrspReceive execArbiterGrant execHostLinkTraining execShardReq execRepairSequencerDone execSelfTestStep
      execForcedClearing execSliceCommand execErrorRecordWrite execRailSequence execRequestLimitTimeout execRecountSnapshot
    dsimp only
    repeat' split
    all_goals exact runs_next _
  | _ => exact runs_next _

/-- Settles O48: the checks of R189 are the only ones that refuse. -/
theorem illFormedRefused : Obligations.IllFormedRefused := by
  unfold Obligations.IllFormedRefused
  refine fun i s => ⟨exec_of_not_wellFormed s, fun st tile hnone => ?_, runs_exec⟩
  change execTopen st tile s = _
  rw [execTopen, hnone]

end Sys2Proof.Machine
end

section
/-! The DMA engine of a stand (06 R164; 10 R314). It sends its requests and reads its words when it begins (log 15). -/

namespace Sys2Proof.Machine

/-! ## Memory requests (R314) -/

/-- What memory requests and the end of credits may do to the state: the list of requests, the tags and the entries of stand st, and
packets behind those in the mesh. -/
structure State.requests (s t : State) (st : Nat) : Prop where
  own : t.stand st = { s.stand st with sender := (t.stand st).sender, mems := (t.stand st).mems, nextTag := (t.stand st).nextTag }
  others : ∀ m, m ≠ st → t.stand m = s.stand m
  mem : t.mem = s.mem
  mesh : s.mesh <+: t.mesh

section
variable {s t u : State} {st : Nat}

theorem State.requests_refl (s : State) (st : Nat) : s.requests s st := ⟨rfl, fun _ _ => rfl, rfl, List.prefix_rfl⟩
theorem State.requests.trans (h : s.requests t st) (k : t.requests u st) : s.requests u st :=
  ⟨by rw [k.own, h.own], fun m hm => (k.others m hm).trans (h.others m hm), k.mem.trans h.mem, h.mesh.trans k.mesh⟩
theorem State.requests_foldl {α : Type} {f : State → α → State} (h : ∀ (s : State) a, s.requests (f s a) st) :
    ∀ (l : List α) (s : State), s.requests (l.foldl f s) st
  | [], s => s.requests_refl st
  | a :: l, s => (h s a).trans (State.requests_foldl h l (f s a))
theorem State.requests_sendMem (s : State) (st : Nat) (tierB : Bool) (m : MemReq) : s.requests (s.sendMem st tierB m) st := by
  refine ⟨?_, fun m hm => ?_, rfl, List.prefix_append _ _⟩
  · rw [State.sendMem, State.stand_send, State.stand_modStand]
  · rw [State.sendMem, State.stand_send, State.stand_modStand_ne _ _ hm]
theorem State.requests_useEntry (s : State) (st dest window row : Nat) (final : Bool) :
    s.requests (s.modStand st fun x => x.useEntry dest window row final) st := by
  refine ⟨?_, fun _ hm => State.stand_modStand_ne _ _ hm, rfl, List.prefix_rfl⟩
  rw [State.stand_modStand, Stand.useEntry]
  split <;> rfl

/-- A packet in the mesh keeps its place. -/
theorem State.requests.stays {n : Nat} {p : Packet} (hp : t.mesh[n]? = some p) (h : t.requests u st) : u.mesh[n]? = some p :=
  (List.prefix_iff_getElem?.1 h.mesh _ (List.getElem?_eq_some_iff.1 hp).1).trans (List.getElem?_eq_getElem _ ▸ hp)

end

theorem State.mesh_modStand (s : State) (st : Nat) (f : Stand → Stand) : (s.modStand st f).mesh = s.mesh := rfl
/-- A memory request in the mesh (R314). -/
def State.memPacket (s : State) (st : Nat) (tierB : Bool) (m : MemReq) : Packet :=
  s.packet st (endpointOf tierB (4 * m.waddr)) (.memreq { m with tag := (s.stand st).nextTag % 256 })
theorem State.mesh_sendMem (s : State) (st : Nat) (tierB : Bool) (m : MemReq) :
    (s.sendMem st tierB m).mesh[s.mesh.length]? = some (s.memPacket st tierB m) :=
  List.getElem?_concat_length ..
theorem State.sender_sendMem (s : State) (st : Nat) (tierB : Bool) (m : MemReq) :
    ((s.sendMem st tierB m).stand st).sender = (s.stand st).sender := by
  rw [State.sendMem, State.stand_send, State.stand_modStand]
/-- Memory requests sent one after the other. -/
def State.sendMems (s : State) (st : Nat) (tierB : Bool) (l : List MemReq) : State := l.foldl (fun s m => s.sendMem st tierB m) s
theorem State.requests_sendMems (s : State) (st : Nat) (tierB : Bool) (l : List MemReq) : s.requests (s.sendMems st tierB l) st :=
  State.requests_foldl (fun s m => s.requests_sendMem st tierB m) l s
theorem State.sender_sendMems (st : Nat) (tierB : Bool) (l : List MemReq) : ∀ s : State,
    ((s.sendMems st tierB l).stand st).sender = (s.stand st).sender := by
  induction l with
  | nil => exact fun _ => rfl
  | cons m l ih => exact fun s => (ih _).trans (s.sender_sendMem st tierB m)
theorem State.sendMems_first (s : State) (st : Nat) (tierB : Bool) (m : MemReq) (l : List MemReq) :
    (s.sendMems st tierB (m :: l)).mesh[s.mesh.length]? = some (s.memPacket st tierB m) :=
  State.requests.stays (s.mesh_sendMem st tierB m) (State.requests_sendMems _ st tierB l)

/-- A fold that settles each element of its list, and unsettles none, settles them all. -/
theorem foldl_settles {α σ : Type} {f : σ → α → σ} {P : σ → α → Prop} (hmake : ∀ s a, P (f s a) a)
    (hkeep : ∀ s a b, P s b → P (f s a) b) : ∀ (l : List α) (s : σ), ∀ a ∈ l, P (l.foldl f s) a := by
  have hstays : ∀ (l : List α) (s : σ) (b : α), P s b → P (l.foldl f s) b := fun l => by
    induction l with
    | nil => exact fun s b h => h
    | cons a l ih => exact fun s b h => ih _ b (hkeep s a b h)
  intro l
  induction l with
  | nil => exact fun s a ha => absurd ha (List.not_mem_nil)
  | cons c l ih =>
    intro s a ha
    rcases List.mem_cons.1 ha with rfl | ha
    · exact hstays l _ _ (hmake s a)
    · exact ih _ a ha

/-! ## Credits that end (R162) -/

theorem Stand.entry_none_iff (x : Stand) (dest window row : Nat) : x.entry dest window row = none ↔
    ∀ e ∈ x.sender, ¬(e.dest = dest ∧ e.window = window ∧ e.row = row) := by
  simp [Stand.entry, List.find?_eq_none]
theorem Stand.entry_useEntry (x : Stand) (dest window row : Nat) : (x.useEntry dest window row true).entry dest window row = none := by
  rw [Stand.entry_none_iff]
  rintro e he ⟨rfl, rfl, rfl⟩
  simpa using (List.mem_filter.1 he).2
theorem Stand.entry_useEntry_none (x : Stand) {dest window row d w r : Nat} (h : x.entry d w r = none) :
    (x.useEntry dest window row true).entry d w r = none := by
  rw [Stand.entry_none_iff] at *
  exact fun e he => h e (List.mem_of_mem_filter he)

/-! ## A DMA that begins (R164) -/

/-- The DMA engine runs an instruction. -/
def Stand.startDma (x : Stand) (j : DmaJob) : Stand := { x with dma := some j }

/-- The first request of a departure. -/
theorem wordReqs_first (tierB : Bool) (w : Nat) {ws : List Word} (h : ws ≠ []) : ∃ q l, wordReqs tierB ws.length w ws = q :: l ∧
    q.op = 1 ∧ q.waddr = w ∧ q.data = ws.take (min ws.length (64 - w % 64)) := by
  cases ws with
  | nil => exact absurd rfl h
  | cons v ws => exact ⟨_, _, rfl, rfl, rfl, rfl⟩
/-- The first request of a window row. -/
theorem rowReqs_first (tierB : Bool) (w n window row gen : Nat) : ∃ q l,
    rowReqs tierB w n window row gen = q :: l ∧ q.op = 2 ∧ q.waddr = w := by
  unfold rowReqs splitUnit
  dsimp only
  split <;> exact ⟨_, _, rfl, rfl, rfl⟩
theorem Stand.take_run (x : Stand) (a n k : Nat) : (x.run a n).take k = x.run a (min n k) := by
  rw [Stand.run, Stand.run, ← List.map_take, List.take_range, Nat.min_comm]

/-- A DMA that breaks a rule of its start is complete at once. -/
theorem State.runDma_refused {s : State} {st : Nat} {o : DmaOp} (h : s.dmaStarts st o.dir o.tierB o.addr o.window o.row o.words = false) :
    s.runDma st o = s.programErr st 0x2C 164 o.idx := by
  rw [State.runDma, h]
  rfl

section
variable {s : State} {st : Nat} {o : DmaOp} (hs : s.dmaStarts st o.dir o.tierB o.addr o.window o.row o.words = true) (hw : 1 ≤ o.words)
include hs hw

/-- A departure reads its words, notes its tags and sends its requests. -/
theorem State.runDma_departs (hc : (s.stand st).clean) (hd : o.dir = true) : ∃ u v : State, ∃ tags m, s.glances u st ∧
    (u.modStand st fun x => x.startDma { window := o.window, rows := [], tags }).requests (s.runDma st o) st ∧ tags ≠ [] ∧
    ((s.runDma st o).stand st).sender = (s.stand st).sender ∧ (s.runDma st o).mesh[s.mesh.length]? = some (v.memPacket st o.tierB m) ∧
    m.op = 1 ∧ m.waddr = o.addr / 4 ∧ m.data = (s.stand st).run o.src (min o.words (64 - o.addr / 4 % 64)) := by
  obtain ⟨hwords, hread⟩ := State.glances_readWords hc 20 0x2C (wa o.src) o.words
  rw [Stand.run_wa] at hwords
  obtain ⟨q, l, hreqs, hop, haddr, hdata⟩ := wordReqs_first o.tierB (o.addr / 4) (ws := (s.stand st).run o.src o.words)
    (List.ne_nil_of_length_pos (by rw [Stand.length_run]; exact hw))
  rw [Stand.length_run] at hreqs hdata
  obtain ⟨tags, htags, hrun⟩ : ∃ tags, tags ≠ [] ∧ s.runDma st o = State.sendMems
      ((s.readWords st 20 0x2C (wa o.src) o.words).2.modStand st fun x => x.startDma { window := o.window, rows := [], tags })
      st o.tierB (q :: l) := by
    refine ⟨(List.range (q :: l).length).map (· + (s.stand st).nextTag), by simp, ?_⟩
    rw [hd] at hs
    simp only [State.runDma, hs, hd, Bool.not_true, Bool.false_eq_true, if_false, if_true, hwords, hreqs]
    rfl
  have hfirst := State.sendMems_first ((s.readWords st 20 0x2C (wa o.src) o.words).2.modStand st fun x =>
    x.startDma { window := o.window, rows := [], tags }) st o.tierB q l
  rw [State.mesh_modStand, hread.readies.mesh, ← hrun] at hfirst
  refine ⟨_, _, tags, q, hread, by rw [hrun]; exact State.requests_sendMems .., htags, ?_, hfirst, hop, haddr, ?_⟩
  · rw [hrun, State.sender_sendMems, State.stand_modStand, Stand.startDma, hread.own]
  · rw [hdata, Stand.take_run, Nat.min_eq_right (Nat.min_le_left ..)]

end

/-- What an arrival does for one of its rows: the credit ends, the words are asked for. -/
def State.arriveRow (o : DmaOp) (st : Nat) (s : State) (e : Nat × Nat) : State :=
  (s.modStand st fun x => x.useEntry st o.window e.1 true).sendMems st o.tierB
    (rowReqs o.tierB (o.addr / 4 + 64 * e.2) (min 64 (o.words - 64 * e.2)) o.window e.1
      (match (s.stand st).entry st o.window e.1 with | some x => x.gen | none => 0))

section
variable (s : State) (st : Nat) (o : DmaOp) (e : Nat × Nat)

theorem State.requests_arriveRow : s.requests (s.arriveRow o st e) st :=
  (s.requests_useEntry st st o.window e.1 true).trans (State.requests_sendMems ..)
theorem State.sender_arriveRow : ((s.arriveRow o st e).stand st).sender = ((s.stand st).useEntry st o.window e.1 true).sender := by
  rw [State.arriveRow, State.sender_sendMems, State.stand_modStand]
theorem Stand.entry_congr {x y : Stand} (h : y.sender = x.sender) (d w r : Nat) : y.entry d w r = x.entry d w r := by
  rw [Stand.entry, h, Stand.entry]
theorem State.arriveRow_first : ∃ q, (s.arriveRow o st e).mesh[s.mesh.length]? =
      some ((s.modStand st fun x => x.useEntry st o.window e.1 true).memPacket st o.tierB q) ∧
    q.op = 2 ∧ q.waddr = o.addr / 4 + 64 * e.2 := by
  obtain ⟨q, l, hreqs, hop, haddr⟩ := rowReqs_first o.tierB (o.addr / 4 + 64 * e.2) (min 64 (o.words - 64 * e.2)) o.window e.1
    (match (s.stand st).entry st o.window e.1 with | some x => x.gen | none => 0)
  refine ⟨q, ?_, hop, haddr⟩
  rw [State.arriveRow, hreqs]
  exact State.sendMems_first ..

end
/-- An arrival ends the credits of its rows and asks for them. -/
theorem State.runDma_arrives {s : State} {st : Nat} {o : DmaOp}
    (hs : s.dmaStarts st o.dir o.tierB o.addr o.window o.row o.words = true) (hw : 1 ≤ o.words) (hd : o.dir = false) : ∃ v : State, ∃ m,
    (s.modStand st fun x => x.startDma { window := o.window, rows := dmaRows o.row o.words, tags := [] }).requests (s.runDma st o) st ∧
    (∀ r ∈ dmaRows o.row o.words, ((s.runDma st o).stand st).entry st o.window r = none) ∧
    (s.runDma st o).mesh[s.mesh.length]? = some (v.memPacket st o.tierB m) ∧ m.op = 2 ∧ m.waddr = o.addr / 4 := by
  have hrun : s.runDma st o = (dmaRows o.row o.words).zipIdx.foldl (State.arriveRow o st)
      (s.modStand st fun x => x.startDma { window := o.window, rows := dmaRows o.row o.words, tags := [] }) := by
    rw [hd] at hs
    simp only [State.runDma, hs, hd, Bool.not_true, Bool.false_eq_true, if_false]
    rfl
  obtain ⟨l, hrows⟩ : ∃ l, (dmaRows o.row o.words).zipIdx = (o.row, 0) :: l := by
    obtain ⟨n, hn⟩ : ∃ n, ceilDiv o.words 64 = n + 1 := Nat.exists_eq_succ_of_ne_zero (by unfold ceilDiv; omega)
    rw [dmaRows, hn, List.range_succ_eq_map, List.map_cons, List.zipIdx_cons, Nat.zero_add]
    exact ⟨_, rfl⟩
  have hrest := State.requests_foldl (fun s e => s.requests_arriveRow st o e)
  obtain ⟨m, hfirst, hop, haddr⟩ := State.arriveRow_first
    (s.modStand st fun x => x.startDma { window := o.window, rows := dmaRows o.row o.words, tags := [] }) st o (o.row, 0)
  have hstays := (hrest l _).stays hfirst
  rw [← List.foldl_cons, ← hrows, ← hrun] at hstays
  refine ⟨_, m, by rw [hrun]; exact hrest _ _, fun r hr => ?_, hstays, hop, haddr⟩
  · obtain ⟨e, he, rfl⟩ := List.mem_map.1 ((List.zipIdx_map_fst 0 (dmaRows o.row o.words)).symm ▸ hr)
    rw [hrun]
    refine foldl_settles (P := fun (s : State) (e : Nat × Nat) => (s.stand st).entry st o.window e.1 = none) (fun s e => ?_)
      (fun s e b hb => ?_) _ _ e he
    · rw [Stand.entry_congr (s.sender_arriveRow st o e), Stand.entry_useEntry]
    · rw [Stand.entry_congr (s.sender_arriveRow st o e), Stand.entry_useEntry_none _ hb]

/-! ## The queue of the DMA engine (R150, R151) -/

/-- A DMA for an idle engine begins at once. -/
theorem effDma_begins {s : State} {st : Nat} (hj : (s.stand st).dma = none) (hq : (s.stand st).dmaQ = []) (dir tierB : Bool)
    (addr window row words src : Nat) : ∃ u, s.glances u st ∧ u.stand st = s.stand st ∧
    effDma st dir tierB addr window row words src s = u.runDma st { idx := s.idx st, dir, tierB, addr, window, row, words, src } := by
  let o : DmaOp := { idx := s.idx st, dir, tierB, addr, window, row, words, src }
  have hback : { ({ s.stand st with dmaQ := (s.stand st).dmaQ ++ [o] } : Stand) with dmaQ := [] } = s.stand st := by rw [← hq]
  refine ⟨(s.modStand st fun x => { x with dmaQ := x.dmaQ ++ [o] }).modStand st fun x => { x with dmaQ := [] },
    State.glances_restored hback, ?_, ?_⟩
  · rw [State.stand_modStand, State.stand_modStand, hback]
  · simp only [effDma, State.nextDma, State.stand_modStand, hq, List.nil_append, List.length_singleton, State.pumpDma, hj]
    rfl
/-- A DMA for a running engine waits in its queue. -/
theorem effDma_waits {s : State} {st : Nat} (hj : (s.stand st).dma.isSome) (dir tierB : Bool) (addr window row words src : Nat) :
    ∃ o, effDma st dir tierB addr window row words src s = s.modStand st fun x => { x with dmaQ := x.dmaQ ++ [o] } := by
  obtain ⟨j, hj⟩ := Option.isSome_iff_exists.1 hj
  refine ⟨{ idx := s.idx st, dir, tierB, addr, window, row, words, src }, ?_⟩
  simp only [effDma, State.nextDma, State.stand_modStand, List.length_append, List.length_singleton, State.pumpDma, hj]
/-- The rule of the start looks at the credits and the window of the stand. -/
theorem State.dmaStarts_congr {s u : State} {st : Nat} (hc : (u.stand st).credit = (s.stand st).credit)
    (hs : (u.stand st).sender = (s.stand st).sender) (dir tierB : Bool) (addr window row words : Nat) :
    u.dmaStarts st dir tierB addr window row words = s.dmaStarts st dir tierB addr window row words := by
  simp only [State.dmaStarts, hc, Stand.entry_congr hs]

/-- An issue at stand st that leaves registers, scratchpad, tiers and every other stand. -/
def State.issueOnly (s t : State) (st : Nat) : Prop :=
  (t.stand st).pc = (s.stand st).pc + 1 ∧ (t.stand st).regs = (s.stand st).regs ∧ (t.stand st).spad = (s.stand st).spad ∧ t.mem = s.mem ∧
    ∀ m, m ≠ st → t.stand m = s.stand m
/-- What a DMA that began leaves at a free controller. -/
structure State.dmaRuns (s t : State) (st : Nat) (j : DmaJob) : Prop where
  rest : s.issueOnly t st
  queue : (t.stand st).dmaQ = (s.stand st).dmaQ
  job : (t.stand st).dma = some j
theorem State.dmaRuns_of_requests {s u t : State} {st : Nat} {j : DmaJob} (h : (s.issued st).glances u st)
    (k : (u.modStand st fun x => x.startDma j).requests t st) : s.dmaRuns t st j := by
  obtain ⟨hown, hothers, hmem, -⟩ := k
  rw [State.stand_modStand, h.own, State.stand_issued] at hown
  refine ⟨⟨by rw [hown]; rfl, by rw [hown]; rfl, by rw [hown]; rfl, ?_, fun m hm => ?_⟩, by rw [hown]; rfl, by rw [hown]; rfl⟩
  · exact hmem.trans h.readies.mem
  · rw [hothers m hm, State.stand_modStand_ne _ _ hm, h.others m hm, State.stand_issued_ne s hm]

/-- Settles O28: the DMA engine sends its requests and reads its words when it begins (log 15). -/
theorem dmaCommand : Obligations.DmaCommand := by
  unfold Obligations.DmaCommand
  intro s st dir tierB ga window row words gs hi hf x addr c rest first
  have hexec : exec c s = .next (s.issue st c x.dmaRoom (effDma st dir tierB addr window row words (s.g st gs))) := if_pos hf
  have hwords : 1 ≤ words.val := (of_decide_eq_true hf).1
  have hx : (s.issued st).stand st = x.stepped := s.stand_issued st
  have hidle : x.dma = none → x.dmaQ = [] → ∃ u i, (s.issued st).glances u st ∧ u.stand st = x.stepped ∧
      u.dmaStarts st dir tierB addr window row words = s.dmaStarts st dir tierB addr window row words ∧
      ∀ P : State → Prop, P (u.runDma st ⟨i, dir, tierB, addr, window, row, words, s.g st gs⟩) → s.gives c P := fun hj hq => by
    obtain ⟨u, hu, hstand, heff⟩ := effDma_begins (s := s.issued st) (st := st) (by rw [hx]; exact hj) (by rw [hx]; exact hq) dir tierB addr
      window row words (s.g st gs)
    rw [hx] at hstand
    refine ⟨u, (s.issued st).idx st, hu, hstand, State.dmaStarts_congr (by rw [hstand]; rfl) (by rw [hstand]; rfl) .., fun P h => ?_⟩
    exact State.gives_effect hi hexec (decide_eq_true (by rw [hq]; decide)) (by rw [heff]; exact h)
  have hfirst : ∀ {t u v : State} {op : Nat} {m : MemReq}, (s.issued st).glances u st →
      t.mesh[u.mesh.length]? = some (v.memPacket st tierB m) → m.op = op → m.waddr = addr / 4 →
      first t op (v.memPacket st tierB m) { m with tag := (v.stand st).nextTag % 256 } := fun hu hp hop haddr => by
    have hmesh : _ = s.mesh := hu.readies.mesh
    rw [hmesh] at hp
    exact ⟨hp, rfl, congrArg (fun a => endpointOf tierB (4 * a)) haddr, rfl, hop, haddr⟩
  refine ⟨fun hc hj hq hs hd => ?departs, fun hc hj hq hs hd => ?arrives, fun hj hq hs => ?refused, fun hj hroom => ?waits,
    fun hfull => ?held⟩
  case departs =>
    obtain ⟨u, i, hu, hstand, hstart, hgives⟩ := hidle hj hq
    obtain ⟨w, v, tags, m, hw, hreqs, htags, hsender, hp, hop, haddr, hdata⟩ :=
      State.runDma_departs (o := ⟨i, dir, tierB, addr, window, row, words, s.g st gs⟩) (hstart.trans hs) hwords (by rw [hstand]; exact hc) hd
    obtain ⟨hrest, hqueue, hjob⟩ := State.dmaRuns_of_requests (hu.trans hw) hreqs
    rw [hstand] at hsender hdata
    exact hgives _ ⟨hrest, hsender, hqueue.trans hq, ⟨_, hjob, rfl, htags⟩, _, _, hfirst hu hp hop haddr, hdata⟩
  case arrives =>
    obtain ⟨u, i, hu, hstand, hstart, hgives⟩ := hidle hj hq
    obtain ⟨v, m, hreqs, hcredits, hp, hop, haddr⟩ :=
      State.runDma_arrives (o := ⟨i, dir, tierB, addr, window, row, words, s.g st gs⟩) (hstart.trans hs) hwords hd
    obtain ⟨hrest, hqueue, hjob⟩ := State.dmaRuns_of_requests hu hreqs
    exact hgives _ ⟨hrest, hqueue.trans hq, hjob, hcredits, _, _, hfirst hu hp hop haddr⟩
  case refused =>
    obtain ⟨u, i, hu, hstand, hstart, hgives⟩ := hidle hj hq
    refine hgives _ ?_
    rw [State.runDma_refused (o := ⟨i, dir, tierB, addr, window, row, words, s.g st gs⟩) (hstart.trans hs), State.programErr]
    obtain ⟨hothers, -, -, hmem, hmesh⟩ := hu.readies.trans (u.readies_log st
      { cls := 0x0209, sev := 3, opcode := 0x2C, unit := st, detail := leBytes 2 164 ++ leBytes 2 i })
    refine ⟨⟨?_, ?_, ?_, hmem, fun m hm => (hothers m hm).trans (State.stand_issued_ne s hm)⟩, ?_, hmesh⟩ <;>
      simp only [State.stand_log, hstand] <;> rfl
  case waits =>
    obtain ⟨o, heff⟩ := effDma_waits (s := s.issued st) (st := st) (by rw [hx]; exact hj) dir tierB addr window row words (s.g st gs)
    refine State.gives_effect hi hexec (decide_eq_true hroom) ?_
    rw [heff]
    have hown : ((s.issued st).modStand st fun x => { x with dmaQ := x.dmaQ ++ [o] }).stand st = { x.stepped with dmaQ := x.dmaQ ++ [o] } := by
      rw [State.stand_modStand, hx]
      rfl
    refine ⟨⟨by rw [hown]; rfl, by rw [hown]; rfl, by rw [hown]; rfl, rfl, fun m hm => ?_⟩, rfl, by rw [hown]; rfl, by rw [hown]; simp⟩
    rw [State.stand_modStand_ne _ _ hm, State.stand_issued_ne s hm]
  case held => exact State.gives_held hi hexec (decide_eq_false (Nat.not_lt.mpr hfull))

end Sys2Proof.Machine
end

section
/-! The router outbound of a stand (06 R161 to R163; 07 R214 to R217). -/

namespace Sys2Proof.Machine

/-! ## What the router outbound may change -/

/-- What sends of the router outbound may do to the state: of the stands only st, of which grants of banks, entries and outstanding CREQs;
packets, counters and records. -/
structure State.outbound (s t : State) (st : Nat) : Prop where
  own : t.stand st = { s.stand st with banks := (t.stand st).banks, sender := (t.stand st).sender, creqs := (t.stand st).creqs }
  others : ∀ m, m ≠ st → t.stand m = s.stand m
  mem : t.mem = s.mem
  nodes : t.nodes = s.nodes

section
variable {s t u : State} {st : Nat}

theorem State.outbound_refl (s : State) (st : Nat) : s.outbound s st := ⟨rfl, fun _ _ => rfl, rfl, rfl⟩
theorem State.outbound.trans (h : s.outbound t st) (k : t.outbound u st) : s.outbound u st :=
  ⟨by rw [k.own, h.own], fun m hm => (k.others m hm).trans (h.others m hm), k.mem.trans h.mem, k.nodes.trans h.nodes⟩
theorem State.glances.outbound (h : s.glances t st) : s.outbound t st :=
  ⟨by rw [h.own], h.others, h.readies.mem, by rw [h.frame]⟩
theorem State.outbound_count (s : State) (st k n : Nat) : s.outbound (s.count k n) st := ⟨rfl, fun _ _ => rfl, rfl, rfl⟩
theorem State.outbound_log (s : State) (st : Nat) (r : ErrRec) : s.outbound (s.log r) st :=
  ⟨by rw [State.stand_log], fun m _ => State.stand_log s r m, by rw [State.log_frame], by rw [State.log_frame]⟩
theorem State.outbound_send (s : State) (st : Nat) (p : Packet) : s.outbound (s.send p) st := ⟨rfl, fun _ _ => rfl, rfl, rfl⟩
theorem State.outbound_modStand (s : State) (st : Nat) {f : Stand → Stand}
    (h : f (s.stand st) = { s.stand st with sender := (f (s.stand st)).sender, creqs := (f (s.stand st)).creqs }) :
    s.outbound (s.modStand st f) st :=
  ⟨by rw [State.stand_modStand, h], fun _ hm => State.stand_modStand_ne _ _ hm, rfl, rfl⟩
theorem State.outbound_useEntry (s : State) (st dest window row : Nat) (final : Bool) :
    s.outbound (s.modStand st fun x => x.useEntry dest window row final) st := by
  refine s.outbound_modStand st ?_
  rw [Stand.useEntry]
  split <;> rfl
theorem State.outbound_foldl {α : Type} {f : State → α → State} (h : ∀ (s : State) a, s.outbound (f s a) st) :
    ∀ (l : List α) (s : State), s.outbound (l.foldl f s) st
  | [], s => s.outbound_refl st
  | a :: l, s => (h s a).trans (State.outbound_foldl h l (f s a))

/-- What such a send leaves at a free controller. -/
theorem State.outbound.rest (h : (s.issued st).outbound t st) : s.issueOnly t st := by
  obtain ⟨hown, hothers, hmem, -⟩ := h
  rw [State.stand_issued] at hown
  exact ⟨by rw [hown], by rw [hown], by rw [hown], hmem, fun m hm => (hothers m hm).trans (State.stand_issued_ne s hm)⟩
/-- A packet of a stand is made of its incarnation and of those that it knows. -/
theorem State.packet_congr (hst : st < 5000) (hn : t.nodes = s.nodes) (hk : (t.stand st).known = (s.stand st).known) (dst : Nat) (b : Body) :
    t.packet st dst b = s.packet st dst b := by
  have hnode : ∀ n, t.node n = s.node n := fun n => by rw [State.node, hn, State.node]
  have hknown : t.knownInc st dst = s.knownInc st dst := by simp only [State.knownInc, State.knownBy, if_pos hst, hk]
  unfold State.packet
  rw [hnode, hknown]
theorem State.outbound.packet (h : s.outbound t st) (hst : st < 5000) (dst : Nat) (b : Body) : t.packet st dst b = s.packet st dst b :=
  State.packet_congr hst h.nodes (by rw [h.own]) dst b

end

/-! ## Through an empty queue (R150, R151) -/

/-- An instruction of the router outbound begins. -/
def State.beginOut (s : State) (st : Nat) (o : OutOp) : State :=
  match o with
  | .creq d m => s.sendCreq st d m
  | .rwr i d h a _ => s.doRwr st i d h a
  | .mwr i d h a _ => s.doMwr st i d h a
  | .red i d r l w k g => s.doRed st i d r l w k g

section
variable {s : State} {st : Nat} {o : OutOp} (hq : (s.stand st).outQ = [])
include hq

theorem State.outOp_begins (hr : ({ s.stand st with outQ := [o] } : Stand).outReady = true) :
    ∃ u, s.glances u st ∧ u.stand st = s.stand st ∧ s.outOp st o = u.beginOut st o := by
  have hback : { ({ s.stand st with outQ := (s.stand st).outQ ++ [o] } : Stand) with outQ := [] } = s.stand st := by rw [← hq]
  refine ⟨(s.modStand st fun x => { x with outQ := x.outQ ++ [o] }).modStand st fun x => { x with outQ := [] },
    State.glances_restored hback, ?_, ?_⟩
  · rw [State.stand_modStand, State.stand_modStand, hback]
  · simp only [State.outOp, State.stand_modStand, hq, List.nil_append, List.length_singleton, State.pumpOut, hr, if_true]
    cases o <;> rfl
theorem State.outOp_waits (hr : ({ s.stand st with outQ := [o] } : Stand).outReady = false) :
    s.outOp st o = s.modStand st fun x => { x with outQ := x.outQ ++ [o] } := by
  simp only [State.outOp, State.stand_modStand, hq, List.nil_append, List.length_singleton, State.pumpOut, hr, Bool.false_eq_true, if_false]

end

/-! ## CREQ and RWR (R161, R162) -/

theorem Stand.sender_useEntry {x y : Stand} (h : y.sender = x.sender) (dest window row : Nat) (final : Bool) :
    (y.useEntry dest window row final).sender = (x.useEntry dest window row final).sender := by
  simp only [Stand.useEntry, h]
  split <;> rfl

section
variable {s : State} {st : Nat}

/-- What a write that is sent does (R162). -/
theorem State.sendWrite_facts (s : State) (st dest : Nat) (h : WriteHdr) (gen : Nat) (ws : List Word) :
    s.outbound (s.sendWrite st dest h gen ws) st ∧
    (s.sendWrite st dest h gen ws).stand st = (s.stand st).useEntry dest h.window h.row h.final ∧
    (s.sendWrite st dest h gen ws).mesh = s.mesh ++ [s.packet st dest (.write { h with gen := gen } ws)] := by
  have huse := s.outbound_useEntry st dest h.window h.row h.final
  refine ⟨huse.trans (State.outbound_send ..), ?_, rfl⟩
  rw [State.sendWrite, State.stand_send, State.stand_modStand]
/-- A write under an entry leaves with the generation of the credit (R162). -/
theorem State.doRwr_some (hst : st < 5000) (hc : (s.stand st).clean) (idx : Nat) {dest : Nat} {h : WriteHdr} {e : SenderEntry}
    (he : (s.stand st).entry dest h.window h.row = some e) (src : Nat) :
    s.outbound (s.doRwr st idx dest h src) st ∧
    (s.doRwr st idx dest h src).mesh = s.mesh ++ [s.packet st dest (.write { h with gen := e.gen } ((s.stand st).run src h.length))] ∧
    ((s.doRwr st idx dest h src).stand st).sender = ((s.stand st).useEntry dest h.window h.row h.final).sender := by
  obtain ⟨hwords, hread⟩ := State.glances_readWords hc 20 0x29 (wa src) h.length
  rw [Stand.run_wa] at hwords
  obtain ⟨hout, hstand, hmesh⟩ := (s.readWords st 20 0x29 (wa src) h.length).2.sendWrite_facts st dest h e.gen ((s.stand st).run src h.length)
  simp only [State.doRwr, he, hwords]
  refine ⟨hread.outbound.trans hout, ?_, ?_⟩
  · rw [hmesh, hread.readies.mesh, hread.outbound.packet hst]
  · rw [hstand]
    exact Stand.sender_useEntry (by rw [hread.own]) ..
/-- A write without one is counted (R162). -/
theorem State.doRwr_none (idx : Nat) {dest : Nat} {h : WriteHdr} (he : (s.stand st).entry dest h.window h.row = none) (src : Nat) :
    s.outbound (s.doRwr st idx dest h src) st ∧ (s.doRwr st idx dest h src).stand st = s.stand st ∧
    (s.doRwr st idx dest h src).mesh = s.mesh ∧ (s.doRwr st idx dest h src).counter 0x525005 = (s.counter 0x525005 + 1) % 2 ^ 64 := by
  simp only [State.doRwr, he]
  refine ⟨(s.outbound_count st _ _).trans (State.outbound_log ..), State.stand_log .., by rw [State.programErr, State.log_frame]; rfl, ?_⟩
  rw [State.programErr, State.counter_log_ne _ _ (by decide), State.counter_count]

end

/-! ## MWR (R214, R216) -/

/-- The stands of a route with the entries held for the row. -/
def Stand.routeEntries (x : Stand) (rt : Route) (h : WriteHdr) : List (Nat × Option SenderEntry) :=
  (routeStands rt).map fun n => (n, x.entry n h.window h.row)
/-- A write as unicasts: one for each stand with an entry, a count for each without. -/
def State.unicasts (s : State) (st : Nat) (h : WriteHdr) (ws : List Word) (ds : List (Nat × Option SenderEntry)) : State :=
  ds.foldl (fun s e => match e.2 with
    | some x => s.sendWrite st e.1 h x.gen ws
    | none => s.count 0x525005) (s.count 0x526006)
/-- A write as one multicast of generation g. -/
def State.multicast (s : State) (st : Nat) (rt : Route) (h : WriteHdr) (ws : List Word) (ds : List (Nat × Option SenderEntry))
    (g : Nat) : State :=
  (ds.foldl (fun s e => s.modStand st fun x => x.useEntry e.1 h.window h.row h.final) s).send
    (s.packet st 0 (.mcast rt { h with gen := g } ws))
/-- A write along a route: a multicast when its stands hold entries of one generation (R216). -/
def State.spread (s : State) (st : Nat) (rt : Route) (h : WriteHdr) (ws : List Word) (ds : List (Nat × Option SenderEntry)) : State :=
  match ds.map fun e => e.2.map fun x => x.gen with
  | some g :: t => if t.all fun x => x = some g then s.multicast st rt h ws ds g else s.unicasts st h ws ds
  | _ => s.unicasts st h ws ds

section
variable (s : State) (st : Nat) (rt : Route) (h : WriteHdr) (ws : List Word) (ds : List (Nat × Option SenderEntry))

theorem State.outbound_unicasts : s.outbound (s.unicasts st h ws ds) st := by
  refine (s.outbound_count st 0x526006 1).trans (State.outbound_foldl (fun s e => ?_) ds _)
  split
  case h_1 x _ => exact (s.sendWrite_facts st e.1 h x.gen ws).1
  case h_2 => exact s.outbound_count st _ _
theorem State.outbound_multicast (g : Nat) : s.outbound (s.multicast st rt h ws ds g) st :=
  (State.outbound_foldl (fun s _ => s.outbound_useEntry st _ _ _ _) ds s).trans (State.outbound_send ..)
theorem State.outbound_spread : s.outbound (s.spread st rt h ws ds) st := by
  unfold State.spread
  split
  · split
    · exact s.outbound_multicast st rt h ws ds _
    · exact s.outbound_unicasts st h ws ds
  · exact s.outbound_unicasts st h ws ds

variable {ds}

/-- Without an entry anywhere nothing is sent. -/
theorem State.spread_none (hds : ∀ e ∈ ds, e.2 = none) : (s.spread st rt h ws ds).mesh = s.mesh ∧
    (s.spread st rt h ws ds).stand st = s.stand st := by
  have hcounts : ∀ (l : List (Nat × Option SenderEntry)) (s : State), (∀ e ∈ l, e.2 = none) →
      let t := l.foldl (fun s e => match e.2 with | some x => s.sendWrite st e.1 h x.gen ws | none => s.count 0x525005) s
      t.mesh = s.mesh ∧ t.stand st = s.stand st := by
    intro l
    induction l with
    | nil => exact fun _ _ => ⟨rfl, rfl⟩
    | cons e l ih =>
      intro s hl
      have he := hl e (List.mem_cons_self ..)
      have hrest := ih (s.count 0x525005) fun e he => hl e (List.mem_cons_of_mem _ he)
      simp only [List.foldl_cons, he]
      exact hrest
  have hspread : s.spread st rt h ws ds = s.unicasts st h ws ds := by
    cases ds with
    | nil => rfl
    | cons e l => simp only [State.spread, List.map_cons, hds e (List.mem_cons_self ..), Option.map_none]
  rw [hspread]
  exact hcounts ds _ hds
/-- With entries of one generation everywhere one multicast is sent. -/
theorem State.spread_all {g : Nat} (hne : ds ≠ []) (hds : ∀ e ∈ ds, e.2.map (fun x => x.gen) = some g) :
    (s.spread st rt h ws ds).mesh = s.mesh ++ [s.packet st 0 (.mcast rt { h with gen := g } ws)] := by
  have huse : ∀ (l : List (Nat × Option SenderEntry)) (s : State),
      (l.foldl (fun s e => s.modStand st fun x => x.useEntry e.1 h.window h.row h.final) s).mesh = s.mesh := by
    intro l
    induction l with
    | nil => exact fun _ => rfl
    | cons e l ih => exact fun s => ih _
  have hspread : s.spread st rt h ws ds = s.multicast st rt h ws ds g := by
    cases ds with
    | nil => exact absurd rfl hne
    | cons e l =>
      have hall : ((l.map fun e => e.2.map fun x => x.gen).all fun x => decide (x = some g)) = true := by
        rw [List.all_map, List.all_eq_true]
        exact fun e he => decide_eq_true (hds e (List.mem_cons_of_mem _ he))
      simp only [State.spread, List.map_cons, hds e (List.mem_cons_self ..), hall, if_true]
  rw [hspread, State.multicast, State.send, huse]

end

theorem Stand.run_one (x : Stand) (a : Nat) : x.run a 1 = [x.word a] := rfl
/-- A rectangle within the rules names a stand. -/
theorem routeStands_ne_nil {r : Route} (hb : r.bitmapMode = false) (hm : routeMalformed r = false) : routeStands r ≠ [] := by
  simp only [routeMalformed, hb, Bool.false_eq_true, if_false, decide_eq_false_iff_not, not_or, not_lt] at hm
  obtain ⟨-, hx, hy, -, -⟩ := hm
  refine List.ne_nil_of_mem (a := standAt r.x0 r.y0) ?_
  simp only [routeStands, hb, Bool.false_eq_true, if_false, List.mem_flatMap, List.mem_map, List.mem_filter, List.mem_range, routeNames]
  refine ⟨r.x0, ⟨0, by omega, Nat.zero_add _⟩, r.y0, ⟨⟨0, by omega, Nat.zero_add _⟩, ?_⟩, rfl⟩
  exact decide_eq_true ⟨Nat.le_refl _, hx, Nat.le_refl _, hy⟩

section
variable {s : State} {st desc : Nat} (hc : (s.stand st).clean) (hb : bit ((s.stand st).word desc).toNat 31 = false) (idx : Nat)
  (h : WriteHdr) (src : Nat)
include hc hb

/-- MWR over a malformed rectangle sends nothing (R214). -/
theorem State.doMwr_malformed (hm : routeMalformed (decRoute [(s.stand st).word desc]) = true) :
    s.outbound (s.doMwr st idx desc h src) st ∧ (s.doMwr st idx desc h src).mesh = s.mesh ∧
    ((s.doMwr st idx desc h src).stand st).sender = (s.stand st).sender ∧
    (s.doMwr st idx desc h src).counter 0x526007 = (s.counter 0x526007 + 1) % 2 ^ 64 := by
  obtain ⟨hwords, hread⟩ := State.glances_readWords hc 20 0x2A (wa desc) 1
  rw [Stand.run_wa, Stand.run_one] at hwords
  simp only [State.doMwr, hwords, List.headD_cons, hb, Bool.false_eq_true, if_false, List.append_nil, hm, if_true]
  refine ⟨hread.outbound.trans ((State.outbound_count ..).trans (State.outbound_log ..)), ?_, ?_, ?_⟩
  · rw [State.log_frame]
    exact hread.readies.mesh
  · rw [State.stand_log, State.stand_count, hread.own]
  · rw [State.counter_log_ne _ _ (by decide), State.counter_count, hread.counter]
/-- MWR over a rectangle within the rules reads its words and spreads them (R216). -/
theorem State.doMwr_spreads (hm : routeMalformed (decRoute [(s.stand st).word desc]) = false) : ∃ u, s.glances u st ∧
    s.doMwr st idx desc h src = u.spread st (decRoute [(s.stand st).word desc]) h ((s.stand st).run src h.length)
      ((s.stand st).routeEntries (decRoute [(s.stand st).word desc]) h) := by
  obtain ⟨hwords, hread⟩ := State.glances_readWords hc 20 0x2A (wa desc) 1
  rw [Stand.run_wa, Stand.run_one] at hwords
  obtain ⟨hdata, hread'⟩ := State.glances_readWords (hread.readies.clean hc) 20 0x2A (wa src) h.length
  rw [Stand.run_wa, hread.readies.run] at hdata
  refine ⟨_, hread.trans hread', ?_⟩
  have hentry : ∀ n, ((((s.readWords st 20 0x2A (wa desc) 1).2.readWords st 20 0x2A (wa src) h.length).2.stand st).entry n h.window h.row) =
      (s.stand st).entry n h.window h.row := fun n => Stand.entry_congr (by rw [hread'.own, hread.own]) ..
  simp only [State.doMwr, hwords, List.headD_cons, hb, Bool.false_eq_true, if_false, List.append_nil, hm, hdata, hentry]
  rfl

end

/-! ## RED (R163, R217) -/

/-- The parts of a reduction vector: as many as it begins groups of 32 elements, each the elements of its group. -/
theorem redParts_parts : ∀ (f k : Nat) (vs : List Acc), vs.length ≤ 32 * f → (redParts f k vs).length = (vs.length + 31) / 32 ∧
    ∀ i, i < (vs.length + 31) / 32 → (redParts f k vs)[i]? = some (k + i, (vs.drop (32 * i)).take 32)
  | 0, k, vs, hf => by
    have hlen : vs.length = 0 := by omega
    simp [redParts, hlen]
  | f + 1, k, vs, hf => by
    by_cases hnil : vs = []
    · simp [redParts, hnil]
    · have hpos : 0 < vs.length := List.length_pos_of_ne_nil hnil
      have hdrop : (vs.drop 32).length = vs.length - 32 := List.length_drop
      obtain ⟨hlen, hget⟩ := redParts_parts f (k + 1) (vs.drop 32) (by omega)
      simp only [redParts, hnil, if_false, List.length_cons, hlen, hdrop]
      refine ⟨by omega, fun i hi => ?_⟩
      cases i with
      | zero => simp
      | succ i =>
        have hpart : k + 1 + i = k + (i + 1) := by omega
        have hfrom : 32 + 32 * i = 32 * (i + 1) := by omega
        rw [List.getElem?_cons_succ, hget i (by omega), List.drop_drop, hpart, hfrom]

/-- Where the packets of the parts stand in the mesh. -/
theorem mesh_of_redParts {s t : State} {f : Nat × List Acc → Packet} {vs : List Acc} (h : t.mesh = s.mesh ++ (redParts 32 0 vs).map f)
    (hvs : vs.length ≤ 1024) : t.mesh.length = s.mesh.length + (vs.length + 31) / 32 ∧ t.mesh.take s.mesh.length = s.mesh ∧
    ∀ k, k < (vs.length + 31) / 32 → t.mesh[s.mesh.length + k]? = some (f (k, (vs.drop (32 * k)).take 32)) := by
  obtain ⟨hlen, hget⟩ := redParts_parts 32 0 vs hvs
  rw [h]
  refine ⟨by rw [List.length_append, List.length_map, hlen], List.take_left .., fun k hk => ?_⟩
  rw [List.getElem?_append_right (Nat.le_add_right ..), Nat.add_sub_cancel_left, List.getElem?_map, hget k hk, Nat.zero_add]
  rfl
/-- The elements of a part of a list. -/
theorem part_elems {α : Type} (f : Nat → α) (n k m : Nat) :
    (((List.range n).map f).drop k).take m = (List.range (min m (n - k))).map fun i => f (k + i) := by
  refine List.ext_getElem (by simp) fun i h1 h2 => ?_
  simp

/-- Parts sent one after the other. -/
def State.sendParts {α : Type} (st dst : Nat) (f : α → PartMsg) (l : List α) (s : State) : State :=
  l.foldl (fun s p => s.send (s.packet st dst (.reduce (f p)))) s
theorem State.mesh_sendParts {α : Type} (st dst : Nat) (f : α → PartMsg) : ∀ (l : List α) (s : State),
    (State.sendParts st dst f l s).mesh = s.mesh ++ l.map fun p => s.packet st dst (.reduce (f p))
  | [], s => (List.append_nil _).symm
  | p :: l, s => by
    rw [State.sendParts, List.foldl_cons, ← State.sendParts, State.mesh_sendParts st dst f l, List.map_cons, State.send, List.append_assoc]
    rfl
theorem State.stand_sendParts {α : Type} (st dst m : Nat) (f : α → PartMsg) : ∀ (l : List α) (s : State),
    (State.sendParts st dst f l s).stand m = s.stand m
  | [], _ => rfl
  | _ :: l, _ => State.stand_sendParts st dst m f l _
theorem State.outbound_sendParts {α : Type} (st dst : Nat) (f : α → PartMsg) (l : List α) (s : State) :
    s.outbound (State.sendParts st dst f l s) st :=
  State.outbound_foldl (fun s _ => s.outbound_send st _) l s

/-- The credits of some rows of a window end. -/
def State.endCredits (s : State) (st dest window : Nat) (rows : List Nat) : State :=
  rows.foldl (fun s r => s.modStand st fun x => x.useEntry dest window r true) s
section
variable (s : State) (st dest window : Nat) (rows : List Nat)

theorem State.outbound_endCredits : s.outbound (s.endCredits st dest window rows) st :=
  State.outbound_foldl (fun s r => s.outbound_useEntry st dest window r true) rows s
theorem State.entry_endCredits : ∀ r ∈ rows, ((s.endCredits st dest window rows).stand st).entry dest window r = none :=
  foldl_settles (P := fun (s : State) r => (s.stand st).entry dest window r = none)
    (fun s r => by rw [State.stand_modStand, Stand.entry_useEntry])
    (fun s r b hb => by rw [State.stand_modStand, Stand.entry_useEntry_none _ hb]) rows s
theorem State.mesh_endCredits : (s.endCredits st dest window rows).mesh = s.mesh := by
  induction rows generalizing s with
  | nil => rfl
  | cons r rows ih => exact ih _

end
/-- Generation of a reduction: that of the lead's credit. -/
def Stand.redGen (x : Stand) (dest : Nat) (lead : Bool) (window row : Nat) : Nat :=
  if lead then ((x.entry dest window row).map fun e => e.gen).getD 0 else 0

/-- A lead lacks the credit of a row of its result (R163). -/
def Stand.redLacks (x : Stand) (dest : Nat) (lead : Bool) (window : Nat) (rows : List Nat) : Bool :=
  lead && rows.any fun r => (x.entry dest window r).isNone

section
variable {s : State} {st : Nat} (hst : st < 5000) (hc : (s.stand st).clean) (idx dest rid : Nat) (lead : Bool) (window row g : Nat)
include hst hc

omit hst in
/-- A RED of no RAW48 vector, or a lead without its credits, sends nothing (R163). -/
theorem State.doRed_refused {h : Hdr} (hh : (s.stand st).vec (bits g 15 0) = h)
    (hbad : h.fmt ≠ 7 ∨ h.count = 0 ∨ 1024 < h.count ∨ (s.stand st).redLacks dest lead window (redRows row h.count) = true) :
    s.outbound (s.doRed st idx dest rid lead window row g) st ∧ (s.doRed st idx dest rid lead window row g).mesh = s.mesh ∧
    ((s.doRed st idx dest rid lead window row g).stand st).sender = (s.stand st).sender := by
  obtain ⟨hwords, hread⟩ := State.glances_readWords hc 20 0x2B (bits g 15 0) 1
  rw [Stand.run_one] at hwords
  have hhdr : decVec ((s.stand st).word (bits g 15 0)) = h := hh
  have hentry : ∀ r, ((s.readWords st 20 0x2B (bits g 15 0) 1).2.stand st).entry dest window r = (s.stand st).entry dest window r :=
    fun r => Stand.entry_congr (by rw [hread.own]) ..
  simp only [State.doRed, hwords, List.headD_cons, hhdr, hentry]
  have herr : ∀ {u : State}, s.outbound u st → u.mesh = s.mesh → (u.stand st).sender = (s.stand st).sender → ∀ rule,
      s.outbound (u.programErr st 0x2B rule idx) st ∧ (u.programErr st 0x2B rule idx).mesh = s.mesh ∧
        ((u.programErr st 0x2B rule idx).stand st).sender = (s.stand st).sender := fun hu hm hs rule =>
    ⟨hu.trans (State.outbound_log ..), by rw [State.programErr, State.log_frame]; exact hm,
      by rw [State.programErr, State.stand_log]; exact hs⟩
  by_cases hvec : h.fmt ≠ 7 ∨ h.count = 0 ∨ 1024 < h.count
  · rw [if_pos hvec]
    exact herr hread.outbound hread.readies.mesh (by rw [hread.own]) 163
  · have hlacks : (s.stand st).redLacks dest lead window (redRows row h.count) = true := by tauto
    simp only [Stand.redLacks, Bool.and_eq_true] at hlacks
    rw [if_neg hvec, if_pos ⟨hlacks.1, by rw [List.any_map]; exact hlacks.2⟩]
    exact herr (hread.outbound.trans (State.outbound_count ..)) hread.readies.mesh (by rw [State.stand_count, hread.own]) 162

/-- A RED that is let through sends its parts; as lead it ends the credits of its rows (R163, R217). -/
theorem State.doRed_sends {h : Hdr} (hh : (s.stand st).vec (bits g 15 0) = h) (hfmt : h.fmt = 7) (h1 : 1 ≤ h.count) (h2 : h.count ≤ 1024)
    (hlacks : (s.stand st).redLacks dest lead window (redRows row h.count) = false) :
    let t := s.doRed st idx dest rid lead window row g
    s.outbound t st ∧
    t.mesh = s.mesh ++ (redParts 32 0 ((List.range h.count).map fun i => rawAcc ((s.stand st).run (bits g 15 0 + 1) (2 * h.count)) i)).map
      (fun p => s.packet st dest (.reduce { rid, part := p.1, nc := bits g 28 16, carried := 1, lead, window, row,
                                            gen := (s.stand st).redGen dest lead window row, count := h.count, elems := p.2 })) ∧
    (lead = true → ∀ r ∈ redRows row h.count, (t.stand st).entry dest window r = none) ∧
    (lead = false → (t.stand st).sender = (s.stand st).sender) := by
  obtain ⟨hwords, hread⟩ := State.glances_readWords hc 20 0x2B (bits g 15 0) 1
  rw [Stand.run_one] at hwords
  have hhdr : decVec ((s.stand st).word (bits g 15 0)) = h := hh
  obtain ⟨hdata, hread'⟩ := State.glances_readWords (hread.readies.clean hc) 20 0x2B (bits g 15 0 + 1) (2 * h.count)
  rw [hread.readies.run] at hdata
  have hentry : ∀ r, ((s.readWords st 20 0x2B (bits g 15 0) 1).2.stand st).entry dest window r = (s.stand st).entry dest window r :=
    fun r => Stand.entry_congr (by rw [hread.own]) ..
  have hvec : ¬(h.fmt ≠ 7 ∨ h.count = 0 ∨ 1024 < h.count) := by omega
  have hpass : ¬(lead = true ∧ ((redRows row h.count).map fun r => (s.stand st).entry dest window r).any Option.isNone = true) := by
    rw [← Bool.and_eq_true, List.any_map]
    exact Bool.eq_false_iff.1 hlacks
  have hgen : (if lead = true then match ((redRows row h.count).map fun r => (s.stand st).entry dest window r).headD none with
      | some x => x.gen | none => 0 else 0) = (s.stand st).redGen dest lead window row := by
    obtain ⟨n, hn⟩ : ∃ n, ceilDiv (1 + 2 * h.count) 64 = n + 1 := Nat.exists_eq_succ_of_ne_zero (by unfold ceilDiv; omega)
    rw [redRows, hn, List.range_succ_eq_map, List.map_cons, List.map_cons, List.headD_cons, Nat.zero_add, Stand.redGen]
    cases (s.stand st).entry dest window row <;> rfl
  have hdo : s.doRed st idx dest rid lead window row g =
      State.sendParts st dest (fun p => { rid, part := p.1, nc := bits g 28 16, carried := 1, lead, window, row,
                                          gen := (s.stand st).redGen dest lead window row, count := h.count, elems := p.2 })
        (redParts 32 0 ((List.range h.count).map fun i => rawAcc ((s.stand st).run (bits g 15 0 + 1) (2 * h.count)) i))
        (State.endCredits ((s.readWords st 20 0x2B (bits g 15 0) 1).2.readWords st 20 0x2B (bits g 15 0 + 1) (2 * h.count)).2 st dest window
          (if lead then redRows row h.count else [])) := by
    simp only [State.doRed, hwords, List.headD_cons, hhdr, hentry, hdata, if_neg hvec]
    refine (if_neg hpass).trans ?_
    simp only [← hgen]
    cases lead <;> rfl
  have hout := (hread.trans hread').outbound.trans
    (State.outbound_endCredits _ st dest window (if lead then redRows row h.count else []))
  rw [hdo]
  refine ⟨hout.trans (State.outbound_sendParts ..), ?_, fun hl r hr => ?_, fun hl => ?_⟩
  · simp only [State.mesh_sendParts, hout.packet hst, State.mesh_endCredits]
    rw [hread'.readies.mesh, hread.readies.mesh]
  · rw [State.stand_sendParts]
    exact State.entry_endCredits _ st dest window _ r (by rw [hl]; exact hr)
  · rw [State.stand_sendParts, hl]
    exact (hread.trans hread').own ▸ rfl

end

/-! ## Issue -/

/-- The state in which an instruction of a free controller begins in an idle router outbound: only grants differ from the issue. -/
structure State.takesUp (s u : State) (st : Nat) : Prop where
  outbound : (s.issued st).outbound u st
  stand : u.stand st = (s.stand st).stepped
  mesh : u.mesh = s.mesh
  packet : ∀ dst b, u.packet st dst b = s.packet st dst b
  counter : ∀ k, k ≠ 0x525001 → u.counter k = s.counter k

/-- What is left when the instruction has begun. -/
theorem State.takesUp.leaves {s u t : State} {st : Nat} (hu : s.takesUp u st) (hq : (s.stand st).outQ = []) (h : u.outbound t st) :
    s.issueOnly t st ∧ (t.stand st).outQ = [] :=
  ⟨(hu.outbound.trans h).rest, by rw [h.own, hu.stand]; exact hq⟩

section
variable {s : State} {st : Nat} {c : Instr} {o : OutOp} {eff : State → State} {P : State → Prop} (hst : st < 5000) (hi : s.issues st)
  (hq : (s.stand st).outQ = []) (hexec : exec c s = .next (s.issue st c (s.stand st).outRoom eff))
  (heff : eff (s.issued st) = (s.issued st).outOp st o)
include hi hq hexec heff

include hst in
theorem State.gives_outOp_begins (hr : ({ (s.stand st).stepped with outQ := [o] } : Stand).outReady = true)
    (h : ∀ u, s.takesUp u st → P (u.beginOut st o)) : s.gives c P := by
  have hstand := s.stand_issued st
  obtain ⟨u, hu, hback, hbegin⟩ := State.outOp_begins (s := s.issued st) (o := o) (by rw [hstand]; exact hq) (by rw [hstand]; exact hr)
  refine State.gives_effect hi hexec (by rw [Stand.outRoom, hq]; rfl) ?_
  rw [heff, hbegin]
  refine h u ⟨hu.outbound, hback.trans hstand, hu.readies.mesh, fun dst b => ?_, fun k hk => (hu.counter k).trans (s.counter_issued_ne st hk)⟩
  exact State.packet_congr (s := s) hst hu.outbound.nodes (by rw [hback, hstand]) dst b
theorem State.gives_outOp_waits (hr : ({ (s.stand st).stepped with outQ := [o] } : Stand).outReady = false) : s.gives c fun t =>
    s.issueOnly t st ∧ t.mesh = s.mesh ∧ (t.stand st).outQ = [o] := by
  have hstand := s.stand_issued st
  refine State.gives_effect hi hexec (by rw [Stand.outRoom, hq]; rfl) ?_
  rw [heff, State.outOp_waits (by rw [hstand]; exact hq) (by rw [hstand]; exact hr)]
  have hown : ((s.issued st).modStand st fun x => { x with outQ := x.outQ ++ [o] }).stand st = { (s.stand st).stepped with outQ := [o] } := by
    rw [State.stand_modStand, hstand, hq]
    rfl
  refine ⟨⟨by rw [hown]; rfl, by rw [hown]; rfl, by rw [hown]; rfl, rfl, fun m hm => ?_⟩, rfl, by rw [hown]⟩
  rw [State.stand_modStand_ne _ _ hm, State.stand_issued_ne s hm]

end

/-- Settles O27: CREQ, RWR, MWR and RED each begin in an idle router outbound, or wait at the head of its queue. -/
theorem outboundSends : Obligations.OutboundSends := by
  unfold Obligations.OutboundSends
  intro s st hi hq hclean x rest
  have hst : st.val < 5000 := st.isLt
  refine ⟨?creq, ?rwr, ?mwr, ?red⟩
  case creq =>
    intro dest window count mode row tag hf m
    have hexec : exec (.creq st dest window count mode row tag) s = _ := if_pos hf
    by_cases hfit : x.taken + count ≤ 256
    · refine State.gives_outOp_begins hst hi hq hexec rfl (decide_eq_true hfit) fun u hu => ?_
      have hout : u.outbound (u.sendCreq st dest.toNat m) st := (u.outbound_modStand st rfl).trans (State.outbound_send ..)
      have hown : (u.sendCreq st dest.toNat m).stand st = { x.stepped with creqs := x.creqs ++ [{ dest := dest.toNat, msg := m }] } := by
        rw [State.sendCreq, State.stand_send, State.stand_modStand, hu.stand]
        rfl
      refine ⟨(hu.outbound.trans hout).rest, fun _ => ⟨?_, ?_, ?_⟩, fun hover => absurd hfit (by omega)⟩
      · exact congrArg₂ (fun l p => l ++ [p]) hu.mesh (hu.packet ..)
      · exact (congrArg Stand.outQ hown).trans hq
      · exact congrArg Stand.creqs hown
    · obtain ⟨t, ht, hrest, hmesh, hqueue⟩ := State.gives_outOp_waits hi hq hexec rfl (decide_eq_false hfit)
      exact ⟨t, ht, hrest, fun hfit' => absurd hfit' hfit, fun _ => ⟨hmesh, hqueue⟩⟩
  case rwr =>
    intro dest window row offset length final nwrites gs hd hf i
    have hexec := fun vec => show exec (i vec) s = _ from if_pos ⟨hd, hf⟩
    refine ⟨fun hpend => ?wait, fun vec hvec => ⟨fun e he => ?some, fun he => ?none⟩⟩
    case wait =>
      have hheld : (!(true && x.stepped.pendAt (s.g st gs))) = false := by rw [Bool.true_and, Bool.not_eq_false']; exact hpend
      obtain ⟨t, ht, hrest, hmesh, hqueue⟩ := State.gives_outOp_waits hi hq (hexec true) rfl hheld
      exact ⟨t, ht, hrest, hmesh, congrArg List.length hqueue⟩
    case some =>
      refine State.gives_outOp_begins hst hi hq (hexec vec) rfl (Bool.not_eq_true' _ ▸ hvec) fun u hu => ?_
      obtain ⟨hout, hmesh, hsender⟩ := State.doRwr_some hst (by rw [hu.stand]; exact hclean) ((s.issued st).idx st)
        (h := { window, row, gen := 0, offset, length, final, nwrites, reserved := 0 }) (by rw [hu.stand]; exact he) (s.g st gs)
      rw [hu.mesh, hu.packet, hu.stand] at hmesh
      rw [hu.stand] at hsender
      obtain ⟨hrest, hqueue⟩ := hu.leaves hq hout
      exact ⟨hrest, hqueue, hmesh, hsender.trans (Stand.sender_useEntry (x := x) (y := x.stepped) rfl ..)⟩
    case none =>
      refine State.gives_outOp_begins hst hi hq (hexec vec) rfl (Bool.not_eq_true' _ ▸ hvec) fun u hu => ?_
      obtain ⟨hout, hown, hmesh, hcounter⟩ := State.doRwr_none (s := u) (st := st) ((s.issued st).idx st)
        (h := { window, row, gen := 0, offset, length, final, nwrites, reserved := 0 }) (by rw [hu.stand]; exact he) (s.g st gs)
      rw [hu.stand] at hown
      rw [hu.counter _ (by decide)] at hcounter
      exact ⟨(hu.leaves hq hout).1, hmesh.trans hu.mesh, (congrArg Stand.sender hown :), hcounter⟩
  case mwr =>
    intro gm window row offset length final nwrites gs hf d vec hrect hvec
    have hexec : exec (.mwr st gm window row offset length final nwrites gs vec) s = _ := if_pos hf
    refine State.gives_outOp_begins hst hi hq hexec rfl (Bool.not_eq_true' _ ▸ hvec) fun u hu => ?_
    let hdr : WriteHdr := { window, row, gen := 0, offset, length, final, nwrites, reserved := 0 }
    have hc : (u.stand st).clean := by rw [hu.stand]; exact hclean
    have hd : (u.stand st).word (s.g st gm) = d := by rw [hu.stand]; rfl
    cases hm : routeMalformed (decRoute [d]) with
    | true =>
      obtain ⟨hout, hmesh, hsender, hcounter⟩ := State.doMwr_malformed hc (by rw [hd]; exact hrect) ((s.issued st).idx st) hdr (s.g st gs)
        (by rw [hd]; exact hm)
      obtain ⟨hrest, hqueue⟩ := hu.leaves hq hout
      rw [hu.stand] at hsender
      rw [hu.counter _ (by decide)] at hcounter
      exact ⟨hrest, hqueue, fun _ => ⟨hmesh.trans hu.mesh, hsender, hcounter⟩, fun h => absurd h (by decide),
        fun _ h => absurd h (by decide)⟩
    | false =>
      obtain ⟨v, hv, hspread⟩ := State.doMwr_spreads hc (by rw [hd]; exact hrect) ((s.issued st).idx st) hdr (s.g st gs)
        (by rw [hd]; exact hm)
      rw [hd, hu.stand] at hspread
      have hentries : ∀ {p : Option SenderEntry → Prop}, (∀ n ∈ routeStands (decRoute [d]), p (x.entry n window row)) →
          ∀ e ∈ x.stepped.routeEntries (decRoute [d]) hdr, p e.2 := fun hp e he => by
        obtain ⟨n, hn, rfl⟩ := List.mem_map.1 he
        exact hp n hn
      have hmesh : v.mesh = s.mesh := hv.readies.mesh.trans hu.mesh
      have hpacket : ∀ b, v.packet st 0 b = s.packet st 0 b := fun b => (hv.outbound.packet hst 0 b).trans (hu.packet 0 b)
      obtain ⟨hrest, hqueue⟩ := hu.leaves hq (hv.outbound.trans (v.outbound_spread st (decRoute [d]) hdr (x.stepped.run (s.g st gs) length)
        (x.stepped.routeEntries (decRoute [d]) hdr)))
      generalize ht : u.beginOut st _ = t
      obtain rfl : t = _ := ht.symm.trans hspread
      refine ⟨hrest, hqueue, fun h => absurd h (by decide), fun _ hnone => ?_, fun g _ hall => ?_⟩
      · obtain ⟨hsame, hown⟩ := v.spread_none st (decRoute [d]) hdr (x.stepped.run (s.g st gs) length)
          (hentries (p := fun e => e = none) fun n hn => Option.isNone_iff_eq_none.1 (List.all_eq_true.1 hnone n hn))
        refine ⟨hsame.trans hmesh, ?_⟩
        rw [hv.own, hu.stand] at hown
        exact (congrArg Stand.sender hown :)
      · have hne : x.stepped.routeEntries (decRoute [d]) hdr ≠ [] := fun h => routeStands_ne_nil hrect hm (List.map_eq_nil_iff.1 h)
        have hsent := v.spread_all st (decRoute [d]) hdr (x.stepped.run (s.g st gs) length) hne
          (hentries (p := fun e => e.map (fun x => x.gen) = some g) fun n hn => beq_iff_eq.1 (List.all_eq_true.1 hall n hn))
        rw [hmesh, hpacket] at hsent
        exact hsent
  case red =>
    intro dest rid lead window row gs hd a h n rows lacks hpend
    have hexec : exec (.red st dest rid lead window row gs) s = _ := if_pos hd
    have ha : bits (s.g st gs) 15 0 = a := bits_low _ 15
    have hready : (!x.stepped.pendAt (bits (s.g st gs) 15 0)) = true := by
      rw [ha]
      exact Bool.not_eq_true' _ ▸ hpend
    refine State.gives_outOp_begins hst hi hq hexec rfl hready fun u hu => ?_
    have hc : (u.stand st).clean := by rw [hu.stand]; exact hclean
    have hh : (u.stand st).vec (bits (s.g st gs) 15 0) = h := by rw [hu.stand, ha]; rfl
    have hlacks : (u.stand st).redLacks dest.toNat lead window (redRows row h.count) = lacks := by rw [hu.stand]; rfl
    by_cases hbad : h.fmt ≠ 7 ∨ h.count = 0 ∨ 1024 < h.count ∨ lacks = true
    · obtain ⟨hout, hmesh, hsender⟩ := State.doRed_refused hc ((s.issued st).idx st) dest.toNat rid.toNat lead window row (s.g st gs) hh
        (by rw [hlacks]; exact hbad)
      obtain ⟨hrest, hqueue⟩ := hu.leaves hq hout
      rw [hu.stand] at hsender
      refine ⟨hrest, hqueue, fun _ => ⟨hmesh.trans hu.mesh, (hsender :)⟩, fun hfmt h1 h2 hl => absurd hbad ?_⟩
      rw [hl]
      simp only [Bool.false_eq_true, or_false]
      omega
    · obtain ⟨hfmt, hcount, hmax, hl⟩ : h.fmt = 7 ∧ 1 ≤ h.count ∧ h.count ≤ 1024 ∧ lacks = false := by
        simp only [not_or, not_not, ne_eq, Bool.not_eq_true, not_lt] at hbad
        obtain ⟨hfmt, hcount, hmax, hl⟩ := hbad
        exact ⟨hfmt, by omega, hmax, hl⟩
      obtain ⟨hout, hmesh, hentries, hsender⟩ := State.doRed_sends hst hc ((s.issued st).idx st) dest.toNat rid.toNat lead window row
        (s.g st gs) hh hfmt hcount hmax (hlacks.trans hl)
      obtain ⟨hrest, hqueue⟩ := hu.leaves hq hout
      rw [hu.mesh, hu.stand, ha] at hmesh
      simp only [hu.packet] at hmesh
      rw [hu.stand] at hsender
      obtain ⟨hlen, htake, hpart⟩ := mesh_of_redParts hmesh (by rw [List.length_map, List.length_range]; exact hmax)
      rw [List.length_map, List.length_range] at hlen hpart
      refine ⟨hrest, hqueue, fun h => absurd h hbad, fun _ _ _ _ => ⟨hlen, htake, hentries, hsender, fun k hk => ?_⟩⟩
      refine (hpart k hk).trans ?_
      rw [part_elems]
      rfl

end Sys2Proof.Machine
end

section
/-! Time (07 R196; 12 R486), and a step of the block (15 Table 15.7). -/

namespace Sys2Proof.Machine

/-- Only the counters of a list and the number of free values taken differ (log 2, log 9). -/
structure State.countsIn (s t : State) (ks : List Nat) : Prop where
  frame : t = { s with counters := t.counters, freeCtr := t.freeCtr }
  counter : ∀ k, k ∉ ks → t.counter k = s.counter k

theorem State.countsIn_refl (s : State) (ks : List Nat) : s.countsIn s ks := ⟨rfl, fun _ _ => rfl⟩
theorem State.countsIn.trans {s t u : State} {ks ls : List Nat} (h : s.countsIn t ks) (k : t.countsIn u ls) : s.countsIn u (ks ++ ls) := by
  refine ⟨by rw [k.frame, h.frame], fun n hn => ?_⟩
  rw [List.mem_append, not_or] at hn
  rw [k.counter n hn.2, h.counter n hn.1]
theorem State.countsIn_count (s : State) (k n : Nat) : s.countsIn (s.count k n) [k] :=
  ⟨rfl, fun _ h => State.counter_count_ne _ _ (List.ne_of_not_mem_cons h)⟩
theorem State.countsIn_ite {s t : State} {ks : List Nat} {c : Prop} [Decidable c] (h : s.countsIn t ks) :
    s.countsIn (if c then t else s) ks := by
  split
  · exact h
  · exact s.countsIn_refl ks

/-- One wait grows by a free number. -/
def State.countWait (s : State) (k : Nat) : State := { s.count k (Config.freeNat s.freeCtr) with freeCtr := s.freeCtr + 1 }
theorem State.countsIn_countWait (s : State) (k : Nat) : s.countsIn (s.countWait k) [k] :=
  ⟨rfl, (s.countsIn_count k _).counter⟩
theorem State.countsIn_foldl_countWait : ∀ (l : List Nat) (s : State), s.countsIn (l.foldl State.countWait s) l
  | [], s => s.countsIn_refl []
  | k :: l, s => (s.countsIn_countWait k).trans (State.countsIn_foldl_countWait l _)
/-- The waits of the time that passed (log 2). -/
theorem State.countsIn_countWaits (s : State) : s.countsIn s.countWaits timedCounters := State.countsIn_foldl_countWait timedCounters s

/-- What n ticks change: the tick, the wall clock while it is set, and the counters of time. -/
structure State.passes (s t : State) (n : Nat) : Prop where
  time : t.time = { s.time with tick := s.time.tick + n }
  rel : t.rel = { s.rel with wall := if s.rel.wallSet then s.rel.wall + 10 * n else s.rel.wall }
  frame : t = { s with time := t.time, rel := t.rel, counters := t.counters, freeCtr := t.freeCtr }
  counter : ∀ k, k ≠ 0x513002 → k ≠ 0x511002 → k ∉ timedCounters → t.counter k = s.counter k

/-- n ticks pass (R196, R486). -/
theorem State.passes_advance (s : State) (n : Nat) : s.passes (s.advance n) n := by
  unfold State.advance
  dsimp only
  generalize hu : (if 0 < max s.sense.tlevel s.sense.plevel ∧ n ≠ 0 then s.count 0x513002 n else s) = u
  have hsu : s.countsIn u [0x513002] := hu ▸ State.countsIn_ite (s.countsIn_count _ _)
  generalize hv : (if 0 < u.sense.plevel ∧ n ≠ 0 then u.count 0x511002 n else u) = v
  have hsv := hsu.trans (hv ▸ State.countsIn_ite (u.countsIn_count 0x511002 n) : u.countsIn v [0x511002])
  generalize hw : (if v.rel.wallSet then ({ v with rel := { v.rel with wall := v.rel.wall + 10 * n } } : State) else v) = w
  have hvw : w = { v with rel := { v.rel with wall := if v.rel.wallSet then v.rel.wall + 10 * n else v.rel.wall } } := by
    subst hw
    split <;> rfl
  generalize hx : (if n ≠ 0 then w.countWaits else w) = x
  have hwx : w.countsIn x timedCounters := hx ▸ State.countsIn_ite w.countsIn_countWaits
  refine ⟨?_, ?_, ?_, fun k h₁ h₂ h₃ => ?_⟩
  · rw [hwx.frame, hvw, hsv.frame]
  · rw [hwx.frame, hvw, hsv.frame]
  · rw [hwx.frame, hvw, hsv.frame]
  · calc x.counter k = w.counter k := hwx.counter k h₃
      _ = v.counter k := by rw [hvw]; rfl
      _ = s.counter k := hsv.counter k (by simp [h₁, h₂])

/-- Settles O1. On an empty queue one tick passes, the model's choice (log 1); the waits of that tick are free (log 2). -/
theorem stepRunsFront : Obligations.StepRunsFront := by
  unfold Obligations.StepRunsFront
  refine ⟨fun s c rest hq => ?_, fun s hq => ?_⟩
  · rw [step, hq]
  · have h := s.passes_advance 1
    refine ⟨s.advance 1, by rw [step, hq], h.time, h.rel, h.frame, h.counter⟩

end Sys2Proof.Machine
end

section
/-! Links of the mesh and the seam: replay of flits and wire tests (07 R204, R206, R224, R225; 12 R375, R379, R380). -/

namespace Sys2Proof.Machine

/-! ## Links and seam directions -/

@[simp] theorem State.link_modLink (s : State) (r d : Nat) (f : Link → Link) : (s.modLink r d f).link r d = f (s.link r d) := by
  simp [State.link, State.modLink]
@[simp] theorem State.seam_modSeam (s : State) (y : Nat) (ew : Bool) (f : Seam → Seam) : (s.modSeam y ew f).seam y ew = f (s.seam y ew) := by
  simp [State.seam, State.modSeam]
@[simp] theorem State.link_modSeam (s : State) (r d y : Nat) (ew : Bool) (f : Seam → Seam) : (s.modSeam y ew f).link r d = s.link r d := rfl
@[simp] theorem State.counter_modSeam (s : State) (y : Nat) (ew : Bool) (f : Seam → Seam) (k : Nat) : (s.modSeam y ew f).counter k = s.counter k := rfl

/-! ## A flit that fails its check (R206, R224) -/

/-- The link's replay buffer from the failed flit on. -/
def Link.again (l : Link) (seq : BitVec 8) : List (BitVec 8) := (l.replay.dropWhile fun e => e.1 ≠ seq).map fun e => e.1
/-- The flits that leave again, and the replay that the link notes. -/
def State.replays (s : State) (r d : Nat) (seq : BitVec 8) : State :=
  ((s.count 0x526001).emit (.flits r d ((s.link r d).again seq))).modLink r d fun l =>
    { l with replays := l.replays.filter (fun t => decide (s.time.tick < t + ms 1)) ++ [s.time.tick] }

theorem exec_flitCrcFail_no_port {r : StandId} {dir : Fin 7} (seq : BitVec 8) (s : State) (h : hasPort r dir = false) :
    exec (.flitCrcFail r dir seq) s = .next s := if_pos (by rw [h]; rfl)
theorem exec_flitCrcFail {r : StandId} {dir : Fin 7} (seq : BitVec 8) (s : State) (h : hasPort r dir = true) :
    exec (.flitCrcFail r dir seq) s = .next (if dir.val = 6 then (s.replays r dir seq).modSeam (grow r) (decide (2500 ≤ r.val)) fun x =>
      { x with replays := x.replays + 1 } else s.replays r dir seq) := if_neg (by rw [h]; exact Bool.false_ne_true)

/-! ## The width of a link falls (R375, R379, R380) -/

/-- The boot self-test runs its wire tests (log 64). -/
theorem State.selfTests_iff (s : State) : s.selfTests = true ↔ s.power.railStep = 6 ∧ s.power.state < 3 := decide_eq_true_iff
theorem State.selfTests_eq_false (s : State) : s.selfTests = false ↔ ¬ (s.power.railStep = 6 ∧ s.power.state < 3) := decide_eq_false_iff_not

/-- A lower width is recorded; a failed link outside the boot self-test stops the module's launches. -/
structure State.narrows (s t : State) (width : Nat) : Prop where
  frame : t = { s with rel := t.rel, counters := t.counters, host := t.host }
  stops : s.selfTests = false → 2 ≤ width → 2 ≤ t.rel.health
  boot : s.selfTests = true → t.rel.health = s.rel.health

theorem State.health_faultStop (s : State) (c : Nat) : 2 ≤ (s.faultStop c).rel.health := by
  by_cases h : 2 ≤ s.rel.health
  · rwa [s.faultStop_again c h]
  · exact (s.faultStop_first c (by omega)).1.ge
theorem State.narrows_linkWidth (s : State) (r d width : Nat) : s.narrows (s.linkWidth r d width) width := by
  unfold State.linkWidth
  dsimp only
  generalize hu : s.record 0x0401 0 (leBytes 1 d ++ leBytes 1 width) r d = u
  have hframe : u = { s with rel := u.rel, counters := u.counters } := by
    subst hu
    rw [State.record, State.log_frame]
  have hhealth : u.rel.health = s.rel.health := by rw [← hu, State.record, State.health_log]
  have hboot : u.selfTests = s.selfTests := by rw [hframe]; rfl
  split
  case isTrue h =>
    have htest : s.selfTests = false := by rw [← hboot]; simpa using h.2
    refine ⟨?_, fun _ _ => u.health_faultStop _, fun hs => absurd (htest.symm.trans hs) Bool.false_ne_true⟩
    rw [State.faultStop_frame, hframe]
  case isFalse h =>
    refine ⟨by rw [hframe], fun hs hw => absurd ⟨hw, ?_⟩ h, fun _ => hhealth⟩
    rw [hboot, hs]
    rfl

/-! ## Wire tests of mesh links (R375) -/

/-- Width by the halves in which wires failed. -/
def halfWidth (lower upper : Bool) : Nat := if lower && upper then 2 else if lower || upper then 1 else 0
/-- The link after its test. -/
def Link.tested (lower upper : Bool) (l : Link) : Link :=
  { l with width := max l.width (halfWidth lower upper), replays := [], testDue := false }

/-- A wire test is due: after a failed slice, or more than 16 replays in 1 ms (R206). -/
def Link.fails (l : Link) (now : Nat) : Bool := l.testDue || decide (16 < (l.replays.filter fun t => decide (now < t + ms 1)).length)

section
variable {r : StandId} {dir : Fin 4} {lower upper : Bool} {s : State}

theorem exec_meshLinkWireTest_idle (h : meshPort r dir = false ∨
    ((s.link r dir).testDue = false ∧ (s.link r dir).replays = [] ∧ s.selfTests = false)) : exec (.meshLinkWireTest r dir lower upper) s = .next s := by
  change execMeshLinkWireTest r dir lower upper s = _
  unfold execMeshLinkWireTest
  rcases h with h | ⟨hdue, hreplays, hboot⟩
  · simp [h]
  · simp [hdue, hreplays, hboot]
/-- A test at a port: what it finds is recorded when the link had failed, or when the boot self-test narrows it. -/
theorem exec_meshLinkWireTest_port (hp : meshPort r dir = true) : exec (.meshLinkWireTest r dir lower upper) s =
    if (s.link r dir).fails s.time.tick || (s.selfTests && decide ((s.link r dir).width < ((s.link r dir).tested lower upper).width)) then
      .next ((s.modLink r dir (Link.tested lower upper)).linkWidth r dir ((s.link r dir).tested lower upper).width)
    else if s.selfTests then .next (s.modLink r dir (Link.tested lower upper)) else .next s :=
  if_neg (by rw [hp]; exact Bool.false_ne_true)
/-- A test that is due, or of the boot self-test. -/
theorem exec_meshLinkWireTest (hp : meshPort r dir = true) (h : (s.link r dir).testDue = true ∨ s.selfTests = true) :
    ∃ t, exec (.meshLinkWireTest r dir lower upper) s = .next t ∧
      (t = s.modLink r dir (Link.tested lower upper) ∧ (s.link r dir).testDue = false ∨
        t = (s.modLink r dir (Link.tested lower upper)).linkWidth r dir ((s.link r dir).tested lower upper).width) := by
  rw [exec_meshLinkWireTest_port hp]
  split
  case isTrue => exact ⟨_, rfl, .inr rfl⟩
  case isFalse hno =>
    have hdue : (s.link r dir).testDue = false := by
      cases hd : (s.link r dir).testDue
      · rfl
      · exact absurd (by rw [Link.fails, hd]; rfl) hno
    rw [if_pos (h.resolve_left (by rw [hdue]; exact Bool.false_ne_true))]
    exact ⟨_, rfl, .inl ⟨rfl, hdue⟩⟩

end

/-! ## Wire tests of the ride (R224, R225) -/

/-- The failed wires known after a test. -/
theorem mem_foldl_failed (bad : List Nat) : ∀ (l : List Nat) (w : Nat),
    w ∈ bad.foldl (fun l w => if w ∈ l then l else l ++ [w]) l ↔ w ∈ l ∨ w ∈ bad := by
  induction bad with
  | nil => simp
  | cons b bad ih =>
    intro l w
    rw [List.foldl_cons, ih, List.mem_cons]
    by_cases hb : b ∈ l
    · rw [if_pos hb]
      constructor
      · rintro (h | h)
        · exact .inl h
        · exact .inr (.inr h)
      · rintro (h | rfl | h)
        · exact .inl h
        · exact .inl hb
        · exact .inr h
    · rw [if_neg hb, List.mem_append, List.mem_singleton, or_assoc]

/-- A seam direction after a test that found the wires `bad`. -/
def Seam.tested (bad : List Nat) (x : Seam) : Seam :=
  let failed := bad.foldl (fun l w => if w ∈ l then l else l ++ [w]) x.failed
  { wires := seamMap failed (failed.filter fun w => w < seamWires) x.wires, failed := failed, width := max x.width (seamWidth failed.length) }
/-- n wires were given spares: counted and recorded. -/
def State.seamNoted (s : State) (y : Nat) (ew : Bool) (n : Nat) : State :=
  if n = 0 then s else (s.count 0x526005 n).record 0x0402 2 (leBytes 1 y ++ leBytes 1 (b2n ew) ++ leBytes 1 n)
    (unit := seamRouter y ew) (sub := 6)
theorem State.seamNoted_frame (s : State) (y : Nat) (ew : Bool) (n : Nat) : s.seamNoted y ew n =
    { s with rel := (s.seamNoted y ew n).rel, counters := (s.seamNoted y ew n).counters } := by
  unfold State.seamNoted
  split
  · rfl
  · rw [State.record, State.log_frame]
    rfl
theorem State.seamTest_eq (s : State) (y : Nat) (ew : Bool) (bad : List Nat) : ∃ n, s.seamTest y ew bad =
    if (s.seam y ew).width < ((s.seam y ew).tested bad).width then
      ((s.modSeam y ew (Seam.tested bad)).seamNoted y ew n).linkWidth (seamRouter y ew) 6 ((s.seam y ew).tested bad).width
    else (s.modSeam y ew (Seam.tested bad)).seamNoted y ew n := ⟨_, rfl⟩
/-- A test changes its direction and reaches no stand. -/
theorem State.seamTest_leaves (s : State) (y : Nat) (ew : Bool) (bad : List Nat) :
    (s.seamTest y ew bad).seam y ew = (s.seam y ew).tested bad ∧ (s.seamTest y ew bad).stands = s.stands := by
  obtain ⟨n, he⟩ := s.seamTest_eq y ew bad
  rw [he]
  split
  · rw [(State.narrows_linkWidth ..).frame, State.seamNoted_frame]
    exact ⟨State.seam_modSeam .., rfl⟩
  · rw [State.seamNoted_frame]
    exact ⟨State.seam_modSeam .., rfl⟩

/-- Settles O39. The wire tests of the boot self-test are commands given between the rails and the exit (log 64). -/
theorem linkFaults : Obligations.LinkFaults := by
  unfold Obligations.LinkFaults
  intro s
  dsimp only
  simp only [← State.selfTests_iff]
  refine ⟨fun r dir seq h => exec_flitCrcFail_no_port seq s h, fun r dir seq h => ⟨_, exec_flitCrcFail seq s h, ?_⟩, ?_, ?_, ?_⟩
  case refine_1 =>
    by_cases hd : dir.val = 6
    · rw [if_pos hd]
      refine ⟨?_, ?_, rfl, fun _ => ?_, fun hn => absurd hd hn, rfl, rfl⟩
      · rw [State.counter_modSeam]; exact State.counter_count s _ _
      · rw [State.link_modSeam, State.replays, State.link_modLink]; rfl
      · rw [State.seam_modSeam]; rfl
    · rw [if_neg hd]
      refine ⟨State.counter_count s _ _, ?_, rfl, fun h6 => absurd h6 hd, fun _ => rfl, rfl, rfl⟩
      rw [State.replays, State.link_modLink]; rfl
  case refine_2 =>
    intro r dir lower upper hp hdue
    obtain ⟨t, he, ht⟩ := exec_meshLinkWireTest (lower := lower) (upper := upper) hp hdue
    refine ⟨t, he, ?_⟩
    rcases ht with ⟨rfl, hno⟩ | rfl
    · rw [State.link_modLink]
      have hboot := hdue.resolve_left (by rw [hno]; exact Bool.false_ne_true)
      exact ⟨rfl, rfl, rfl, fun hn => absurd hboot hn, fun _ => rfl, rfl⟩
    · have h := (s.modLink r dir (Link.tested lower upper)).narrows_linkWidth r dir ((s.link r dir).tested lower upper).width
      generalize (s.modLink r dir (Link.tested lower upper)).linkWidth r dir ((s.link r dir).tested lower upper).width = t at h
      have hlink : t.link r dir = Link.tested lower upper (s.link r dir) := by
        rw [h.frame]; exact State.link_modLink ..
      rw [hlink]
      refine ⟨rfl, rfl, rfl, fun hn hl hu => h.stops (Bool.eq_false_iff.2 hn) ?_, h.boot, by rw [h.frame]; rfl⟩
      rw [hl, hu]
      exact le_max_right ..
  case refine_3 =>
    intro r dir lower upper h
    exact exec_meshLinkWireTest_idle (h.imp_right fun ⟨hdue, hreplays, hboot⟩ => ⟨hdue, hreplays, Bool.eq_false_iff.2 hboot⟩)
  case refine_4 =>
    intro y ew bad
    refine ⟨fun h => ⟨_, if_pos (c := s.selfTests = true ∨ (s.seam y ew).testDue = true ∨ 4 < (s.seam y ew).replays) ?_, ?_⟩,
      fun hdue hreplays hboot => if_neg ?_⟩
    · rcases h with h | h | h
      · exact .inr (.inl h)
      · exact .inr (.inr h)
      · exact .inl h
    · obtain ⟨hseam, hstands⟩ := s.seamTest_leaves y ew (bad.map fun w => w.val)
      rw [hseam]
      exact ⟨mem_foldl_failed _ _, rfl, rfl, hstands⟩
    · rintro (h | h | h)
      · exact hboot h
      · exact absurd (hdue.symm.trans h) Bool.false_ne_true
      · omega

end Sys2Proof.Machine
end

section
/-! Packets as they arrive, multicast and the return to service (07 R208, R214, R215; 10 R326). -/

namespace Sys2Proof.Machine

/-! ## Packets from their words (R207, R208, Table 7.8) -/

/-- The sender and the destination stand in the header. -/
theorem decPacket_fields {hdr : BitVec 128} {ws : List Word} {p : Packet} (h : decPacket hdr ws = some p) :
    p.src = hdr.toNat / 2 ^ 107 % 8192 ∧ p.dst = hdr.toNat / 2 ^ 94 % 8192 := by
  unfold decPacket at h
  dsimp only at h
  split at h
  · obtain ⟨b, -, rfl⟩ := Option.map_eq_some_iff.1 h
    exact ⟨rfl, rfl⟩
  · exact absurd h (by simp)

section
variable {node : NodeId} {hdr : BitVec 128} {ws : List Word} {p : Packet} {s : State}

theorem exec_packetReceive_malformed (h : decPacket hdr ws = none) : exec (.packetReceive node hdr ws) s = .next (s.count 0x526008) := by
  change execPacketReceive node hdr ws s = _
  rw [execPacketReceive, h]
theorem exec_packetReceive (h : decPacket hdr ws = some p) (hm : ∀ f d, p.body ≠ .mgmt f d) :
    exec (.packetReceive node hdr ws) s = .next (if p ∈ s.mesh then s else s.send p) := by
  change execPacketReceive node hdr ws s = _
  rw [execPacketReceive, h]
  dsimp only
  split
  case h_1 f d hb => exact absurd hb (hm f d)
  case h_2 => rfl
/-- The answer inside the dictionary agent is not modelled (log 26). -/
theorem exec_packetReceive_mgmt (h : decPacket hdr ws = some p) {f : Nat} {d : List Word} (hb : p.body = .mgmt f d)
    (haway : s.isAway node = false) : exec (.packetReceive node hdr ws) s = .next s := by
  change execPacketReceive node hdr ws s = _
  rw [execPacketReceive, h]
  dsimp only
  rw [hb]
  dsimp only
  rw [haway]
  rfl

end

/-! ## Routes (R214) -/

/-- Coordinates that lie on the die name one stand. -/
theorem standAt_inj {x y u v : Nat} (hx : x < 100) (hy : y < 50) (hu : u < 100) (hv : v < 50) (h : standAt u v = standAt x y) :
    u = x ∧ v = y := by
  unfold standAt at h
  omega
/-- A named place lies in the rectangle or the square of the route. -/
theorem mem_routeStands (r : Route) (n : Nat) : n ∈ routeStands r ↔ ∃ x y, routeNames r x y = true ∧ standAt x y = n := by
  have hbox : ∀ x y, routeNames r x y = true →
      x ∈ (if r.bitmapMode then (List.range 16).map (· + r.x0) else (List.range (r.x1 + 1 - r.x0)).map (· + r.x0)) ∧
        y ∈ (if r.bitmapMode then (List.range 16).map (· + r.y0) else (List.range (r.y1 + 1 - r.y0)).map (· + r.y0)) := by
    intro x y h
    unfold routeNames at h
    have hshift : ∀ {k lo n : Nat}, lo ≤ k → k < lo + n → k ∈ (List.range n).map (· + lo) := fun h₁ h₂ =>
      List.mem_map.2 ⟨_, List.mem_range.2 (by omega), Nat.sub_add_cancel h₁⟩
    split_ifs at h ⊢
    · simp only [Bool.decide_and, Bool.and_eq_true, decide_eq_true_eq] at h
      obtain ⟨h₁, h₂, h₃, h₄, -⟩ := h
      exact ⟨hshift h₁ h₂, hshift h₃ h₄⟩
    · obtain ⟨h₁, h₂, h₃, h₄⟩ := of_decide_eq_true h
      exact ⟨hshift h₁ (by omega), hshift h₃ (by omega)⟩
  unfold routeStands
  simp only [List.mem_flatMap, List.mem_map, List.mem_filter]
  constructor
  · rintro ⟨x, -, y, ⟨-, hn⟩, rfl⟩
    exact ⟨x, y, hn, rfl⟩
  · rintro ⟨x, y, hn, rfl⟩
    exact ⟨x, (hbox x y hn).1, y, ⟨(hbox x y hn).2, hn⟩, rfl⟩
/-- A well-formed route names places on the die. -/
theorem routeNames_on_die {r : Route} (h : routeMalformed r = false) {x y : Nat} (hn : routeNames r x y = true) : x < 100 ∧ y < 50 := by
  unfold routeMalformed at h
  unfold routeNames at hn
  split_ifs at h hn
  · simp only [Bool.decide_and, Bool.and_eq_true, decide_eq_true_eq] at hn
    obtain ⟨h₁, h₂, h₃, h₄, hbit⟩ := hn
    have hall := List.any_eq_false.1 (Bool.or_eq_false_iff.1 h).2 (16 * (y - r.y0) + (x - r.x0)) (List.mem_range.2 (by omega))
    rw [hbit, Bool.true_and, decide_eq_true_eq] at hall
    omega
  · have := of_decide_eq_false h
    obtain ⟨h₁, h₂, h₃, h₄⟩ := of_decide_eq_true hn
    omega
theorem standAt_mem_routeStands {r : Route} (h : routeMalformed r = false) {x y : Nat} (hx : x < 100) (hy : y < 50) :
    standAt x y ∈ routeStands r ↔ routeNames r x y = true := by
  rw [mem_routeStands]
  constructor
  · rintro ⟨u, v, hn, he⟩
    obtain ⟨hu, hv⟩ := routeNames_on_die h hn
    obtain ⟨rfl, rfl⟩ := standAt_inj hx hy hu hv he
    exact hn
  · exact fun hn => ⟨x, y, hn, rfl⟩

/-! ## Multicast and the return to service (R215, R326) -/

theorem exec_mcastForward {p : Packet} {r : Route} {h : WriteHdr} {ws : List Word} (hb : p.body = .mcast r h ws) (s : State) :
    exec (.mcastForward p) s = .next (s.fork p ((routeStands r).map fun n => { p with dst := n })) := by
  change execMcastForward p s = _
  rw [execMcastForward, hb]
theorem exec_mcastForward_other {p : Packet} (hb : ∀ r h ws, p.body ≠ .mcast r h ws) (s : State) :
    exec (.mcastForward p) s = .next (s.take p) := by
  change execMcastForward p s = _
  unfold execMcastForward
  split
  case h_1 r h ws he => exact absurd he (hb r h ws)
  case h_2 => rfl

/-- Without entries and waiting parts there is nothing to settle (R219). -/
theorem State.settleRed_none {s : State} {node : Nat} (he : (s.router node).entries = []) (hw : (s.router node).waiting = []) (fuel : Nat) :
    State.settleRed node fuel s = s := by
  cases fuel with
  | zero => rfl
  | succ fuel => rw [State.settleRed, he, hw]; rfl
theorem State.settleReductions_none {s : State} {node : Nat} (he : (s.router node).entries = []) (hw : (s.router node).waiting = []) :
    s.settleReductions node = s := State.settleRed_none he hw _

theorem exec_unitReturnsToService {s : State} {node : NodeId} (he : (s.router node).entries = []) (hw : (s.router node).waiting = []) :
    exec (.unitReturnsToService node) s = .next (s.modNode node fun u => { u with away := false }) :=
  congrArg Host.Outcome.next (State.settleReductions_none (s := s.modNode node fun u => { u with away := false }) he hw)

/-- Settles O40. A MGMT packet is taken without effect, the model's choice (log 26). -/
theorem packetCommands : Obligations.PacketCommands := by
  unfold Obligations.PacketCommands
  intro s
  refine ⟨fun node hdr ws h => ?_, fun node hdr ws p h => ?_, fun p r h ws hb => ⟨_, exec_mcastForward hb s, rfl⟩,
    fun p hb => ⟨_, exec_mcastForward_other hb s, rfl⟩, fun x y r h hx hy => standAt_mem_routeStands h hx hy, fun node he hw => ?_⟩
  case refine_1 =>
    exact ⟨_, exec_packetReceive_malformed h, rfl, State.counter_count .., fun j hj => State.counter_count_ne s 1 hj⟩
  case refine_2 =>
    obtain ⟨hsrc, hdst⟩ := decPacket_fields h
    refine ⟨hsrc, hdst, fun hm hp => ⟨_, exec_packetReceive h hm, ?_⟩, fun hm hp => ?_, fun ⟨f, d, hb⟩ haway => ?_⟩
    · rw [if_neg hp]
      rfl
    · rw [exec_packetReceive h hm, if_pos hp]
    · exact exec_packetReceive_mgmt h hb haway
  case refine_3 =>
    refine ⟨_, exec_unitReturnsToService he hw, ?_, ?_, fun n hn => s.node_modNode_ne _ hn, rfl⟩
    · rw [State.node_modNode]
    · rw [State.node_modNode]

end Sys2Proof.Machine
end

section
/-! Reductions in the network (07 R211, R217 to R221). -/

namespace Sys2Proof.Machine

/-! ## Parts and their combination (R218, R220) -/

theorem partOf_reduce {p : Packet} {m : PartMsg} (h : p.body = .reduce m) : partOf p = some m := by rw [partOf, h]
theorem getD_addElems (a b : List Acc) (i : Nat) : (addElems a b).getD i 0 = a.getD i 0 + b.getD i 0 := by
  unfold addElems
  by_cases h : i < max a.length b.length
  · simp [h]
  · have ha : a.length ≤ i := by omega
    have hb : b.length ≤ i := by omega
    simp [ha, hb]
/-- A LEAD part gives the reduction word and the sender unless the older one has LEAD too. -/
theorem combineParts_eq {p q : Packet} {a b : PartMsg} (ha : p.body = .reduce a) (hb : q.body = .reduce b) :
    combineParts p q = { (if b.lead && !a.lead then q else p) with
      body := .reduce { (if b.lead && !a.lead then b else a) with
        carried := a.carried + b.carried, lead := a.lead || b.lead, elems := addElems a.elems b.elems } } := by
  rw [combineParts, partOf_reduce ha, partOf_reduce hb]

/-! ## What a reduction that goes wrong leaves (R221) -/

@[simp] theorem State.router_modRouter (s : State) (n : Nat) (f : Router → Router) : (s.modRouter n f).router n = f (s.router n) := by
  simp [State.router, State.modRouter]
@[simp] theorem State.router_send (s : State) (p : Packet) (n : Nat) : (s.send p).router n = s.router n := rfl
theorem State.redDiscard_frame (s : State) (unit : Nat) (p : Packet) (cause : Nat) : s.redDiscard unit p cause =
    { s with rel := (s.redDiscard unit p cause).rel, counters := (s.redDiscard unit p cause).counters } := by
  unfold State.redDiscard
  split
  · rw [State.record, State.log_frame]
    rfl
  · rfl
@[simp] theorem State.router_redDiscard (s : State) (unit : Nat) (p : Packet) (cause n : Nat) :
    (s.redDiscard unit p cause).router n = s.router n := by
  rw [State.redDiscard_frame]
  rfl
@[simp] theorem State.mesh_redDiscard (s : State) (unit : Nat) (p : Packet) (cause : Nat) : (s.redDiscard unit p cause).mesh = s.mesh := by
  rw [State.redDiscard_frame]
@[simp] theorem State.stands_redDiscard (s : State) (unit : Nat) (p : Packet) (cause : Nat) : (s.redDiscard unit p cause).stands = s.stands := by
  rw [State.redDiscard_frame]
theorem State.counter_redDiscard (s : State) (unit : Nat) {p : Packet} {m : PartMsg} (h : p.body = .reduce m) (cause : Nat) :
    (s.redDiscard unit p cause).counter 0x526004 = (s.counter 0x526004 + 1) % 2 ^ 64 := by
  rw [State.redDiscard, partOf_reduce h]
  exact (State.counter_log_ne _ _ (by decide)).trans (State.counter_count ..)
theorem State.counter_redDiscard_ne (s : State) (unit : Nat) (p : Packet) (cause : Nat) {k : Nat} (h : k ≠ 0x526004) (hl : k ≠ 0x540002) :
    (s.redDiscard unit p cause).counter k = s.counter k := by
  unfold State.redDiscard
  split
  · rw [State.record, State.counter_log_ne _ _ hl, State.counter_count_ne _ _ h]
  · rfl

/-! ## Delivery (R220) -/

/-- Routers stay, and so does every counter but those of dropped writes, voids and lost records. -/
structure State.sparesRouters (s t : State) : Prop where
  routers : t.routers = s.routers
  counter : ∀ k, k ∉ [0x523007, 0x523008, 0x540002] → t.counter k = s.counter k

theorem State.sparesRouters_refl (s : State) : s.sparesRouters s := ⟨rfl, fun _ _ => rfl⟩
theorem State.sparesRouters.trans {s t u : State} (h : s.sparesRouters t) (k : t.sparesRouters u) : s.sparesRouters u :=
  ⟨k.routers.trans h.routers, fun n hn => (k.counter n hn).trans (h.counter n hn)⟩
theorem State.sparesRouters_foldl {α : Type} {f : State → α → State} (h : ∀ (s : State) a, s.sparesRouters (f s a)) :
    ∀ (l : List α) (s : State), s.sparesRouters (l.foldl f s)
  | [], s => s.sparesRouters_refl
  | a :: l, s => (h s a).trans (State.sparesRouters_foldl h l _)
theorem State.sparesRouters_modCredit (s : State) (n : Nat) (f : CreditUnit → CreditUnit) : s.sparesRouters (s.modCredit n f) :=
  ⟨by rw [State.modCredit_frame], fun k _ => s.counter_modCredit n k f⟩
theorem State.sparesRouters_dropWrite (s : State) (n src : Nat) (h : WriteHdr) (rule : Nat) : s.sparesRouters (s.dropWrite n src h rule) := by
  refine ⟨by rw [State.dropWrite, State.log_frame]; rfl, fun k hk => ?_⟩
  simp only [List.mem_cons, List.not_mem_nil, or_false, not_or] at hk
  rw [State.dropWrite, State.counter_log_ne _ _ hk.2.2, State.counter_count_ne _ _ hk.1]
/-- A CREDIT_VOID leaves (R116). -/
theorem State.sparesRouters_void (s : State) (n d i w st g m t : Nat) : s.sparesRouters ((s.count 0x523008).sendGrant n d i w st g m t) :=
  ⟨rfl, fun k hk => State.counter_count_ne s 1 fun h => hk (by simp [h])⟩
theorem State.sparesRouters_lateWrite (s : State) (n src sinc : Nat) (h : WriteHdr) : s.sparesRouters (s.lateWrite n src sinc h) := by
  unfold State.lateWrite
  dsimp only
  refine (s.sparesRouters_dropWrite n src h 116).trans ?_
  split
  · exact (State.sparesRouters_modCredit ..).trans (State.sparesRouters_void ..)
  · exact State.sparesRouters_refl _
theorem State.sparesRouters_storeRow (s : State) (n slot row offset : Nat) (ws : List Word) : s.sparesRouters (s.storeRow n slot row offset ws) := by
  unfold State.storeRow
  split
  · have h := s.writesAt_writeWords n 19 0xFF (((s.credit n).win slot).bank * 2048 + (((s.credit n).win slot).first + row) * 64 + offset) ws
    exact ⟨by rw [h.frame], fun k hk => h.counter k fun e => hk (by simp [e])⟩
  · exact ⟨rfl, fun _ _ => rfl⟩
/-- A remote write, stored or dropped, leaves every router. -/
theorem State.sparesRouters_remoteWrite (s : State) (n src sinc : Nat) (stale : Bool) (h : WriteHdr) (ws : List Word) :
    s.sparesRouters (s.remoteWrite n src sinc stale h ws) := by
  unfold State.remoteWrite
  dsimp only
  split
  · exact s.sparesRouters_lateWrite ..
  split
  · exact s.sparesRouters_dropWrite ..
  split
  case h_1 =>
    split
    · exact s.sparesRouters_dropWrite ..
    split
    · exact s.sparesRouters_dropWrite ..
    · exact (s.sparesRouters_storeRow ..).trans (State.sparesRouters_modCredit ..)
  case h_2 => exact s.sparesRouters_dropWrite ..
  case h_3 => exact s.sparesRouters_dropWrite ..
/-- A part delivered into a stand is counted. -/
theorem State.deliverPart_stand (s : State) {node : Nat} (hn : node < 5000) {p : Packet} {m : PartMsg} (hb : p.body = .reduce m) :
    (s.count 0x526003).sparesRouters (s.deliverPart node p) := by
  rw [State.deliverPart, partOf_reduce hb]
  dsimp only
  rw [if_neg (by omega)]
  exact State.sparesRouters_foldl (fun s w => s.sparesRouters_remoteWrite ..) _ _

/-! ## A router on the path (R218) -/

section
variable {s : State} {p : Packet} {m : PartMsg} {r : StandId}

theorem exec_reducePacketArrive_off (ho : onPath r p.src p.dst = false) : exec (.reducePacketArrive r p) s = .next s :=
  if_pos (.inr (.inr (by rw [ho]; rfl)))

/-- The router has no packet that this one can join. -/
def State.noPartner (s : State) (r : Nat) (p : Packet) : Prop :=
  (s.router r).combine.find? (fun e => sameKey e.1 p && s.combOpen e.2) = none

section
variable (hb : p.body = .reduce m) (ha : attach p.dst ≠ r.val) (ho : onPath r p.src p.dst = true)
include hb ha ho

/-- A part on its way meets what its router holds. -/
theorem exec_reducePacketArrive_on : exec (.reducePacketArrive r p) s =
    match (s.router r).combine.find? fun e => sameKey e.1 p && s.combOpen e.2 with
    | some e =>
      let t := ((s.take p).count 0x526002).modRouter r fun x =>
        { x with combine := updFirst (fun o => decide (o = e)) (fun e => (combineParts e.1 p, e.2)) x.combine }
      .next (if bothLead e.1 p then t.redDiscard r p 3 else t)
    | none =>
      if (s.router r).combine.length < 8 ∧ s.combWindow ≠ 0 then
        .next ((s.take p).modRouter r fun x => { x with combine := x.combine ++ [(p, s.time.tick)] })
      else .next ((s.take p).send p) := by
  refine (if_neg ?_).trans rfl
  rw [partOf_reduce hb, ho]
  simp [ha]
theorem exec_reducePacketArrive_joins {e : Packet × Nat}
    (he : (s.router r).combine.find? (fun e => sameKey e.1 p && s.combOpen e.2) = some e) : s.gives (.reducePacketArrive r p) fun t =>
      t.mesh = dropFirst p s.mesh ∧ t.counter 0x526002 = (s.counter 0x526002 + 1) % 2 ^ 64 ∧
        (t.router r).combine = updFirst (fun o => decide (o = e)) (fun e => (combineParts e.1 p, e.2)) (s.router r).combine := by
  refine ⟨_, by rw [exec_reducePacketArrive_on hb ha ho, he], ?_⟩
  dsimp only
  split
  · rw [State.mesh_redDiscard, State.counter_redDiscard_ne _ _ _ _ (by decide) (by decide), State.router_redDiscard, State.router_modRouter]
    exact ⟨rfl, State.counter_count .., rfl⟩
  · rw [State.router_modRouter]
    exact ⟨rfl, State.counter_count .., rfl⟩
theorem exec_reducePacketArrive_held (hn : s.noPartner r p) (hroom : (s.router r).combine.length < 8) (hw : s.combWindow ≠ 0) :
    exec (.reducePacketArrive r p) s =
      .next ((s.take p).modRouter r fun x => { x with combine := x.combine ++ [(p, s.time.tick)] }) := by
  rw [exec_reducePacketArrive_on hb ha ho, hn]
  exact if_pos ⟨hroom, hw⟩
theorem exec_reducePacketArrive_sent (hn : s.noPartner r p) (hfull : 8 ≤ (s.router r).combine.length ∨ s.combWindow = 0) :
    exec (.reducePacketArrive r p) s = .next ((s.take p).send p) := by
  rw [exec_reducePacketArrive_on hb ha ho, hn]
  exact if_neg (by omega)

end

/-- What a window that ends held goes on (R218). -/
theorem exec_combiningWindowExpiry {i : Fin 8} {e : Packet × Nat} (he : (s.router r).combine[i.val]? = some e)
    (hover : s.windowOver e.2 = true) : exec (.combiningWindowExpiry r i) s =
      .next ((s.modRouter r fun x => { x with combine := x.combine.eraseIdx i }).send e.1) := by
  change execCombiningWindowExpiry r i s = _
  rw [execCombiningWindowExpiry, he]
  exact if_pos hover

end

/-! ## Entries of the destination (R219) -/

/-- An entry leaves the table. -/
def State.dropEntry (s : State) (node : Nat) (e : RedEntry) : State := s.modRouter node fun x => { x with entries := x.entries.erase e }
/-- A part that takes an entry. -/
def State.takesEntry (s : State) (node : Nat) (p : Packet) : State :=
  (s.take p).modRouter node fun x => { x with entries := x.entries ++ [{ pkt := p, since := s.time.tick }] }

section
variable {s : State} {node : Nat} {e : RedEntry} {m : PartMsg}

theorem State.endEntry_exceeded (hb : e.pkt.body = .reduce m) (h : m.nc < m.carried) :
    s.endEntry node e = (s.dropEntry node e).redDiscard node e.pkt 0 := by
  rw [State.endEntry, partOf_reduce hb]
  exact if_pos h
theorem State.endEntry_delivered (hb : e.pkt.body = .reduce m) (h : m.carried ≤ m.nc) (hl : m.lead = true) :
    s.endEntry node e = (s.dropEntry node e).deliverPart node e.pkt := by
  rw [State.endEntry, partOf_reduce hb]
  dsimp only
  rw [if_neg (by omega), if_pos hl]
  rfl
theorem State.endEntry_no_lead (hb : e.pkt.body = .reduce m) (h : m.carried ≤ m.nc) (hl : m.lead = false) :
    s.endEntry node e = (s.dropEntry node e).redDiscard node e.pkt 1 := by
  rw [State.endEntry, partOf_reduce hb]
  dsimp only
  rw [if_neg (by omega), if_neg (by rw [hl]; exact Bool.false_ne_true)]
  rfl

theorem State.settleReductions_only (he : (s.router node).entries = [e]) (hw : (s.router node).waiting = []) :
    s.settleReductions node = State.settleRed node (5 + 1) s := by
  rw [State.settleReductions, redFuel, he, hw]
  rfl
/-- An only entry that does not end now stays. -/
theorem State.settleReductions_stays (he : (s.router node).entries = [e]) (hw : (s.router node).waiting = [])
    (hopen : s.entryEnds node e = false) : s.settleReductions node = s := by
  rw [State.settleReductions_only he hw, State.settleRed, he, hw, List.find?_cons, hopen]
  rfl
/-- An only entry that ends leaves none. -/
theorem State.settleReductions_ends (he : (s.router node).entries = [e]) (hw : (s.router node).waiting = [])
    (hends : s.entryEnds node e = true) (hr : (s.endEntry node e).routers = (s.dropEntry node e).routers) :
    s.settleReductions node = s.endEntry node e ∧ ((s.endEntry node e).router node).entries = [] := by
  have hrouter : (s.endEntry node e).router node = { s.router node with entries := [] } := by
    rw [State.router, hr]
    refine (s.router_modRouter node _).trans ?_
    rw [he, List.erase_cons_head]
  have hempty : ((s.endEntry node e).router node).entries = [] := by rw [hrouter]
  refine ⟨?_, hempty⟩
  rw [State.settleReductions_only he hw, State.settleRed, he, List.find?_cons, hends]
  exact State.settleRed_none hempty (by rw [hrouter]; exact hw) 5

end

section
variable {s : State} {p : Packet} {m : PartMsg} {node : NodeId} (hb : p.body = .reduce m)
include hb

/-- The first part of all takes an entry. -/
theorem exec_reductionPartArrive (he : (s.router node).entries = []) :
    exec (.reductionPartArrive node p) s = .next ((s.takesEntry node p).settleReductions node) := by
  have hadd : (s.take p).addPart node p = s.takesEntry node p := by
    have hentries : ((s.take p).router node).entries = [] := he
    rw [State.addPart, hentries]
    rfl
  rw [← hadd]
  exact if_neg (by rw [partOf_reduce hb]; exact Bool.false_ne_true)

omit hb in
theorem State.router_takesEntry (he : (s.router node).entries = []) :
    (s.takesEntry node p).router node = { s.router node with entries := [{ pkt := p, since := s.time.tick }] } := by
  refine ((s.take p).router_modRouter node _).trans ?_
  change ({ s.router node with entries := (s.router node).entries ++ _ } : Router) = _
  rw [he]
  rfl

/-- Whether the entry of a first part ends at once (R219, R221). -/
theorem State.entryEnds_takesEntry (e : RedEntry) (he : e.pkt = p) : (s.takesEntry node p).entryEnds node e =
    (decide (m.nc < m.carried) || (m.carried == m.nc && (!m.lead || !s.isAway node))) := by
  rw [State.entryEnds, he, partOf_reduce hb]
  rfl

section
variable (he : (s.router node).entries = []) (hw : (s.router node).waiting = [])
include he hw

/-- A part that carries less than its count waits in its entry. -/
theorem exec_reductionPartArrive_waits (h : m.carried < m.nc) : exec (.reductionPartArrive node p) s = .next (s.takesEntry node p) := by
  rw [exec_reductionPartArrive hb he, State.settleReductions_stays (e := { pkt := p, since := s.time.tick })]
  · rw [State.router_takesEntry he]
  · rw [State.router_takesEntry he]
    exact hw
  · rw [State.entryEnds_takesEntry hb _ rfl]
    simp [h.ne, h.le]

/-- A part that ends its own entry: what the end of that entry leaves. -/
theorem exec_reductionPartArrive_ends {q : RedEntry} (hq : q = { pkt := p, since := s.time.tick })
    (hends : m.nc < m.carried ∨ (m.carried = m.nc ∧ (m.lead = false ∨ s.isAway node = false)))
    (hr : ((s.takesEntry node p).endEntry node q).routers = ((s.takesEntry node p).dropEntry node q).routers) :
    exec (.reductionPartArrive node p) s = .next ((s.takesEntry node p).endEntry node q) ∧
      (((s.takesEntry node p).endEntry node q).router node).entries = [] := by
  have hnow : (s.takesEntry node p).entryEnds node q = true := by
    rw [State.entryEnds_takesEntry hb q (by rw [hq])]
    rcases hends with h | ⟨h, hl | hl⟩
    · simp [h]
    · simp [h, hl]
    · simp [h, hl]
  obtain ⟨hsettle, hempty⟩ := State.settleReductions_ends (s := s.takesEntry node p) (node := node) (e := q)
    (by rw [State.router_takesEntry he, hq]) (by rw [State.router_takesEntry he]; exact hw) hnow hr
  rw [exec_reductionPartArrive hb he, hsettle]
  exact ⟨rfl, hempty⟩
/-- A complete part with LEAD is delivered and frees its entry. -/
theorem gives_reductionPartArrive_delivered (hc : m.carried = m.nc) (hl : m.lead = true) (haway : s.isAway node = false)
    (hn : node.val < 5000) : s.gives (.reductionPartArrive node p) fun t =>
      (t.router node).entries = [] ∧ t.counter 0x526003 = (s.counter 0x526003 + 1) % 2 ^ 64 := by
  have hend := State.endEntry_delivered (s := s.takesEntry node p) (node := node) (e := { pkt := p, since := s.time.tick }) hb hc.le hl
  have hspares := State.deliverPart_stand ((s.takesEntry node p).dropEntry node { pkt := p, since := s.time.tick }) hn hb
  obtain ⟨hexec, hempty⟩ := exec_reductionPartArrive_ends hb he hw rfl (.inr ⟨hc, .inr haway⟩) (by rw [hend]; exact hspares.routers)
  refine ⟨_, hexec, hempty, ?_⟩
  rw [hend, hspares.counter _ (by decide), State.counter_count]
  rfl
/-- A part that carries more than its count, or all of it without LEAD, is discarded and counted (R221). -/
theorem gives_reductionPartArrive_discarded (h : m.nc < m.carried ∨ (m.carried = m.nc ∧ m.lead = false)) :
    s.gives (.reductionPartArrive node p) fun t =>
      (t.router node).entries = [] ∧ t.counter 0x526004 = (s.counter 0x526004 + 1) % 2 ^ 64 ∧ t.stands = s.stands := by
  obtain ⟨cause, hend⟩ : ∃ cause, (s.takesEntry node p).endEntry node { pkt := p, since := s.time.tick } =
      ((s.takesEntry node p).dropEntry node { pkt := p, since := s.time.tick }).redDiscard node p cause := by
    rcases h with h | ⟨hc, hl⟩
    · exact ⟨0, State.endEntry_exceeded hb h⟩
    · exact ⟨1, State.endEntry_no_lead hb hc.le hl⟩
  obtain ⟨hexec, hempty⟩ := exec_reductionPartArrive_ends hb he hw rfl (h.imp_right (And.imp_right .inl))
    (by rw [hend, State.redDiscard_frame])
  refine ⟨_, hexec, hempty, ?_, ?_⟩
  · rw [hend]
    exact State.counter_redDiscard _ _ hb _
  · rw [hend, State.stands_redDiscard]
    rfl

end

/-! ## The timeout of an entry (R221) -/

theorem RedEntry.whole_iff {e : RedEntry} (h : e.pkt = p) : e.whole = true ↔ m.carried = m.nc ∧ m.lead = true := by
  rw [RedEntry.whole, h, partOf_reduce hb]
  simp

section
variable {k : Nat} (he : (s.router node).entries = [{ pkt := p, since := k }])
include he

omit hb in
theorem exec_reductionTimeout : exec (.reductionTimeout node 0) s =
    if !({ pkt := p, since := k } : RedEntry).whole ∧ k + s.setting 0x240002 2 * s.time.len ≤ s.time.tick then
      .next (((s.modRouter node fun x => { x with entries := x.entries.eraseIdx 0 }).redDiscard node p 2).settleReductions node)
    else .next s := by
  change execReductionTimeout node 0 s = _
  rw [execReductionTimeout, he]
  rfl
/-- An entry that is not complete in time is discarded and counted. -/
theorem gives_reductionTimeout (hw : (s.router node).waiting = []) (hc : ¬ (m.carried = m.nc ∧ m.lead = true))
    (hlate : k + s.setting 0x240002 2 * s.time.len ≤ s.time.tick) : s.gives (.reductionTimeout node 0) fun t =>
      (t.router node).entries = [] ∧ t.counter 0x526004 = (s.counter 0x526004 + 1) % 2 ^ 64 ∧ t.mesh = s.mesh ∧ t.stands = s.stands := by
  have hrouter : (((s.modRouter node fun x => { x with entries := x.entries.eraseIdx 0 }).redDiscard node p 2).router node) =
      { s.router node with entries := [] } := by
    rw [State.router_redDiscard, State.router_modRouter, he]
    rfl
  have hopen : (!({ pkt := p, since := k } : RedEntry).whole) = true := by
    rw [← RedEntry.whole_iff hb (e := { pkt := p, since := k }) rfl] at hc
    simpa using hc
  refine ⟨_, (exec_reductionTimeout he).trans (if_pos ⟨hopen, hlate⟩), ?_⟩
  · rw [State.settleReductions_none (by rw [hrouter]) (by rw [hrouter]; exact hw)]
    exact ⟨congrArg Router.entries hrouter, State.counter_redDiscard _ _ hb _, State.mesh_redDiscard .., State.stands_redDiscard ..⟩
/-- A complete one, and one that is not late, stay. -/
theorem exec_reductionTimeout_stays
    (h : (m.carried = m.nc ∧ m.lead = true) ∨ s.time.tick < k + s.setting 0x240002 2 * s.time.len) :
    exec (.reductionTimeout node 0) s = .next s := by
  refine (exec_reductionTimeout he).trans (if_neg ?_)
  rintro ⟨hwhole, hlate⟩
  rcases h with h | h
  · rw [(RedEntry.whole_iff hb (e := { pkt := p, since := k }) rfl).2 h] at hwhole
    exact absurd hwhole Bool.false_ne_true
  · omega

end
end

/-- Settles O41: how two parts combine, then what a router on the path, a window's end, the destination and the timeout do. -/
theorem reductions : Obligations.Reductions := by
  unfold Obligations.Reductions
  refine ⟨fun p q a b ha hb => ?_, fun s p m hb => ⟨fun r _ ho => exec_reducePacketArrive_off ho, fun r ha ho => ?_, fun node hw => ?_⟩⟩
  case refine_1 =>
    rw [combineParts_eq ha hb]
    refine ⟨_, rfl, rfl, rfl, getD_addElems _ _, fun hl hn => ?_, fun h => ?_⟩
    · rw [hl, hn]
      exact ⟨rfl, rfl, rfl, rfl⟩
    · have hold : (b.lead && !a.lead) = false := by
        rcases h with h | h
        · rw [h]; rfl
        · rw [h]; exact Bool.and_false _
      rw [hold]
      exact ⟨rfl, rfl, rfl, rfl⟩
  case refine_2 =>
    refine ⟨fun e he => exec_reducePacketArrive_joins hb ha ho he, fun hn hroom hwin => ?_, fun hn hfull => ?_, fun i e he hover => ?_⟩
    · exact ⟨_, exec_reducePacketArrive_held hb ha ho hn hroom hwin, rfl, by rw [State.router_modRouter]; rfl⟩
    · exact ⟨_, exec_reducePacketArrive_sent hb ha ho hn hfull, rfl⟩
    · refine ⟨_, exec_combiningWindowExpiry he hover, rfl, ?_⟩
      rw [State.router_send, State.router_modRouter]
  case refine_3 =>
    refine ⟨fun he => ?_, fun k he => ⟨gives_reductionTimeout hb he hw, exec_reductionTimeout_stays hb he⟩⟩
    by_cases hbad : m.nc < m.carried ∨ (m.carried = m.nc ∧ m.lead = false)
    · obtain ⟨t, hexec, ht⟩ := gives_reductionPartArrive_discarded hb he hw hbad
      refine ⟨t, hexec, fun h => absurd hbad (by omega), fun hc hl => absurd hbad ?_, fun _ => ht⟩
      rw [hl, hc]
      simp
    by_cases hlt : m.carried < m.nc
    · refine ⟨_, exec_reductionPartArrive_waits hb he hw hlt, fun _ => ⟨rfl, ?_, rfl⟩, fun hc => absurd hc hlt.ne, fun h => absurd h hbad⟩
      rw [State.router_takesEntry he]
    by_cases hgo : m.lead = true ∧ s.isAway node = false ∧ node.val < 5000
    · obtain ⟨hl, haway, hn⟩ := hgo
      obtain ⟨t, hexec, ht⟩ := gives_reductionPartArrive_delivered hb he hw (by omega) hl haway hn
      exact ⟨t, hexec, fun h => absurd h hlt, fun _ _ _ _ => ht, fun h => absurd h hbad⟩
    · exact ⟨_, exec_reductionPartArrive hb he, fun h => absurd h hlt, fun _ hl haway hn => absurd ⟨hl, haway, hn⟩ hgo, fun h => absurd h hbad⟩

end Sys2Proof.Machine
end

section
/-! Memory requests and the order of a channel (07 R212; 10 R314). -/

namespace Sys2Proof.Machine

/-- A packet that is no MEMREQ leaves the mesh, whether or not an earlier one of its channel is still under way. -/
theorem exec_memreqReceive_other {p : Packet} (h : ∀ m, p.body ≠ .memreq m) (node : NodeId) (s : State) :
    exec (.memreqReceive node p) s = .next (s.take p) := by
  change execMemreqReceive node p s = _
  unfold execMemreqReceive
  split
  case h_1 m hb => exact absurd hb (h m)
  case h_2 => rfl

/-- Refutes O49: its first clause is said of every packet, and MEMREQ_RECEIVE looks at the order of the channel (R212) only for a MEMREQ.
A MGMT packet from stand 0 to endpoint 5000 is taken out of the mesh although a MEMREQ of its channel was sent before it. -/
theorem not_memoryRequests : ¬ Obligations.MemoryRequests := by
  unfold Obligations.MemoryRequests
  rintro ⟨hchannel, -⟩
  let read : MemReq := { op := 0, tierB := false, lock := false, tag := 0, wm1 := 0, waddr := 0, data := [], whdr := none }
  let first : Packet := { src := 0, dst := 5000, dincv := false, sinc := 1, dinc := 0, body := .memreq read }
  let second : Packet := { first with body := .mgmt 0 [] }
  let s : State := { mesh := [first, second] }
  have hbehind : s.inOrder second = false := by decide
  have hstays : exec (.memreqReceive 5000 second) s = .next s := (hchannel s 5000 second hbehind).1
  have hother : ∀ m, second.body ≠ .memreq m := by intro m h; cases h
  rw [exec_memreqReceive_other hother] at hstays
  have hmesh : (s.take second).mesh = s.mesh := congrArg State.mesh (Host.Outcome.next.inj hstays)
  exact absurd hmesh (by decide)

end Sys2Proof.Machine
end

section
/-! The clock: nothing that happens at a boundary but the opening of the beat, the end of a WARM reset, a new binary and the slip
touches the module's time or its power state (07 R196, R200; 12 R426). One rule per operation, in the order of the model. -/

namespace Sys2Proof.Machine

/-- The module's time, and its power state with all that goes with it. -/
def State.clock (s : State) : Time × Power := (s.time, s.power)
theorem State.time_of_clock {s t : State} (h : t.clock = s.clock) : t.time = s.time := congrArg Prod.fst h
theorem State.power_of_clock {s t : State} (h : t.clock = s.clock) : t.power = s.power := congrArg Prod.snd h

/-- An update of any other fields. The proof is no `rfl`: as a definitional step of `simp` this would make the kernel run the folds. -/
@[simp] theorem State.clock_upd (s : State) {pending' outbox' freeCtr' settings' octets' counters' cores' stands' nodes' mesh' routers'
    links' seams' phases' serving' weights' binary' mem' grove' rel' sense' host'} :
    State.clock ⟨pending', outbox', freeCtr', settings', octets', counters', s.time, cores', stands', nodes', mesh', routers',
      links', seams', phases', serving', weights', binary', mem', grove', rel', sense', s.power, host'⟩ = s.clock := by
  cases s
  rfl
@[simp] theorem State.clock_ite (c : Prop) [Decidable c] (a b : State) : (if c then a else b).clock = if c then a.clock else b.clock :=
  apply_ite State.clock c a b
@[simp] theorem foldl_clock {α : Type} {f : State → α → State} (h : ∀ s a, (f s a).clock = s.clock) (l : List α) (s : State) :
    (l.foldl f s).clock = s.clock := by
  induction l generalizing s with
  | nil => rfl
  | cons a l ih => rw [List.foldl_cons, ih, h]
theorem foldl_clock_fst {α β : Type} {f : State × β → α → State × β} (h : ∀ q a, (f q a).1.clock = q.1.clock) (l : List α)
    (q : State × β) : (l.foldl f q).1.clock = q.1.clock := by
  induction l generalizing q with
  | nil => rfl
  | cons a l ih => rw [List.foldl_cons, ih, h]

/-! Interrupts, counters and error records. -/
@[simp] theorem State.due_clock (s : State) (v : Nat) : (s.due v).clock = s.clock := by simp [State.due]
@[simp] theorem State.modServing_clock (s : State) (f : Serving → Serving) : (s.modServing f).clock = s.clock := by
  simp [State.modServing]
@[simp] theorem State.serveDrain_clock (s : State) : s.serveDrain.clock = s.clock := by simp [State.serveDrain]
@[simp] theorem State.faultDrain_clock (s : State) : s.faultDrain.clock = s.clock := by simp [State.faultDrain]
@[simp] theorem State.count_clock (s : State) (k n : Nat) : (s.count k n).clock = s.clock := by simp [State.count]
@[simp] theorem State.log_clock (s : State) (r : ErrRec) : (s.log r).clock = s.clock := by simp [State.log]
@[simp] theorem State.record_clock (s : State) (cls sev : Nat) (detail : List Byte) (unit sub opcode : Nat) :
    (s.record cls sev detail unit sub opcode).clock = s.clock := by simp [State.record]
@[simp] theorem State.resetRecord_clock (s : State) : s.resetRecord.clock = s.clock := by simp [State.resetRecord]

/-! The tiers, stands and arrays. -/
@[simp] theorem State.modWeights_clock (s : State) (f : Weights → Weights) : (s.modWeights f).clock = s.clock := by
  simp [State.modWeights]
@[simp] theorem State.freshBurst_clock (s : State) (b : Bool) (burst : Nat) : (s.freshBurst b burst).clock = s.clock := by
  simp [State.freshBurst]
@[simp] theorem State.retirePch_clock (s : State) (p : Nat) : (s.retirePch p).clock = s.clock := by simp [State.retirePch]
@[simp] theorem State.burstNote_clock (s : State) (b : Bool) (a w : Nat) : (s.burstNote b a w).clock = s.clock := by
  simp [State.burstNote]
@[simp] theorem State.putTier_clock (s : State) (b : Bool) (a : Nat) (bs : List Byte) : (s.putTier b a bs).clock = s.clock := by
  simp [State.putTier]
@[simp] theorem State.putSlotHdr_clock (s : State) (n : Nat) (a : ASlot) : (s.putSlotHdr n a).clock = s.clock := by
  simp [State.putSlotHdr]
@[simp] theorem State.faultStop_clock (s : State) (cls : Nat) : (s.faultStop cls).clock = s.clock := by simp [State.faultStop]
@[simp] theorem State.ownerUe_clock (s : State) (b : Bool) (a : Nat) : (s.ownerUe b a).clock = s.clock := by simp [State.ownerUe]
@[simp] theorem State.setStand_clock (s : State) (st : Nat) (v : Stand) : (s.setStand st v).clock = s.clock := by simp [State.setStand]
@[simp] theorem State.modStand_clock (s : State) (st : Nat) (f : Stand → Stand) : (s.modStand st f).clock = s.clock := by
  simp [State.modStand]
@[simp] theorem State.vacate_clock (s : State) (st p : Nat) : (s.vacate st p).clock = s.clock := by simp [State.vacate]
@[simp] theorem State.quarantine_clock (s : State) (st cause : Nat) : (s.quarantine st cause).clock = s.clock := by
  simp [State.quarantine]
@[simp] theorem State.burstRead_clock (s : State) (b : Bool) (node k : Nat) (bound : Bool) :
    (s.burstRead b node k bound).clock = s.clock := by simp [State.burstRead]
@[simp] theorem State.tierAsk_clock (s : State) (b : Bool) (a n node : Nat) : (s.tierAsk b a n node).clock = s.clock := by
  simp [State.tierAsk]
@[simp] theorem State.tierWrite_clock (s : State) (b : Bool) (a : Nat) (bs : List Byte) (node : Nat) :
    (s.tierWrite b a bs node).clock = s.clock := by simp [State.tierWrite]
@[simp] theorem State.putMaster_clock (s : State) (b : Bool) (st : Nat) (hdr : List Byte) (rows : Nat → Nat → BitVec 256) :
    (s.putMaster b st hdr rows).clock = s.clock := by simp [State.putMaster]
@[simp] theorem State.rebuildShard_clock (s : State) (b : Bool) (st : Nat) : (s.rebuildShard b st).clock = s.clock := by
  simp [State.rebuildShard]
@[simp] theorem State.repairMaster_clock (s : State) : s.repairMaster.clock = s.clock := by simp [State.repairMaster]
@[simp] theorem State.adapterBoundary_clock (s : State) : s.adapterBoundary.clock = s.clock := by simp [State.adapterBoundary]
@[simp] theorem State.modCore_clock (s : State) (st c : Nat) (f : Core → Core) : (s.modCore st c f).clock = s.clock := by
  simp [State.modCore]

/-! Weight shards and banks. -/
@[simp] theorem State.settleShard_clock (s : State) (b : Bool) (st : Nat) (v : BankState) : (s.settleShard b st v).clock = s.clock := by
  simp [State.settleShard]
@[simp] theorem State.modShard_clock (s : State) (b : Bool) (st : Nat) (f : Shard → Shard) : (s.modShard b st f).clock = s.clock := by
  simp [State.modShard]
@[simp] theorem State.unplaceable_clock (s : State) (b : Bool) (st c : Nat) : (s.unplaceable b st c).clock = s.clock := by
  simp [State.unplaceable]
@[simp] theorem State.endPair_clock (s : State) (b : Bool) (st p : Nat) : (s.endPair b st p).clock = s.clock := by simp [State.endPair]
@[simp] theorem State.beginWrite_clock (s : State) (q : Bool × Nat × Nat) : (s.beginWrite q).clock = s.clock := by simp [State.beginWrite]
@[simp] theorem State.pumpWrites_clock (s : State) : s.pumpWrites.clock = s.clock := by simp [State.pumpWrites]
@[simp] theorem State.weightResult_clock (s : State) (op code : Nat) : (s.weightResult op code).clock = s.clock := by
  simp [State.weightResult]
@[simp] theorem State.allCores_clock (s : State) (f : Core → Core) : (s.allCores f).clock = s.clock := by simp [State.allCores]
@[simp] theorem State.emptyArea_clock (s : State) (b : Bool) : (s.emptyArea b).clock = s.clock := by simp [State.emptyArea]
@[simp] theorem State.setVersion_clock (s : State) (b : Bool) (v : Version) : (s.setVersion b v).clock = s.clock := by
  simp [State.setVersion]
@[simp] theorem State.mapCores_clock (s : State) (f : Nat → Core → Core) : (s.mapCores f).clock = s.clock := by simp [State.mapCores]
@[simp] theorem State.bankSt_clock (s : State) (b : Bool) (p : BankState → Bool) (v : BankState) : (s.bankSt b p v).clock = s.clock := by
  simp [State.bankSt]
@[simp] theorem State.emptyBank_clock (s : State) (b : Bool) (h : Shard) (v : Version) : (s.emptyBank b h v).clock = s.clock := by
  simp [State.emptyBank]

/-! Frames to peers. -/
@[simp] theorem State.modPath_clock (s : State) (port peer : Nat) (f : Path → Path) : (s.modPath port peer f).clock = s.clock := by
  simp [State.modPath]
@[simp] theorem State.emit_clock (s : State) (o : Output) : (s.emit o).clock = s.clock := by simp [State.emit]
@[simp] theorem State.emitFrame_clock (s : State) (p peer : Nat) (f : Frame) : (s.emitFrame p peer f).clock = s.clock := by
  simp [State.emitFrame]
@[simp] theorem State.pumpPath_clock (port peer k : Nat) (s : State) : (State.pumpPath port peer k s).clock = s.clock := by
  induction k generalizing s with
  | zero => rfl
  | succ k ih =>
    simp only [State.pumpPath]
    repeat' split
    all_goals simp [ih]
@[simp] theorem State.pathSend_clock (s : State) (port peer : Nat) (f : Frame) : (s.pathSend port peer f).clock = s.clock := by
  simp [State.pathSend]
@[simp] theorem State.askPeer_clock (s : State) : s.askPeer.clock = s.clock := by simp [State.askPeer]

/-! Weight commands. -/
@[simp] theorem State.stage_clock (s : State) (cap peer : Bool) (place epoch : Nat) (layoutId : DWord) :
    (s.stage cap peer place epoch layoutId).clock = s.clock := by simp [State.stage]
@[simp] theorem State.cancelStage_clock (s : State) : s.cancelStage.clock = s.clock := by simp [State.cancelStage]
@[simp] theorem State.requestAgain_clock (s : State) : s.requestAgain.clock = s.clock := by simp [State.requestAgain]
@[simp] theorem State.arm_clock (s : State) (nmod epoch grace : Nat) : (s.arm nmod epoch grace).clock = s.clock := by simp [State.arm]

/-! Flag channels, credit and frames that cannot arrive. -/
@[simp] theorem State.modChan_clock (s : State) (c : Nat) (f : FlagChan → FlagChan) : (s.modChan c f).clock = s.clock := by
  simp [State.modChan]
@[simp] theorem State.modEndpoint_clock (s : State) (n : Nat) (f : Endpoint → Endpoint) : (s.modEndpoint n f).clock = s.clock := by
  simp [State.modEndpoint]
@[simp] theorem State.settle_clock (s : State) (n : Nat) : (s.settle n).clock = s.clock := by simp [State.settle]
@[simp] theorem State.send_clock (s : State) (p : Packet) : (s.send p).clock = s.clock := by simp [State.send]
@[simp] theorem State.sendGrant_clock (s : State) (n dst dinc window status gen mask tag : Nat) :
    (s.sendGrant n dst dinc window status gen mask tag).clock = s.clock := by simp [State.sendGrant]
@[simp] theorem State.modCredit_clock (s : State) (n : Nat) (f : CreditUnit → CreditUnit) : (s.modCredit n f).clock = s.clock := by
  simp [State.modCredit]
@[simp] theorem State.grant_clock (s : State) (n : Nat) (q : CreditReq) (rows : List Nat) : (s.grant n q rows).clock = s.clock := by
  simp [State.grant]
@[simp] theorem State.serveGo_clock (n : Nat) (qs : List CreditReq) (bl : List Nat) (s : State) :
    (State.serveGo n qs bl s).clock = s.clock := by
  induction qs generalizing bl s with
  | nil => rfl
  | cons q qs ih =>
    simp only [State.serveGo]
    repeat' split
    all_goals simp [ih]
@[simp] theorem State.serveQueue_clock (s : State) (n : Nat) : (s.serveQueue n).clock = s.clock := by simp [State.serveQueue]
@[simp] theorem State.freeRows_clock (s : State) (node slot : Nat) (rows : List Nat) : (s.freeRows node slot rows).clock = s.clock := by
  simp [State.freeRows]
@[simp] theorem State.frameGone_clock (s : State) (f : Frame) : (s.frameGone f).clock = s.clock := by
  simp only [State.frameGone]
  repeat' split
  all_goals simp
@[simp] theorem State.unreachable_clock (s : State) (f : Frame) : (s.unreachable f).clock = s.clock := by simp [State.unreachable]
@[simp] theorem State.route_clock (s : State) (port : Nat) (f : Frame) : (s.route port f).clock = s.clock := by
  unfold State.route
  repeat' split
  all_goals simp
@[simp] theorem State.sendBarrier_clock (s : State) (c q op dplace : Nat) : (s.sendBarrier c q op dplace).clock = s.clock := by
  simp [State.sendBarrier]
@[simp] theorem State.withdrawArrival_clock (s : State) : s.withdrawArrival.clock = s.clock := by simp [State.withdrawArrival]

/-! The rest of the weight commands. -/
@[simp] theorem State.disarm_clock (s : State) : s.disarm.clock = s.clock := by simp [State.disarm]
@[simp] theorem State.activate_clock (s : State) (epoch : Nat) : (s.activate epoch).clock = s.clock := by simp [State.activate]
@[simp] theorem State.scrubNow_clock (s : State) : s.scrubNow.clock = s.clock := by simp [State.scrubNow]
@[simp] theorem State.weightCmd_clock (s : State) (b : List Byte) : (s.weightCmd b).clock = s.clock := by simp [State.weightCmd]
@[simp] theorem State.weightBoundary_clock (s : State) : s.weightBoundary.clock = s.clock := by simp [State.weightBoundary]

/-! Barrier phases and the epoch switch. -/
@[simp] theorem State.applyComplete_clock (s : State) (c q : Nat) : (s.applyComplete c q).clock = s.clock := by simp [State.applyComplete]
@[simp] theorem State.rootArrive_clock (s : State) (c q place : Nat) : (s.rootArrive c q place).clock = s.clock := by
  simp [State.rootArrive]
@[simp] theorem State.flagArrive_clock (s : State) (c q : Nat) : (s.flagArrive c q).clock = s.clock := by simp [State.flagArrive]
@[simp] theorem State.retireArrive_clock (s : State) : s.retireArrive.clock = s.clock := by simp [State.retireArrive]
@[simp] theorem State.switchArrive_clock (s : State) : s.switchArrive.clock = s.clock := by simp [State.switchArrive]
@[simp] theorem State.switchPointer_clock (s : State) : s.switchPointer.clock = s.clock := by simp [State.switchPointer]

/-! Requests and records of the serving unit. -/
@[simp] theorem State.tierRead_clock (s : State) (b : Bool) (a n node : Nat) : (s.tierRead b a n node).2.clock = s.clock := by
  simp [State.tierRead]
@[simp] theorem State.engineRead_clock (s : State) (b : Bool) (a n : Nat) : (s.engineRead b a n).clock = s.clock := by
  simp [State.engineRead]
@[simp] theorem State.adapterRef_clock (s : State) (slot : Nat) (up : Bool) : (s.adapterRef slot up).clock = s.clock := by
  simp [State.adapterRef]
@[simp] theorem State.putReq_clock (s : State) (k : Nat) (r : Option Req) : (s.putReq k r).clock = s.clock := by simp [State.putReq]
@[simp] theorem State.endReq_clock (s : State) (k : Nat) (r : Req) (status : Nat) : (s.endReq k r status).clock = s.clock := by
  unfold State.endReq
  split <;> simp
@[simp] theorem State.countRec_clock (s : State) (r : Rec) : (s.countRec r).clock = s.clock := by simp [State.countRec]
@[simp] theorem State.putRec_clock (s : State) (r : Rec) : (s.putRec r).clock = s.clock := by simp [State.putRec]
@[simp] theorem State.emitRec_clock (s : State) (r : Rec) : (s.emitRec r).clock = s.clock := by simp [State.emitRec]
@[simp] theorem State.failReq_clock (s : State) (k : Nat) (r : Req) (status reason : Nat) :
    (s.failReq k r status reason).clock = s.clock := by simp [State.failReq]

/-! The end of an epoch switch. -/
@[simp] theorem State.setBank_clock (s : State) (slot : Nat) (r : Req) (b : Bool) : (s.setBank slot r b).1.clock = s.clock := by
  unfold State.setBank
  split <;> simp
@[simp] theorem State.retireComplete_clock (s : State) : s.retireComplete.clock = s.clock := by
  simp only [State.retireComplete]
  split
  · simp only [State.count_clock, State.modWeights_clock, State.bankSt_clock]
    refine foldl_clock (fun s e => ?_) _ _
    split
    · split <;> simp
    · split <;> simp
  · rfl
@[simp] theorem State.switchComplete_clock (s : State) : s.switchComplete.clock = s.clock := by simp [State.switchComplete]
@[simp] theorem State.epochBoundary_clock (s : State) : s.epochBoundary.clock = s.clock := by simp [State.epochBoundary]

/-! The serving unit at a boundary. -/
@[simp] theorem State.emptyBatch_clock (s : State) : s.emptyBatch.clock = s.clock := by simp [State.emptyBatch]
@[simp] theorem State.servStopped_clock (s : State) : s.servStopped.clock = s.clock := by simp [State.servStopped]
@[simp] theorem State.servStop_clock (s : State) : s.servStop.clock = s.clock := by simp [State.servStop]
@[simp] theorem State.readChead_clock (s : State) : s.readChead.clock = s.clock := by simp [State.readChead]
@[simp] theorem State.flushHeld_clock (f : Nat) (s : State) : (State.flushHeld f s).clock = s.clock := by
  induction f generalizing s with
  | zero => rfl
  | succ k ih =>
    simp only [State.flushHeld]
    repeat' split
    all_goals simp [ih]
@[simp] theorem State.failFaults_clock (s : State) : s.failFaults.clock = s.clock := by simp [State.failFaults]
@[simp] theorem State.modNode_clock (s : State) (n : Nat) (f : NodeInfo → NodeInfo) : (s.modNode n f).clock = s.clock := by
  simp [State.modNode]
@[simp] theorem State.suspendAll_clock (s : State) : s.suspendAll.clock = s.clock := by
  unfold State.suspendAll
  split
  · rfl
  · refine (foldl_clock (fun s e => ?_) _ _).trans (by simp)
    split <;> simp
@[simp] theorem State.commitToks_clock (s : State) (k : Nat) (r : Req) (a pos : Nat) (toks : List Word) :
    (s.commitToks k r a pos toks).clock = s.clock := by simp [State.commitToks]
@[simp] theorem State.takeReturn_clock (s : State) (e : ReturnEntry) : (s.takeReturn e).clock = s.clock := by
  unfold State.takeReturn
  repeat' split
  all_goals simp
@[simp] theorem State.suspTimeout_clock (s : State) (k : Nat) : (s.suspTimeout k).clock = s.clock := by
  unfold State.suspTimeout
  repeat' split
  all_goals simp
@[simp] theorem State.loseWork_clock (s : State) (k : Nat) (r : Req) (f : Flight) : (s.loseWork k r f).clock = s.clock := by
  simp [State.loseWork]
@[simp] theorem State.stepTimeout_clock (s : State) (k : Nat) : (s.stepTimeout k).clock = s.clock := by
  unfold State.stepTimeout
  repeat' split
  all_goals simp
@[simp] theorem State.servCommit_clock (s : State) (rs : List ReturnEntry) : (s.servCommit rs).clock = s.clock := by
  simp [State.servCommit]
@[simp] theorem State.refuseDeferred_clock (s : State) (r : Deferred) (status reason aux1 : Nat) :
    (s.refuseDeferred r status reason aux1).clock = s.clock := by simp [State.refuseDeferred]
@[simp] theorem State.admitOne_clock (s : State) (r : Deferred) : (s.admitOne r).clock = s.clock := by
  simp only [State.admitOne]
  split <;> simp
@[simp] theorem State.admitGo_clock (l : List Deferred) (s : State) : (State.admitGo l s).clock = s.clock := by
  induction l generalizing s with
  | nil => rfl
  | cons r l ih =>
    simp only [State.admitGo]
    repeat' split
    all_goals simp [ih]
@[simp] theorem State.defer_clock (s : State) (r : Deferred) (p e : Nat) : (s.defer r p e).clock = s.clock := by simp [State.defer]
@[simp] theorem State.deferGo_clock (l : List Deferred) (s : State) : (State.deferGo l s).clock = s.clock := by
  induction l generalizing s with
  | nil => rfl
  | cons r l ih =>
    simp only [State.deferGo]
    repeat' split
    all_goals simp [ih]
@[simp] theorem State.servAdmit_clock (s : State) : s.servAdmit.clock = s.clock := by simp [State.servAdmit]
@[simp] theorem State.readDesc_clock (s : State) : s.readDesc.clock = s.clock := by simp [State.readDesc]
theorem State.consume_clock {s t : State} {q : State × Option Rec} (h : s.consume q = some t) : t.clock = q.1.clock := by
  obtain ⟨u, r⟩ := q
  cases r with
  | none =>
    cases h
    simp
  | some r =>
    simp only [State.consume] at h
    split at h
    · cases h
      simp
    · cases h
@[simp] theorem State.submit_clock (s : State) (b : List Byte) : (s.submit b).1.clock = s.clock := by
  simp only [State.submit]
  repeat' split
  all_goals simp
@[simp] theorem State.abortReq_clock (s : State) (k : Nat) (r : Req) : (s.abortReq k r).1.clock = s.clock := by simp [State.abortReq]
@[simp] theorem State.resume_clock (s : State) (k : Nat) (r : Req) (g : Bool) : (s.resume k r g).1.clock = s.clock := by
  unfold State.resume
  split <;> simp
@[simp] theorem State.abortLate_clock (s : State) (tag : Nat) (gk k : Nat) : (s.abortLate tag gk k).1.clock = s.clock := by
  simp [State.abortLate]
@[simp] theorem State.target_clock (s : State) (op : Nat) (b : List Byte) : (s.target op b).1.clock = s.clock := by
  simp only [State.target]
  repeat' split
  all_goals simp
@[simp] theorem State.actOn_clock (s : State) (b : List Byte) : (s.actOn b).1.clock = s.clock := by
  simp only [State.actOn]
  repeat' split
  all_goals simp
theorem State.sampleOne_clock {s t : State} (h : s.sampleOne = some t) : t.clock = s.clock := by
  simp only [State.sampleOne] at h
  split at h
  · cases h
  · split at h
    · simp [State.consume_clock h]
    · split at h
      · exact State.consume_clock h
      · cases h
@[simp] theorem State.sampleStop_clock (s : State) : s.sampleStop.clock = s.clock := by simp [State.sampleStop]
@[simp] theorem State.sampleGo_clock (f : Nat) (s : State) : (State.sampleGo f s).clock = s.clock := by
  induction f generalizing s with
  | zero => simp [State.sampleGo]
  | succ k ih =>
    simp only [State.sampleGo]
    split
    case h_1 t h => rw [ih, State.sampleOne_clock h, State.readDesc_clock]
    case h_2 => simp
@[simp] theorem State.servSample_clock (s : State) : s.servSample.clock = s.clock := by simp [State.servSample]
@[simp] theorem State.applyAnn_clock (s : State) (a : AnnEntry) : (s.applyAnn a).clock = s.clock := by
  simp only [State.applyAnn]
  repeat' split
  all_goals simp
@[simp] theorem State.servRates_clock (s : State) : s.servRates.clock = s.clock := by simp [State.servRates]
@[simp] theorem State.assignGroups_clock (s : State) (slot : Nat) (r : Req) (k : Nat) : (s.assignGroups slot r k).1.clock = s.clock := by
  unfold State.assignGroups
  refine foldl_clock_fst (fun q i => ?_) _ _
  split
  · rfl
  · dsimp only
    split <;> simp
@[simp] theorem State.noteEntry_clock (s : State) (bank : Bool) (e : Nat) : (s.noteEntry bank e).clock = s.clock := by
  simp [State.noteEntry]
@[simp] theorem State.allocGen_clock (bs e : Nat) (q : State × Nat) (c : Nat × Req) : (State.allocGen bs e q c).1.clock = q.1.clock := by
  simp only [State.allocGen]
  repeat' split
  all_goals simp
@[simp] theorem State.allocPre_clock (bs e : Nat) (q : State × Nat) (c : Nat × Req) : (State.allocPre bs e q c).1.clock = q.1.clock := by
  simp only [State.allocPre]
  repeat' split
  all_goals simp
@[simp] theorem State.voidRows_clock (s : State) (bs n : Nat) : (s.voidRows bs n).clock = s.clock := by simp [State.voidRows]
@[simp] theorem State.servAllocate_clock (s : State) : s.servAllocate.clock = s.clock := by
  simp only [State.servAllocate]
  split
  · rfl
  · rw [State.voidRows_clock, foldl_clock_fst (State.allocPre_clock _ _), foldl_clock_fst (State.allocGen_clock _ _)]
@[simp] theorem State.servPublish_clock (s : State) : s.servPublish.clock = s.clock := by simp [State.servPublish]
@[simp] theorem State.servEnd_clock (s : State) : s.servEnd.clock = s.clock := by simp [State.servEnd]
@[simp] theorem State.servAnnounce_clock (s : State) : s.servAnnounce.clock = s.clock := by simp [State.servAnnounce]
@[simp] theorem State.serveBoundary_clock (s : State) (returns : List ReturnEntry) (anns : List AnnEntry) :
    (s.serveBoundary returns anns).clock = s.clock := by simp [State.serveBoundary]

/-! Stands that reset, and relays. -/
@[simp] theorem State.leave_clock (s : State) (n cause : Nat) (away : Bool) : (s.leave n cause away).clock = s.clock := by
  simp [State.leave]
@[simp] theorem State.resetStand_clock (s : State) (st cause : Nat) (away : Bool) : (s.resetStand st cause away).clock = s.clock := by
  simp [State.resetStand]
@[simp] theorem State.applyRelay_clock (s : State) (p i : Nat) : (s.applyRelay p i).clock = s.clock := by simp [State.applyRelay]
@[simp] theorem State.applyRelays_clock (s : State) : s.applyRelays.clock = s.clock := by simp [State.applyRelays]

/-! Stands, arrays, converters and the memory's remaps. -/
@[simp] theorem State.fencedBanks_clock (s : State) (st : Nat) : (s.fencedBanks st).clock = s.clock := by simp [State.fencedBanks]
@[simp] theorem State.fenceMap_clock (s : State) (st : Nat) : (s.fenceMap st).clock = s.clock := by
  simp only [State.fenceMap]
  split <;> simp
@[simp] theorem State.rewriteAt_clock (s : State) (b : Bool) (st p : Nat) : (s.rewriteAt b st p).clock = s.clock := by
  simp [State.rewriteAt]
@[simp] theorem State.switchIn_clock (s : State) (st : Nat) (q : Coppice) : (s.switchIn st q).clock = s.clock := by simp [State.switchIn]
@[simp] theorem State.spareWrite_clock (s : State) (st : Nat) (bs : List Bool) : (s.spareWrite st bs).clock = s.clock := by
  simp [State.spareWrite]
@[simp] theorem State.coppiceBoundary_clock (s : State) (st : Nat) : (s.coppiceBoundary st).clock = s.clock := by
  unfold State.coppiceBoundary
  split <;> simp
@[simp] theorem State.rowDegraded_clock (s : State) (st b r : Nat) : (s.rowDegraded st b r).clock = s.clock := by simp [State.rowDegraded]
@[simp] theorem State.rowsBoundary_clock (s : State) (st : Nat) : (s.rowsBoundary st).clock = s.clock := by simp [State.rowsBoundary]
@[simp] theorem State.standBoundary_clock (s : State) (st : Nat) : (s.standBoundary st).clock = s.clock := by simp [State.standBoundary]
@[simp] theorem State.remapBoundary_clock (s : State) : s.remapBoundary.clock = s.clock := by simp [State.remapBoundary]
@[simp] theorem State.seamBoundary_clock (s : State) : s.seamBoundary.clock = s.clock := by simp [State.seamBoundary]
@[simp] theorem State.adcBoundary_clock (s : State) : s.adcBoundary.clock = s.clock := by simp [State.adcBoundary]
@[simp] theorem State.arraysBoundary_clock (s : State) : s.arraysBoundary.clock = s.clock := by simp [State.arraysBoundary]

end Sys2Proof.Machine
end

section
/-! The beat boundary and the launch (07 R196 to R200; 06 R180; 12 R373, R426). -/

namespace Sys2Proof.Machine

/-! What of the time every operation of a boundary keeps but the opening of the beat. -/

/-- The running beat, its start, the tick and the power state: the clock without the beat's length, its slip and what is due. -/
def State.beats (s : State) : Nat × Nat × Nat × Power := (s.time.beat, s.time.start, s.time.tick, s.power)
theorem State.beats_of_clock {s t : State} (h : t.clock = s.clock) : t.beats = s.beats := by
  unfold State.beats
  rw [State.time_of_clock h, State.power_of_clock h]

/-- The second half of a binary's activation, once the stands are reset (R192, R198). -/
def State.takeBinary (s : State) (b : List Byte) : State :=
  let len := if s.power.debug = 1 then field b 18 2 else field b 16 2
  let s := { s with binary := { s.binary with current := some b, fresh := true, b0 := s.time.beat + 1 },
                    time := { s.time with len := len }, phases := [],
                    grove := { s.grove with chans := [] } }
  ({ s with stands := Tab.mapVals {} (fun _ x => { x with arrivals := [], arrived := [] }) s.stands } : State).applyRelays
theorem State.makeCurrent_eq (s : State) (b : List Byte) :
    s.makeCurrent b = (allStands.foldl (fun s st => s.resetStand st (s.node st).cause false) s).takeBinary b := rfl
/-- Of the time a new binary changes the beat length only. -/
theorem State.takeBinary_beats (s : State) (b : List Byte) : (s.takeBinary b).beats = s.beats := by
  unfold State.takeBinary
  exact (State.beats_of_clock (State.applyRelays_clock _)).trans rfl
theorem State.makeCurrent_beats (s : State) (b : List Byte) : (s.makeCurrent b).beats = s.beats := by
  rw [State.makeCurrent_eq, State.takeBinary_beats]
  exact State.beats_of_clock (foldl_clock (fun s st => State.resetStand_clock s st _ false) _ _)
theorem State.binaryBoundary_beats (s : State) : s.binaryBoundary.beats = s.beats := by
  unfold State.binaryBoundary
  split
  · split
    · exact State.makeCurrent_beats _ _
    · rfl
  · rfl

/-- A boundary takes the slip and the origin without touching the beat, its start or the tick (R199, R200). -/
theorem State.takeSlip_beats (s : State) : s.takeSlip.beats = s.beats := by
  unfold State.takeSlip
  extract_lets t t' slip event u n v
  have hu : u.beats = s.beats := by
    change (t'.beat, t'.start, t'.tick, s.power) = s.beats
    unfold t'
    split <;> rfl
  have hv : v.clock = u.clock := by simp [v]
  rw [← hu, ← State.beats_of_clock hv]
  exact State.beats_of_clock (by simp)

/-! The opening of the beat and the end of a WARM reset. -/

/-- What `State.openBeat` counts when the beat ran over its target end. -/
def State.countLate (s : State) (late : Nat) : State := if late = 0 then s else (s.count 0x520001).count 0x520003 late
theorem State.countLate_clock (s : State) (late : Nat) : (s.countLate late).clock = s.clock := by simp [State.countLate]

/-- The new beat starts at the boundary tick (R196, log 42). -/
theorem State.openBeat_beats (s : State) : s.openBeat.beats =
    ((s.time.beat + 1) % 2 ^ 48, s.time.boundaryTick, s.time.boundaryTick, s.power) := by
  let d := s.time.boundaryTick - s.time.tick
  let u := s.advance d
  have hu : s.passes u d := s.passes_advance d
  have hc : (u.countLate (u.time.tick - s.time.target)).clock = u.clock := State.countLate_clock u _
  have htime : (u.countLate (u.time.tick - s.time.target)).time = { s.time with tick := s.time.tick + d } :=
    (State.time_of_clock hc).trans hu.time
  have hpower : (u.countLate (u.time.tick - s.time.target)).power = s.power := by rw [State.power_of_clock hc, hu.frame]
  have htick : s.time.tick + d = s.time.boundaryTick := Nat.add_sub_cancel' (Nat.le_max_left _ _)
  generalize hw : u.countLate (u.time.tick - s.time.target) = w at htime hpower
  have hopen : s.openBeat = { w with time := { w.time with beat := (w.time.beat + 1) % 2 ^ 48, start := w.time.tick } } := by
    rw [← hw]
    rfl
  rw [hopen]
  change ((w.time.beat + 1) % 2 ^ 48, w.time.tick, w.time.tick, w.power) = _
  rw [htime, hpower, ← htick]

/-- A boundary leaves the module RUNNING when it was RUNNING or in a WARM reset (R426). -/
theorem State.warmEnd_beats (s : State) (h : s.power.state = 3 ∨ s.power.state = 4) :
    s.warmEnd.beats = (s.time.beat, s.time.start, s.time.tick, { s.power with state := 3 }) := by
  unfold State.warmEnd
  split
  · exact State.beats_of_clock (s := { s with power := { s.power with state := 3 } }) (by simp)
  · next hnot =>
    have hstate : s.power.state = 3 := h.resolve_right hnot
    rw [← hstate]
    rfl

/-! What a boundary does once the beat is open, and what it sends. -/

/-- The effects of a boundary between the end of a WARM reset and the decision on the launch. -/
def State.boundaryWork (s : State) (returns : List ReturnEntry) (anns : List AnnEntry) : State :=
  let s := s.faultDrain.serveBoundary returns anns
  let s := ({ s with binary := { s.binary with fresh := false } } : State).binaryBoundary
  let s := if s.binary.fresh then { s with time := { s.time with originDue := true } } else s
  let s := s.takeSlip
  let s := s.boundaryStands.foldl State.standBoundary s
  s.arraysBoundary.adcBoundary.seamBoundary.remapBoundary
/-- The end of a boundary: a soft stop takes effect, and the launch is decided (R198, R184). -/
def State.decideLaunch (s : State) : State :=
  let s := { s with sense := { s.sense with stopBoundary := if s.sense.stop = 2 ∧ s.sense.stopBoundary = none then some s.time.tick
    else s.sense.stopBoundary } }
  { s with time := { s.time with launchDue := s.mayLaunch, frozen := s.time.hazardStop } }
theorem State.boundary_eq (s : State) (returns : List ReturnEntry) (anns : List AnnEntry) :
    s.boundary returns anns = (s.openBeat.warmEnd.boundaryWork returns anns).decideLaunch.sendDue := rfl

theorem State.standBoundaries_clock (s : State) : (s.boundaryStands.foldl State.standBoundary s).clock = s.clock :=
  foldl_clock State.standBoundary_clock _ _
theorem State.boundaryWork_beats (s : State) (returns : List ReturnEntry) (anns : List AnnEntry) :
    (s.boundaryWork returns anns).beats = s.beats := by
  unfold State.boundaryWork
  extract_lets u b v t w x y
  calc State.beats _ = y.beats := State.beats_of_clock (by simp)
    _ = x.beats := State.beats_of_clock x.standBoundaries_clock
    _ = w.beats := w.takeSlip_beats
    _ = v.beats := by
      unfold w
      split <;> rfl
    _ = u.beats := State.binaryBoundary_beats _
    _ = s.beats := State.beats_of_clock (by simp [u])
theorem State.decideLaunch_beats (s : State) : s.decideLaunch.beats = s.beats := rfl
/-- A launch is due only with no stop, hazard stop, resume wait or fresh binary (R198, log 100). -/
theorem State.mayLaunch_of_decideLaunch {s : State} (h : s.decideLaunch.time.launchDue = true) :
    s.decideLaunch.sense.stop = 0 ∧ s.decideLaunch.time.hazardStop = false ∧ s.decideLaunch.time.resumeWait = false ∧
      s.decideLaunch.binary.fresh = false := by
  have hmay : s.mayLaunch = true := h
  simp only [State.mayLaunch, Bool.and_eq_true, decide_eq_true_eq, Bool.not_eq_true'] at hmay
  obtain ⟨⟨⟨hstop, hhazard⟩, hresume⟩, hfresh⟩ := hmay
  exact ⟨hstop, hhazard, hresume, hfresh⟩

/-- What the sending of vectors leaves as it was; no vector becomes due. -/
structure State.sends (s t : State) : Prop where
  clock : t.clock = s.clock
  sense : t.sense = s.sense
  binary : t.binary = s.binary
  due : t.host.msixDue = s.host.msixDue

theorem State.sends_sendVector (s : State) (v : Nat) : s.sends (s.sendVector v) := by
  unfold State.sendVector
  dsimp only
  split <;> exact ⟨rfl, rfl, rfl, rfl⟩
theorem State.sends_sendVectors : ∀ (l : List Nat) (s : State), s.sends (l.foldl State.sendVector s)
  | [], s => ⟨rfl, rfl, rfl, rfl⟩
  | v :: l, s => by
    have hv := s.sends_sendVector v
    have hl := State.sends_sendVectors l (s.sendVector v)
    exact ⟨hl.clock.trans hv.clock, hl.sense.trans hv.sense, hl.binary.trans hv.binary, hl.due.trans hv.due⟩
theorem State.sendDue_clock (s : State) : s.sendDue.clock = s.clock := (State.sends_sendVectors _ _).clock
theorem State.sendDue_sense (s : State) : s.sendDue.sense = s.sense := (State.sends_sendVectors _ _).sense
theorem State.sendDue_binary (s : State) : s.sendDue.binary = s.binary := (State.sends_sendVectors _ _).binary
/-- Every due vector leaves (R196). -/
theorem State.sendDue_msixDue (s : State) : s.sendDue.host.msixDue = 0 := (State.sends_sendVectors _ _).due

/-- The beat, its start and the tick after a boundary, and the power state (R196, R200, R426). -/
theorem State.boundary_beats {s : State} (h : s.canOpen = true) (returns : List ReturnEntry) (anns : List AnnEntry) :
    (s.boundary returns anns).beats =
      ((s.time.beat + 1) % 2 ^ 48, s.time.boundaryTick, s.time.boundaryTick, { s.power with state := 3 }) := by
  have hstate : s.power.state = 3 ∨ s.power.state = 4 := by
    simp only [State.canOpen, Bool.and_eq_true, decide_eq_true_eq] at h
    exact h.1.1.1
  have hopen := s.openBeat_beats
  simp only [State.beats, Prod.mk.injEq] at hopen
  obtain ⟨hbeat, hstart, htick, hpower⟩ := hopen
  calc (s.boundary returns anns).beats = (s.openBeat.warmEnd.boundaryWork returns anns).decideLaunch.beats := by
        rw [State.boundary_eq]
        exact State.beats_of_clock (State.sendDue_clock _)
    _ = s.openBeat.warmEnd.beats := by rw [State.decideLaunch_beats, State.boundaryWork_beats]
    _ = _ := by rw [State.warmEnd_beats _ (by rwa [hpower]), hbeat, hstart, htick, hpower]
/-- After a boundary a launch is due only with no stop, hazard stop, resume wait or fresh binary (R198, log 100). -/
theorem State.boundary_launchDue {s : State} {returns : List ReturnEntry} {anns : List AnnEntry}
    (h : (s.boundary returns anns).time.launchDue = true) :
    (s.boundary returns anns).sense.stop = 0 ∧ (s.boundary returns anns).time.hazardStop = false ∧
      (s.boundary returns anns).time.resumeWait = false ∧ (s.boundary returns anns).binary.fresh = false := by
  rw [State.boundary_eq] at h ⊢
  rw [State.time_of_clock (State.sendDue_clock _)] at h ⊢
  rw [State.sendDue_sense, State.sendDue_binary]
  exact State.mayLaunch_of_decideLaunch h

end Sys2Proof.Machine
end

section
/-! The launch pulse (07 R198; 06 R180; 12 R373), and the timing of a beat. -/

namespace Sys2Proof.Machine

/-- State s under the launch pulse, with stands S. -/
def State.pulse (s : State) (S : Tab Stand) : State := { s with stands := S, time := { s.time with launchDue := false } }

section
variable {s : State} {S : Tab Stand} {st : Nat}

theorem State.clearCore_pulse (h : (s.pulse S).stand st = s.stand st) (c : Nat) : (s.pulse S).clearCore st c = s.clearCore st c := by
  funext n
  unfold State.clearCore
  rw [h]
  rfl
theorem State.clearBank_pulse (k : Nat) : (s.pulse S).clearBank st k = s.clearBank st k := rfl
theorem State.waitedLong_pulse : (s.pulse S).waitedLong = s.waitedLong := rfl
/-- What forces a clearing of a stand the pulse has not reached yet is what forced one before it. -/
theorem State.forcedItems_pulse (h : (s.pulse S).stand st = s.stand st) : (s.pulse S).forcedItems st = s.forcedItems st := by
  simp only [State.forcedItems, h, State.waitedLong_pulse, State.clearCore_pulse h, State.clearBank_pulse]
  rfl
end

/-- A controller without a deferred tile starts none. -/
theorem State.startDeferred_none {s : State} {st : Nat} (h : ((s.stand st).tiles.any fun k => k.deferred) = false) :
    s.startDeferred st = s := by
  have hnone : ((s.stand st).tiles.filter fun k => k.deferred) = [] := by simpa using h
  rw [State.startDeferred, hnone]
  rfl

/-- A stand after the launch pulse (R180, R198, R373). -/
def State.launched (s : State) (st : Nat) : Stand :=
  if s.isAway st then s.stand st
  else match s.entryOf st s.time.beat with
    | some e => { s.stand st with
        pc := e % 16384, running := true, bended := false,
        clearing := if 0 < s.forcedItems st then some (s.time.tick, s.forcedItems st) else none }
    | none => { s.stand st with running := false, bended := false }

/-- The pulse reaches one stand and leaves every other one as it is. -/
theorem State.launchStand_pulse {s : State} {S : Tab Stand} {st : Nat} (hst : (s.pulse S).stand st = s.stand st)
    (hdef : ((s.stand st).tiles.any fun k => k.deferred) = false) :
    ∃ S', (s.pulse S).launchStand st = s.pulse S' ∧ (s.pulse S').stand st = s.launched st ∧
      ∀ m, m ≠ st → (s.pulse S').stand m = (s.pulse S).stand m := by
  have hmod : ∀ f : Stand → Stand, ∃ S', (s.pulse S).modStand st f = s.pulse S' ∧ (s.pulse S').stand st = f (s.stand st) ∧
      ∀ m, m ≠ st → (s.pulse S').stand m = (s.pulse S).stand m := fun f =>
    ⟨((s.pulse S).modStand st f).stands, rfl, (State.stand_modStand (s.pulse S) st f).trans (congrArg f hst),
      fun m hm => State.stand_modStand_ne (s.pulse S) f hm⟩
  have haway : (s.pulse S).isAway st = s.isAway st := rfl
  have hentry : (s.pulse S).entryOf st (s.pulse S).time.beat = s.entryOf st s.time.beat := rfl
  have htick : (s.pulse S).time.tick = s.time.tick := rfl
  unfold State.launchStand State.launched
  rw [haway, hentry, htick, State.forcedItems_pulse hst, State.startDeferred_none (hst ▸ hdef)]
  split
  case isTrue => exact ⟨S, rfl, hst, fun _ _ => rfl⟩
  case isFalse =>
    cases s.entryOf st s.time.beat with
    | none => exact hmod _
    | some e =>
      dsimp only
      rw [bits_low]
      split
      case isTrue => exact hmod _
      case isFalse => exact hmod _

/-- The pulse reaches every stand of a list once. -/
theorem State.launchStands_pulse {s : State} (hdef : ∀ st, ((s.stand st).tiles.any fun k => k.deferred) = false) :
    ∀ (l : List Nat), l.Nodup → ∀ S, (∀ st ∈ l, (s.pulse S).stand st = s.stand st) →
      ∃ S', l.foldl State.launchStand (s.pulse S) = s.pulse S' ∧ (∀ st ∈ l, (s.pulse S').stand st = s.launched st) ∧
        ∀ m, m ∉ l → (s.pulse S').stand m = (s.pulse S).stand m
  | [], _, S, _ => ⟨S, rfl, fun _ h => absurd h List.not_mem_nil, fun _ _ => rfl⟩
  | st :: l, hl, S, hS => by
    obtain ⟨hst, hl⟩ := List.nodup_cons.mp hl
    obtain ⟨hown, hrest⟩ := List.forall_mem_cons.mp hS
    obtain ⟨S₁, hone, hlaunched, hothers⟩ := State.launchStand_pulse hown (hdef st)
    have hS₁ : ∀ m ∈ l, (s.pulse S₁).stand m = s.stand m := fun m hm =>
      (hothers m (ne_of_mem_of_not_mem hm hst)).trans (hrest m hm)
    obtain ⟨S₂, hall, hreached, hleft⟩ := State.launchStands_pulse hdef l hl S₁ hS₁
    refine ⟨S₂, by rw [List.foldl_cons, hone, hall], ?_, fun m hm => ?_⟩
    · exact List.forall_mem_cons.mpr ⟨(hleft st hst).trans hlaunched, hreached⟩
    · exact (hleft m (List.not_mem_of_not_mem_cons hm)).trans (hothers m (List.ne_of_not_mem_cons hm))

/-- Settles O37. That the boundary command moves the tick to the target end is the model's choice (log 42); what withholds or
empties a launch is log 100. -/
theorem beatTiming : Obligations.BeatTiming := by
  unfold Obligations.BeatTiming
  intro s
  refine ⟨fun returns anns hopen => ?_, fun returns anns hclosed => ?_, fun hdue hrunning hdef => ?_, fun hnot => ?_⟩
  · refine ⟨s.boundary returns anns, if_pos hopen, ?_⟩
    have hbeats := State.boundary_beats hopen returns anns
    simp only [State.beats, Prod.mk.injEq] at hbeats
    obtain ⟨hbeat, hstart, htick, hpower⟩ := hbeats
    exact ⟨hbeat, htick, hstart.trans htick.symm, by rw [hpower], State.sendDue_msixDue _, State.boundary_launchDue⟩
  · exact if_neg (by rw [hclosed]; decide)
  · obtain ⟨S, hall, hlaunched, -⟩ := State.launchStands_pulse hdef allStands List.nodup_range s.stands fun _ _ => rfl
    refine ⟨s.pulse S, ?_, rfl, rfl, fun st hst => hlaunched st (List.mem_range.mpr hst)⟩
    rw [← hall]
    exact if_pos ⟨hdue, hrunning⟩
  · refine if_neg fun ⟨hdue, hrunning⟩ => ?_
    rcases hnot with h | h
    · rw [h] at hdue
      cases hdue
    · exact h hrunning

end Sys2Proof.Machine
end

section
/-! What the serving engine's own accesses to the tiers leave (08 R231; 10 R305, R316, R327; 12 Table 12.3): stands, units and every
request; of the engine itself only the faults that it notes may differ. -/

namespace Sys2Proof.Machine

/-- Counters of the bursts read, the endpoints that refuse, the records lost and the fault stops (R305, R327, R379, R382). -/
def tierCounters : List Nat := [0x527001, 0x527002, 0x527003, 0x527004, 0x527008, 0x540002, 0x540007]

/-- The serving engine but for the faults that it notes for step 1 (R135, R370). -/
def Serving.unfaulted (v : Serving) : Serving := { v with kvErr := [], faultErr := [] }

/-- The stands, the units, the serving engine but for the faults noted, and every counter that is no tier counter are the same. -/
structure State.engineSame (s t : State) : Prop where
  stands : t.stands = s.stands
  nodes : t.nodes = s.nodes
  serving : t.serving.unfaulted = s.serving.unfaulted
  counter : ∀ k, k ∉ tierCounters → t.counter k = s.counter k

section
variable {s t u : State}

theorem State.engineSame_refl (s : State) : s.engineSame s := ⟨rfl, rfl, rfl, fun _ _ => rfl⟩
theorem State.engineSame.trans (h : s.engineSame t) (k : t.engineSame u) : s.engineSame u :=
  ⟨k.stands.trans h.stands, k.nodes.trans h.nodes, k.serving.trans h.serving,
    fun n hn => (k.counter n hn).trans (h.counter n hn)⟩
theorem State.engineSame_foldl {α : Type} {f : State → α → State} (h : ∀ (s : State) a, s.engineSame (f s a)) :
    ∀ (l : List α) (s : State), s.engineSame (l.foldl f s)
  | [], s => s.engineSame_refl
  | a :: l, s => (h s a).trans (State.engineSame_foldl h l (f s a))
/-- A part of the engine other than the faults noted. -/
theorem State.engineSame.part {α : Type} (h : s.engineSame t) (f : Serving → α) (hf : ∀ v, f v.unfaulted = f v) :
    f t.serving = f s.serving := by rw [← hf, h.serving, hf]

theorem State.engineSame.rslots (h : s.engineSame t) : t.serving.rslots = s.serving.rslots := h.part (·.rslots) fun _ => rfl
theorem State.engineSame.groupsFreed (h : s.engineSame t) : t.serving.groupsFreed = s.serving.groupsFreed :=
  h.part (·.groupsFreed) fun _ => rfl
theorem State.engineSame.slotsFreed (h : s.engineSame t) : t.serving.slotsFreed = s.serving.slotsFreed :=
  h.part (·.slotsFreed) fun _ => rfl
theorem State.engineSame.scons (h : s.engineSame t) : t.serving.scons = s.serving.scons := h.part (·.scons) fun _ => rfl
theorem State.engineSame.sblock (h : s.engineSame t) : t.serving.sblock = s.serving.sblock := h.part (·.sblock) fun _ => rfl
theorem State.engineSame.cprod (h : s.engineSame t) : t.serving.cprod = s.serving.cprod := h.part (·.cprod) fun _ => rfl

end

/-! ## Counters, records and interrupts -/

theorem State.engineSame_count (s : State) {k : Nat} (n : Nat) (h : k ∈ tierCounters) : s.engineSame (s.count k n) :=
  ⟨rfl, rfl, rfl, fun _ hm => State.counter_count_ne _ _ (ne_of_mem_of_not_mem h hm).symm⟩
theorem State.engineSame_log (s : State) (r : ErrRec) : s.engineSame (s.log r) := by
  refine ⟨s.stands_log r, ?_, ?_, fun k hk => State.counter_log_ne _ _ (ne_of_mem_of_not_mem (by decide) hk).symm⟩ <;> rw [State.log_frame]
theorem State.engineSame_due (s : State) (v : Nat) : s.engineSame (s.due v) := ⟨rfl, rfl, rfl, fun _ _ => rfl⟩
theorem State.engineSame_faultStop (s : State) (c : Nat) : s.engineSame (s.faultStop c) := by
  refine ⟨?_, ?_, ?_, fun k hk => State.counter_faultStop_ne _ _ (ne_of_mem_of_not_mem (by decide) hk).symm
    (ne_of_mem_of_not_mem (by decide) hk).symm⟩ <;> rw [State.faultStop_frame]

/-! ## Bursts (R305, R370, R377) -/

theorem State.engineSame_putTier (s : State) (b : Bool) (a : Nat) (bs : List Byte) : s.engineSame (s.putTier b a bs) := by
  cases b <;> exact ⟨rfl, rfl, rfl, fun _ _ => rfl⟩
theorem State.engineSame_freshBurst (s : State) (b : Bool) (k : Nat) : s.engineSame (s.freshBurst b k) := by
  cases b <;> exact ⟨rfl, rfl, rfl, fun _ _ => rfl⟩
theorem State.engineSame_tierAsk (s : State) (b : Bool) (a n node : Nat) : s.engineSame (s.tierAsk b a n node) := by
  unfold State.tierAsk
  split
  case isTrue => exact s.engineSame_refl
  case isFalse => exact s.engineSame_count _ (by decide)
theorem State.engineSame_retirePch (s : State) (p : Nat) : s.engineSame (s.retirePch p) := by
  unfold State.retirePch
  split
  case isTrue => exact s.engineSame_refl
  case isFalse => exact ⟨rfl, rfl, rfl, fun _ _ => rfl⟩
theorem State.engineSame_burstNote (s : State) (b : Bool) (a w : Nat) : s.engineSame (s.burstNote b a w) := by
  have hmem (m : Mem) : s.engineSame { s with mem := m } := ⟨rfl, rfl, rfl, fun _ _ => rfl⟩
  unfold State.burstNote
  dsimp only
  split_ifs
  · exact s.engineSame_refl
  · exact (hmem _).trans (State.engineSame_retirePch _ _)
  · exact hmem _
  · exact (hmem _).trans (State.engineSame_retirePch _ _)
  · exact hmem _
theorem State.engineSame_putSlotHdr (s : State) (n : Nat) (a : ASlot) : s.engineSame (s.putSlotHdr n a) := s.engineSame_putTier ..
/-- The owner of an uncorrectable burst notes a fault, marks its slot or master area, or stops the module (Table 12.3). -/
theorem State.engineSame_ownerUe (s : State) (b : Bool) (a : Nat) : s.engineSame (s.ownerUe b a) := by
  have hnoted (l : List (Nat × Nat)) (w : Weights) : s.engineSame { s with serving := { s.serving with faultErr := l }, weights := w } :=
    ⟨rfl, rfl, rfl, fun _ _ => rfl⟩
  unfold State.ownerUe
  dsimp only
  split_ifs
  · exact ⟨rfl, rfl, rfl, fun _ _ => rfl⟩
  · exact ⟨rfl, rfl, rfl, fun _ _ => rfl⟩
  · exact hnoted _ s.weights
  · exact s.engineSame_refl
  · exact (hnoted _ _).trans (State.engineSame_putSlotHdr ..)
  · exact hnoted _ _
  · exact s.engineSame_faultStop _
/-- The serving engine is no stand: a burst that it reads quarantines none (R370). -/
theorem State.engineSame_burstRead (s : State) (b : Bool) (k : Nat) (bound : Bool) : s.engineSame (s.burstRead b servingNode k bound) := by
  unfold State.burstRead
  dsimp only
  refine (s.engineSame_burstNote b (64 * k) (s.wrongBurst b k)).trans ?_
  have hcount (t : State) {c d : Nat} (hc : c ∈ tierCounters) (hd : d ∈ tierCounters) : t.engineSame (t.count (if b then c else d)) :=
    t.engineSame_count 1 (by split <;> assumption)
  split
  case isTrue => exact State.engineSame_refl _
  case isFalse =>
    split
    case isTrue => exact hcount _ (by decide) (by decide)
    case isFalse =>
      rw [if_neg (fun h => absurd h.2 (by decide))]
      exact ((hcount _ (by decide) (by decide)).trans (State.engineSame_log ..)).trans (State.engineSame_ownerUe ..)

/-! ## Reading and writing (R305, R316, R327) -/

theorem State.engineSame_engineRead (s : State) (b : Bool) (a n : Nat) : s.engineSame (s.engineRead b a n) :=
  (s.engineSame_tierAsk ..).trans (State.engineSame_foldl (fun s k => s.engineSame_burstRead b k true) _ _)
theorem State.engineSame_tierWrite (s : State) (b : Bool) (a : Nat) (bs : List Byte) :
    s.engineSame (s.tierWrite b a bs servingNode) := by
  unfold State.tierWrite
  refine ((s.engineSame_tierAsk ..).trans (State.engineSame_foldl (fun s k => ?_) _ _)).trans (State.engineSame_putTier ..)
  refine State.engineSame.trans ?_ (State.engineSame_freshBurst _ b k)
  split
  case isTrue => exact s.engineSame_refl
  case isFalse => exact s.engineSame_burstRead ..
theorem State.engineSame_adapterRef (s : State) (slot : Nat) (up : Bool) : s.engineSame (s.adapterRef slot up) :=
  (s.engineSame_engineRead ..).trans (State.engineSame_putSlotHdr ..)

end Sys2Proof.Machine
end

section
/-! The serving state (08 R236, R252, R273). -/

namespace Sys2Proof.Machine

/-- A vector asked for is due. -/
theorem State.due_msixDue (s : State) {v : Nat} (h : v < 32) : (s.due v).host.msixDue.getLsbD v = true := by
  rw [State.due, BitVec.getLsbD_or, BitVec.getLsbD_ofNat, Nat.testBit_two_pow_self, decide_eq_true h, Bool.and_self, Bool.or_true]

/-! ## START -/

/-- Tier B with n bytes from o cleared. -/
def State.clearTierB (s : State) (o n : Nat) : State :=
  { s with mem := { s.mem with tierB := Tab.clear s.mem.tierB fun a => decide (o ≤ a ∧ a < o + n) } }
/-- Both rings cleared, and CHEAD written as 0 (R236). -/
def State.ringsCleared (s : State) : State :=
  ((s.clearTierB s.ringIn 8388608).clearTierB s.ringOut 67108864).tierWrite true (s.setting 0x300002 0 + 16) (leBytes 8 0) servingNode
theorem State.engineSame_clearTierB (s : State) (o n : Nat) : s.engineSame (s.clearTierB o n) := ⟨rfl, rfl, rfl, fun _ _ => rfl⟩
theorem State.engineSame_ringsCleared (s : State) : s.engineSame s.ringsCleared :=
  ((s.engineSame_clearTierB ..).trans (State.engineSame_clearTierB ..)).trans (State.engineSame_tierWrite ..)
theorem State.ringsCleared_clock (s : State) : s.ringsCleared.clock = s.clock := by
  simp [State.ringsCleared, State.clearTierB]
theorem State.startServing_eq (s : State) : s.startServing =
    ((s.ringsCleared.modServing fun v => { v with state := 1, stopDue := false, scons := 0, cprod := 0, chead := 0, sblock := none }).modNode
      servingNode fun u => { u with inc := nextInc u.inc }).due 20 := rfl
/-- Serving that starts from STOPPED (R236, R252). -/
theorem State.startServing_leaves (s : State) : let t := s.startServing
    t.serving.state = 1 ∧ t.serving.scons = 0 ∧ t.serving.cprod = 0 ∧ t.serving.chead = 0 ∧ t.serving.sblock = none ∧
      t.serving.rslots = s.serving.rslots ∧ (t.node 5106).inc = nextInc (s.node 5106).inc ∧ t.host.msixDue.getLsbD 20 = true ∧
      t.stands = s.stands ∧ t.time = s.time := by
  have hsame := s.engineSame_ringsCleared
  have htime := State.time_of_clock s.ringsCleared_clock
  rw [State.startServing_eq]
  generalize s.ringsCleared = u at hsame htime
  have hinc : (u.node 5106).inc = (s.node 5106).inc := by rw [State.node, hsame.nodes, State.node]
  refine ⟨rfl, rfl, rfl, rfl, rfl, hsame.rslots, ?_, State.due_msixDue _ (by decide), hsame.stands, htime⟩
  rw [← hinc]
  exact congrArg NodeInfo.inc (State.node_modNode (u.modServing _) 5106 fun x => { x with inc := nextInc x.inc })

theorem State.serveStart_refused {s : State} (h : s.startRefused = true ∨ s.serving.state = 1) : s.serveStart = s := if_pos h
theorem State.serveStart_stopped {s : State} (hr : s.startRefused = false) (h : s.serving.state = 0) : s.serveStart = s.startServing := by
  simp [State.serveStart, hr, h]
theorem State.serveStart_draining {s : State} (hr : s.startRefused = false) (h : s.serving.state = 2) :
    s.serveStart = (s.modServing fun v => { v with state := 1 }).due 20 := by
  simp [State.serveStart, hr, h]
/-- A configuration that does not match and a margin run refuse a start from STOPPED alone (R252, R374, log 133), a fault stop any. -/
theorem State.startRefused_iff (s : State) : s.startRefused = true ↔
    s.rel.healthNow = 2 ∨ s.serving.state = 0 ∧ (s.configMatches = false ∨ s.rel.marginQ.isSome) := by
  simp [State.startRefused]

/-! ## DRAIN and STOP -/

/-- DRAIN takes RUNNING to DRAINING and asks for the vector (R273). -/
theorem State.serveDrain_leaves (s : State) : let t := s.serveDrain
    t = { s with serving := t.serving, host := t.host } ∧
      t.serving = { s.serving with state := if s.serving.state = 1 then 2 else s.serving.state } := by
  unfold State.serveDrain
  split
  case isTrue => exact ⟨rfl, rfl⟩
  case isFalse => exact ⟨rfl, rfl⟩
/-- STOP is refused while a request holds a slot or is deferred (R273). -/
theorem State.stopRefused_eq (s : State) : s.stopRefused = !(s.reqs.isEmpty && s.serving.deferred.isEmpty) :=
  (Bool.not_and _ _).symm
theorem State.serveStop_leaves (s : State) : let t := s.serveStop
    t = { s with serving := t.serving } ∧
      t.serving = { s.serving with stopDue := s.serving.stopDue || (s.serving.state != 0 && s.reqs.isEmpty && s.serving.deferred.isEmpty) } := by
  unfold State.serveStop
  rw [State.stopRefused_eq, Bool.and_assoc]
  generalize (s.reqs.isEmpty && s.serving.deferred.isEmpty) = free
  cases free with
  | false =>
    rw [if_pos (.inl rfl), Bool.and_false, Bool.or_false]
    exact ⟨rfl, rfl⟩
  | true =>
    by_cases h : s.serving.state = 0
    · rw [if_pos (.inr h), h, bne_self_eq_false, Bool.false_and, Bool.or_false]
      exact ⟨rfl, rfl⟩
    · rw [if_neg (not_or.mpr ⟨(by decide : ¬ (!true) = true), h⟩), bne_iff_ne.mpr h, Bool.true_and, Bool.or_true]
      exact ⟨rfl, rfl⟩

/-- Settles O42, by what each of the three writes of the serving state does. That a margin run refuses a start is log 133. -/
theorem servingControl : Obligations.ServingControl := by
  unfold Obligations.ServingControl
  intro s
  have haccepted (hh : s.rel.healthNow ≠ 2) (h : s.serving.state = 0 → s.configMatches = true ∧ s.rel.marginQ = none) :
      s.startRefused = false := by
    rw [Bool.eq_false_iff, ne_eq, State.startRefused_iff]
    rintro (hf | ⟨hstate, hc | hm⟩)
    · exact hh hf
    · rw [(h hstate).1] at hc
      cases hc
    · rw [(h hstate).2] at hm
      cases hm
  have hstart {t : State} (h : s.serveStart = t) : exec .servingStart s = .next t := congrArg _ h
  refine ⟨fun h => ?_, fun h hr => ?_, fun hh h hc hm => ?_, fun hh h => ?_, ?_, ?_⟩
  · exact hstart (State.serveStart_refused (h.imp_left fun hf => s.startRefused_iff.mpr (.inl hf)))
  · exact hstart (State.serveStart_refused (.inl (s.startRefused_iff.mpr (.inr ⟨h, hr⟩))))
  · exact ⟨_, hstart (State.serveStart_stopped (haccepted hh fun _ => ⟨hc, hm⟩) h), s.startServing_leaves⟩
  · refine ⟨_, hstart (State.serveStart_draining (haccepted hh fun h0 => ?_) h), rfl, rfl, State.due_msixDue _ (by decide)⟩
    rw [h] at h0
    cases h0
  · exact ⟨s.serveDrain, rfl, s.serveDrain_leaves⟩
  · exact ⟨s.serveStop, rfl, s.serveStop_leaves⟩

end Sys2Proof.Machine
end

section
/-! Records and requests that end (08 R233 to R239, R262): what the write of a record, the end of a request and the publication leave. -/

namespace Sys2Proof.Machine

/-! ## Records (R238, R239) -/

/-- Counters that a record adds to (Table 8.16). -/
def recordCounters : List Nat := [0x530002, 0x530003, 0x530004, 0x530005, 0x53000A, 0x53000B]

/-- The serving engine but for its records: the ring of completions, the records held, and the vectors that they ask for. -/
def Serving.unrecorded (v : Serving) : Serving := { v.unfaulted with cprod := 0, held := [], vecs := 0 }

theorem State.countRec_frame (s : State) (r : Rec) : s.countRec r = { s with counters := (s.countRec r).counters } := by
  unfold State.countRec
  dsimp only
  split_ifs <;> rfl
theorem State.counter_countRec_ne (s : State) (r : Rec) {k : Nat} (h : k ∉ recordCounters) : (s.countRec r).counter k = s.counter k := by
  have hne (t : State) (n : Nat) {c : Nat} (hc : c ∈ recordCounters) : (t.count c n).counter k = t.counter k :=
    State.counter_count_ne _ _ (ne_of_mem_of_not_mem hc h).symm
  have hbase := hne s r.toks.length (c := 0x530005) (by decide)
  unfold State.countRec
  dsimp only
  split_ifs
  case neg => exact hbase
  all_goals exact (hne _ 1 (by decide)).trans hbase
/-- A termination by ABORT, cancellation or timeout is counted (Table 8.16). -/
theorem State.counter_countRec_aborted (s : State) {r : Rec} (h : r.status = 0x30) :
    (s.countRec r).counter 0x53000A = (s.counter 0x53000A + 1) % 2 ^ 64 := by
  unfold State.countRec
  rw [h]
  exact (State.counter_count _ _ _).trans (by rw [State.counter_count_ne _ _ (by decide)])

/-- A record written goes to the next place of the ring; the rest of the engine stays (R239). -/
theorem State.putRec_leaves (s : State) (r : Rec) : let t := s.putRec r
    t.stands = s.stands ∧ t.serving.unrecorded = s.serving.unrecorded ∧ t.serving.cprod = s.serving.cprod + 1 ∧
      ∀ k, k ∉ tierCounters → t.counter k = s.counter k := by
  unfold State.putRec
  dsimp only
  have hsame := s.engineSame_tierWrite true (s.ringOut + s.serving.cprod % 1048576 * 64) (recBytes r s.serving.cprod s.time.beat)
  generalize s.tierWrite true _ _ servingNode = u at hsame
  exact ⟨hsame.stands, congrArg (fun v : Serving => { v with cprod := 0, held := [], vecs := 0 }) hsame.serving, rfl, hsame.counter⟩

/-- A record is counted, then written or held (R238). -/
theorem State.emitRec_leaves (s : State) (r : Rec) : let t := s.emitRec r
    t.stands = s.stands ∧ t.serving.unrecorded = s.serving.unrecorded ∧
      ∀ k, k ∉ tierCounters → t.counter k = (s.countRec r).counter k := by
  have hframe := s.countRec_frame r
  have hstands : (s.countRec r).stands = s.stands := by rw [hframe]
  have hserving : (s.countRec r).serving = s.serving := by rw [hframe]
  unfold State.emitRec
  dsimp only
  generalize s.countRec r = u at hstands hserving
  split
  case isTrue =>
    obtain ⟨hs, hv, -, hc⟩ := u.putRec_leaves r
    exact ⟨hs.trans hstands, hv.trans (congrArg _ hserving), hc⟩
  case isFalse => exact ⟨hstands, (congrArg Serving.unrecorded hserving :), fun _ _ => rfl⟩
/-- With none held and room in the ring the record is written at once (R238). -/
theorem State.emitRec_cprod {s : State} (r : Rec) (hheld : s.serving.held = []) (hroom : 0 < s.recRoom) :
    (s.emitRec r).serving.cprod = s.serving.cprod + 1 := by
  have hserving : (s.countRec r).serving = s.serving := by rw [State.countRec_frame]
  have hfree : (s.countRec r).serving.held = [] ∧ 0 < (s.countRec r).recRoom := by
    rw [State.recRoom, hserving]
    exact ⟨hheld, hroom⟩
  obtain ⟨-, -, hcprod, -⟩ := (s.countRec r).putRec_leaves r
  unfold State.emitRec
  dsimp only
  rw [if_pos hfree, hcprod, hserving]

/-! ## The end of a request (R262) -/

/-- A request ends: its slot is empty, its groups and its slot are counted as freed, no other slot and no stand changes. -/
structure State.frees (s t : State) (k : Nat) (r : Req) : Prop where
  stands : t.stands = s.stands
  rslots : t.serving.rslots = Tab.set none s.serving.rslots k none
  groups : t.serving.groupsFreed = s.serving.groupsFreed + r.ng
  slots : t.serving.slotsFreed = s.serving.slotsFreed + 1

theorem State.req_putReq (s : State) (k : Nat) (r : Option Req) : (s.putReq k r).req k = r := Tab.get_set_eq ..

section
variable {s t : State} {k : Nat} {r : Req}

theorem State.frees.req (h : s.frees t k r) : t.req k = none := by rw [State.req, h.rslots, Tab.get_set_eq]
theorem State.frees.req_ne (h : s.frees t k r) {j : Nat} (hj : j ≠ k) : t.req j = s.req j := by
  rw [State.req, h.rslots, Tab.get_set_ne _ _ _ hj, State.req]

end

/-- The adapter slot of a request that ends has one reference fewer (R299). -/
def State.unref (s : State) (r : Req) : State := match r.aslot with | some a => s.adapterRef a false | none => s
theorem State.engineSame_unref (s : State) (r : Req) : s.engineSame (s.unref r) := by
  unfold State.unref
  split
  · exact s.engineSame_adapterRef ..
  · exact s.engineSame_refl
theorem State.endReq_eq (s : State) (k : Nat) (r : Req) (status : Nat) : s.endReq k r status =
    ((s.unref r).putReq k none).modServing fun v =>
      { v with groupsFreed := v.groupsFreed + r.ng, slotsFreed := v.slotsFreed + 1,
               ann := v.ann ++ [{ kind := 3, adm := (s.unref r).setting 0x30200B 0, rslot := k, rgen := r.rgen, x := 0, y := 0 }],
               remembered := remember v.remembered (r.d.tag, status, r.gk, k) } := rfl
theorem State.endReq_frees (s : State) (k : Nat) (r : Req) (status : Nat) :
    s.frees (s.endReq k r status) k r ∧ ∀ c, c ∉ tierCounters → (s.endReq k r status).counter c = s.counter c := by
  have hsame := s.engineSame_unref r
  rw [State.endReq_eq]
  generalize s.unref r = u at hsame
  exact ⟨⟨hsame.stands, congrArg (Tab.set none · k none) hsame.rslots, congrArg (· + r.ng) hsame.groupsFreed,
    congrArg (· + 1) hsame.slotsFreed⟩, hsame.counter⟩

/-- A request that fails is freed as one that ends; its record alone is counted. -/
theorem State.failReq_frees (s : State) (k : Nat) (r : Req) (status reason : Nat) :
    s.frees (s.failReq k r status reason) k r ∧
      ∀ c, c ∉ tierCounters → (s.failReq k r status reason).counter c = (s.countRec (endRec k r status reason)).counter c := by
  obtain ⟨hstands, hserving, hcounter⟩ := s.emitRec_leaves (endRec k r status reason)
  obtain ⟨hfrees, hend⟩ := (s.emitRec (endRec k r status reason)).endReq_frees k r status
  have hpart {α : Type} (f : Serving → α) (hf : ∀ v, f v.unrecorded = f v) :
      f (s.emitRec (endRec k r status reason)).serving = f s.serving := by rw [← hf, hserving, hf]
  refine ⟨⟨hfrees.stands.trans hstands, ?_, ?_, ?_⟩, fun c hc => (hend c hc).trans (hcounter c hc)⟩
  · exact hfrees.rslots.trans (congrArg (Tab.set none · k none) (hpart (·.rslots) fun _ => rfl))
  · exact hfrees.groups.trans (congrArg (· + r.ng) (hpart (·.groupsFreed) fun _ => rfl))
  · exact hfrees.slots.trans (congrArg (· + 1) (hpart (·.slotsFreed) fun _ => rfl))

/-! ## Publication (R239) -/

/-- Step 7 asks for the vectors of the records written, and leaves the rest of the engine. -/
theorem State.servPublish_leaves (s : State) : let t := s.servPublish
    t.stands = s.stands ∧ t.serving.scons = s.serving.scons ∧ t.serving.sblock = s.serving.sblock ∧
      t.serving.cprod = s.serving.cprod ∧ ∀ k, k ∉ tierCounters → t.counter k = s.counter k := by
  unfold State.servPublish
  dsimp only
  have hwrite := s.engineSame_tierWrite true (s.setting 0x300002 0)
    (s.headerParts.1 ++ s.tierBytes true (s.setting 0x300002 0 + 16) 8 ++ s.headerParts.2)
  generalize s.tierWrite true _ _ servingNode = u at hwrite
  have hdue := State.engineSame_foldl State.engineSame_due ((List.range 16).filter fun k => u.serving.vecs.getLsbD k)
    (u.modServing fun v => { v with vecs := 0 })
  exact ⟨hdue.stands.trans hwrite.stands, hdue.scons.trans hwrite.scons, hdue.sblock.trans hwrite.sblock,
    hdue.cprod.trans hwrite.cprod, fun k hk => (hdue.counter k hk).trans (hwrite.counter k hk)⟩

end Sys2Proof.Machine
end

section
/-! The timeouts of the serving engine (08 R241, R257, R268). -/

namespace Sys2Proof.Machine

/-! ## The descriptor that blocks (R241) -/

/-- A descriptor consumed with a refusal: SCONS moves on, nothing blocks, one record is written. -/
def State.refusing (s : State) (r : Rec) : State :=
  ((s.count 0x530001).modServing fun v => { v with scons := v.scons + 1, sblock := none }).emitRec r
/-- Over clean bursts the read of a descriptor counts refusals of endpoints alone (R327). -/
theorem State.readDesc_clean {s : State} (h : ∀ k, s.wrongBurst true k = 0) :
    s.readDesc = s.count 0x527008 (s.refusedAt true (s.ringIn + s.serving.scons % 65536 * 128) 128) :=
  congrArg Prod.snd (s.tierRead_clean true _ 128 servingNode fun k _ => h k)
theorem State.sampleOne_late {s : State} (hvalid : s.descValid s.serving.scons = true) (hbad : dchkOk (s.descBytes s.serving.scons) = false)
    (hlate : s.descLate = true) (hroom : 0 < s.recRoom) :
    s.sampleOne = some (s.refusing (refuseTarget (field (s.descBytes s.serving.scons) 0 8) 3)) := by
  simp [State.sampleOne, hvalid, hbad, hlate, State.consume, hroom, State.refusing]
theorem State.refusing_leaves {s : State} {r : Rec} (hheld : s.serving.held = []) (hroom : 0 < s.recRoom) : let t := s.refusing r
    t.serving.scons = s.serving.scons + 1 ∧ t.serving.sblock = none ∧ t.serving.cprod = s.serving.cprod + 1 ∧ t.stands = s.stands ∧
      t.counter 0x530001 = (s.counter 0x530001 + 1) % 2 ^ 64 := by
  unfold State.refusing
  generalize hu : (s.count 0x530001).modServing (fun v => { v with scons := v.scons + 1, sblock := none }) = u
  obtain ⟨hstands, hserving, hcounter⟩ := u.emitRec_leaves r
  have hcprod := State.emitRec_cprod (s := u) r (hu ▸ hheld) (hu ▸ hroom)
  subst hu
  refine ⟨congrArg Serving.scons hserving, congrArg Serving.sblock hserving, hcprod, hstands, ?_⟩
  rw [hcounter _ (by decide), State.counter_countRec_ne _ _ (by decide)]
  exact State.counter_count ..

theorem execDescriptorTimeout_early {s : State} (h : s.time.launchDue = false ∨ s.descLate = false) :
    execDescriptorTimeout s = .next s := by
  refine if_neg ?_
  rintro ⟨hdue, -, -, hlate, -⟩
  rcases h with h | h
  · exact Bool.eq_false_iff.mp h hdue
  · exact Bool.eq_false_iff.mp h hlate

section
variable {s : State}

/-- A descriptor whose check still fails past the timeout is consumed with its refusal. -/
theorem execDescriptorTimeout_late (hdue : s.time.launchDue = true) (hserving : s.serving.state ≠ 0)
    (hclean : ∀ k, s.wrongBurst true k = 0) (hheld : s.serving.held = []) (hlate : s.descLate = true)
    (hvalid : s.descValid s.serving.scons = true) (hbad : dchkOk (s.descBytes s.serving.scons) = false) (hroom : 0 < s.recRoom) :
    ∃ n r, execDescriptorTimeout s = .next ((s.count 0x527008 n).refusing r).servPublish := by
  refine ⟨s.refusedAt true (s.ringIn + s.serving.scons % 65536 * 128) 128, refuseTarget (field (s.descBytes s.serving.scons) 0 8) 3, ?_⟩
  rw [execDescriptorTimeout, if_pos ⟨hdue, hserving, hheld, hlate, by rw [hbad]; rfl⟩, State.readDesc_clean hclean,
    State.sampleOne_late (s := s.count 0x527008 _) hvalid hbad hlate hroom]
  rfl

end

/-! ## Lost work (R257) -/

/-- The request after the loss of work f: f and what is in flight behind it are issued again from committed state. -/
def Req.loses (r : Req) (f : Flight) : Req :=
  { r with losses := r.losses + 1, flight := r.flight.takeWhile (fun g => g ≠ f),
           next := if f.chunk then f.first else r.next, expl := r.expl || !f.chunk }
theorem Req.not_mem_loses (r : Req) (f : Flight) : f ∉ (r.loses f).flight := fun h => by
  simpa using List.mem_takeWhile_imp h
theorem State.loseWork_eq (s : State) (k : Nat) (r : Req) (f : Flight) : s.loseWork k r f =
    if 3 ≤ r.losses + 1 then (s.count 0x53000C).failReq k (r.loses f) 0x40 4 else (s.count 0x53000C).putReq k (some (r.loses f)) := rfl
/-- Lost work is counted; the request re-issues it, or at its third loss in a row fails. -/
theorem State.loseWork_leaves (s : State) (k : Nat) (r : Req) (f : Flight) : let t := s.loseWork k r f
    t.counter 0x53000C = (s.counter 0x53000C + 1) % 2 ^ 64 ∧ t.stands = s.stands ∧
      (r.losses < 2 → t.req k = some (r.loses f)) ∧
      (2 ≤ r.losses → t.req k = none ∧ t.serving.slotsFreed = s.serving.slotsFreed + 1) := by
  rw [State.loseWork_eq]
  split
  case isTrue h =>
    obtain ⟨hfrees, hcounter⟩ := (s.count 0x53000C).failReq_frees k (r.loses f) 0x40 4
    refine ⟨?_, hfrees.stands, fun hl => absurd hl (by omega), fun _ => ⟨hfrees.req, hfrees.slots⟩⟩
    rw [hcounter _ (by decide), State.counter_countRec_ne _ _ (by decide), State.counter_count]
  case isFalse h =>
    exact ⟨State.counter_count .., rfl, fun _ => State.req_putReq .., fun hl => absurd hl (by omega)⟩

theorem State.stepTimeout_none {s : State} {k : Nat} (h : s.req k = none) : s.stepTimeout k = s := by
  rw [State.stepTimeout, h]
theorem State.stepTimeout_live {s : State} {k : Nat} {r : Req} (h : s.req k = some r) (hst : ∀ g, r.st ≠ .suspended g) :
    s.stepTimeout k = match s.lateWork r with | some f => s.loseWork k r f | none => s := by
  rw [State.stepTimeout, h]
  dsimp only
  split
  · exact absurd ‹_› (hst _)
  · rfl

/-! ## Suspension (R268) -/

theorem State.suspTimeout_none {s : State} {k : Nat} (h : s.req k = none) : s.suspTimeout k = s := by
  rw [State.suspTimeout, h]
theorem State.suspTimeout_suspended {s : State} {k : Nat} {r : Req} {g : Bool} (h : s.req k = some r) (hst : r.st = .suspended g) :
    s.suspTimeout k = if r.suspendedAt + s.setting 0x30000D 125000 < s.time.beat then s.failReq k r 0x30 2 else s := by
  rw [State.suspTimeout, h]
  dsimp only
  rw [hst]

/-- Settles O43, by what the refusal of a descriptor, the loss of work and the end of a request leave. -/
theorem servingTimeouts : Obligations.ServingTimeouts := by
  unfold Obligations.ServingTimeouts
  intro s
  refine ⟨fun hdue hserving hclean hheld hlate hvalid hbad hroom => ?_, execDescriptorTimeout_early, fun k => ⟨fun h => ?_, ?_, ?_, ?_⟩⟩
  · obtain ⟨n, r, hnext⟩ := execDescriptorTimeout_late hdue hserving hclean hheld hlate hvalid hbad hroom
    obtain ⟨hscons, hsblock, hcprod, hstands, hcounter⟩ := State.refusing_leaves (s := s.count 0x527008 n) (r := r) hheld hroom
    obtain ⟨pstands, pscons, psblock, pcprod, pcounter⟩ := ((s.count 0x527008 n).refusing r).servPublish_leaves
    refine ⟨_, hnext, pscons.trans hscons, psblock.trans hsblock, pcprod.trans hcprod, pstands.trans hstands, ?_⟩
    rw [pcounter _ (by decide), hcounter, State.counter_count_ne _ _ (by decide)]
  · exact ⟨congrArg _ (State.stepTimeout_none h), congrArg _ (State.suspTimeout_none h)⟩
  · intro r h hst hlate
    refine congrArg Host.Outcome.next ((State.stepTimeout_live h hst).trans ?_)
    rw [hlate]
  · intro r f h hst hlate
    obtain ⟨hcounter, hstands, hagain, hfails⟩ := s.loseWork_leaves k r f
    refine ⟨s.loseWork k r f, congrArg Host.Outcome.next ((State.stepTimeout_live h hst).trans ?_), hcounter, hstands,
      fun hl => ⟨r.loses f, hagain hl, rfl, r.not_mem_loses f, rfl, rfl⟩, hfails⟩
    rw [hlate]
  · intro r g h hst
    have hexec := State.suspTimeout_suspended h hst
    refine ⟨fun hpast => ?_, fun hearly => congrArg Host.Outcome.next (hexec.trans (if_neg (Nat.not_lt.mpr hearly)))⟩
    obtain ⟨hfrees, hcounter⟩ := s.failReq_frees k r 0x30 2
    refine ⟨_, congrArg Host.Outcome.next (hexec.trans (if_pos hpast)), hfrees.req, hfrees.groups, hfrees.slots, ?_,
      fun j hj => hfrees.req_ne hj, hfrees.stands⟩
    rw [hcounter _ (by decide), State.counter_countRec_aborted _ rfl]

end Sys2Proof.Machine
end

section
/-! Tables and byte fields that the weight and adapter commands rest on (06 R6; 09 Tables 9.2, 9.9). -/

namespace Sys2Proof

section
variable {α : Type} {d : α} {n : Nat}

/-- What the default and every value listed at a key have, the value read has. -/
theorem Tab.get_of_forall {P : α → Prop} (hd : P d) : ∀ {t : Tab α}, (∀ e ∈ t, e.1 = n → P e.2) → P (Tab.get d t n)
  | [], _ => hd
  | e :: t, h => by
    rw [Tab.get]
    split
    case isTrue he => exact h e List.mem_cons_self he
    case isFalse => exact Tab.get_of_forall hd fun e he => h e (List.mem_cons_of_mem _ he)
/-- Behind a table, one that reads as the default adds nothing. -/
theorem Tab.get_append_left {u : Tab α} (hu : Tab.get d u n = d) : ∀ t : Tab α, Tab.get d (t ++ u) n = Tab.get d t n
  | [] => hu
  | (k, v) :: t => by rw [List.cons_append, Tab.get, Tab.get, Tab.get_append_left hu t]
/-- A table without the key is passed over. -/
theorem Tab.get_append_right {u : Tab α} : ∀ {t : Tab α}, (∀ e ∈ t, e.1 ≠ n) → Tab.get d (t ++ u) n = Tab.get d u n
  | [], _ => rfl
  | (k, v) :: t, h => by
    rw [List.cons_append, Tab.get, if_neg (h (k, v) List.mem_cons_self), Tab.get_append_right fun e he => h e (List.mem_cons_of_mem _ he)]
theorem Tab.get_of_not_mem {t : Tab α} (h : ∀ e ∈ t, e.1 ≠ n) : Tab.get d t n = d :=
  Tab.get_of_forall (P := fun v => v = d) rfl fun e he heq => absurd heq (h e he)
/-- A table listed from a function, without its defaults, reads as the function at the listed keys. -/
theorem Tab.get_tabulate [DecidableEq α] (g : Nat → α) (l : List Nat) :
    Tab.get d ((l.map fun k => (k, g k)).filter fun e => decide (e.2 ≠ d)) n = if n ∈ l then g n else d := by
  induction l with
  | nil => rfl
  | cons k l ih =>
    by_cases hd : g k = d
    · by_cases hk : n = k <;> simp_all
    · by_cases hk : n = k
      · simp [hk, hd, Tab.get]
      · simpa [hd, Tab.get, hk, Ne.symm hk] using ih
/-- Whatever a change of all listed values gives, every listed value has. -/
theorem Tab.forall_mem_mapVals [DecidableEq α] {P : Nat → α → Prop} {f : Nat → α → α} {t : Tab α} (h : ∀ e ∈ t, P e.1 (f e.1 e.2)) :
    ∀ e ∈ Tab.mapVals d f t, P e.1 e.2 := by
  intro e he
  obtain ⟨e', he', rfl⟩ := List.mem_map.mp (List.mem_filter.mp he).1
  exact h e' he'

end

namespace Machine

theorem length_leBytes : ∀ k n, (leBytes k n).length = k
  | 0, _ => rfl
  | k + 1, n => congrArg (· + 1) (length_leBytes k (n / 256))
theorem leNat_leBytes : ∀ k n, leNat (leBytes k n) = n % 256 ^ k
  | 0, n => (Nat.mod_one n).symm
  | k + 1, n => by
    rw [leBytes, leNat, leNat_leBytes k, pow_succ, mul_comm (256 ^ k), Nat.mod_mul, BitVec.toNat_ofNat]
/-- A number stored first reads back (R6). -/
theorem field_leBytes (k n : Nat) (c : List Byte) : field (leBytes k n ++ c) 0 k = n % 256 ^ k := by
  rw [field, slice, List.drop_zero, List.take_left' (length_leBytes k n), length_leBytes, Nat.sub_self, List.replicate_zero, List.append_nil,
    leNat_leBytes]
/-- A field behind a number stored first. -/
theorem field_leBytes_behind (k n : Nat) (c : List Byte) {o : Nat} (w : Nat) (h : k ≤ o) :
    field (leBytes k n ++ c) o w = field c (o - k) w := by
  have hdrop : (leBytes k n ++ c).drop o = c.drop (o - k) := by
    rw [List.drop_append, length_leBytes, List.drop_eq_nil_of_le (by rwa [length_leBytes]), List.nil_append]
  rw [field, field, slice, slice, hdrop]

end Machine
end Sys2Proof
end

section
/-! A weight command as its command block (09 9.3, Table 9.2). -/

namespace Sys2Proof.Machine

/-- The fields of a block, where `weightCmd` reads them. -/
theorem weightBlock_fields (op flags place nmod epoch : Nat) (layoutId : DWord) (grace : Nat) :
    let b := weightBlock op flags place nmod epoch layoutId grace
    field b 0 1 = op % 256 ∧ field b 1 1 = flags % 256 ∧ field b 2 1 = place % 256 ∧ field b 3 1 = nmod % 256 ∧
      field b 4 4 = epoch % 2 ^ 32 ∧ field b 8 8 = layoutId.toNat % 2 ^ 64 ∧ field b 16 2 = grace % 65536 := by
  simp [weightBlock, field_leBytes, field_leBytes_behind]
/-- A bit of FLAGS (Table 9.2). -/
theorem bit_stageFlags (cap peer : Bool) : (b2n cap + 2 * b2n peer) % 256 = b2n cap + 2 * b2n peer ∧
    bit (b2n cap + 2 * b2n peer) 0 = cap ∧ bit (b2n cap + 2 * b2n peer) 1 = peer := by
  cases cap <;> cases peer <;> decide

section
variable (s : State)

theorem State.weightCmd_stage (cap peer : Bool) (place : Byte) (epoch : Word) (layoutId : DWord) :
    s.weightCmd (weightBlock 1 (b2n cap + 2 * b2n peer) place.toNat 0 epoch.toNat layoutId 0) =
      s.stage cap peer place.toNat epoch.toNat layoutId := by
  obtain ⟨hop, hflags, hplace, -, hepoch, hlayout, -⟩ := weightBlock_fields 1 (b2n cap + 2 * b2n peer) place.toNat 0 epoch.toNat layoutId 0
  obtain ⟨hsmall, hcap, hpeer⟩ := bit_stageFlags cap peer
  rw [Nat.mod_eq_of_lt place.isLt] at hplace
  rw [Nat.mod_eq_of_lt epoch.isLt] at hepoch
  rw [Nat.mod_eq_of_lt layoutId.isLt] at hlayout
  simp only [State.weightCmd, hop, hflags, hsmall, hcap, hpeer, hplace, hepoch, hlayout, BitVec.ofNat_toNat, BitVec.setWidth_eq]
  rfl
/-- A block without operands. -/
theorem State.weightCmd_plain : s.weightCmd (weightBlock 2 0 0 0 0 0 0) = s.cancelStage ∧
    s.weightCmd (weightBlock 3 0 0 0 0 0 0) = s.requestAgain ∧ s.weightCmd (weightBlock 5 0 0 0 0 0 0) = s.disarm ∧
    s.weightCmd (weightBlock 7 0 0 0 0 0 0) = s.scrubNow := by
  have hop (op : Nat) : field (weightBlock op 0 0 0 0 0 0) 0 1 = op % 256 := (weightBlock_fields op 0 0 0 0 0 0).1
  simp only [State.weightCmd, hop]
  exact ⟨rfl, rfl, rfl, rfl⟩
theorem State.weightCmd_arm (nmod : Byte) (epoch : Word) (grace : BitVec 16) :
    s.weightCmd (weightBlock 4 0 0 nmod.toNat epoch.toNat 0 grace.toNat) = s.arm nmod.toNat epoch.toNat grace.toNat := by
  obtain ⟨hop, -, -, hnmod, hepoch, -, hgrace⟩ := weightBlock_fields 4 0 0 nmod.toNat epoch.toNat 0 grace.toNat
  rw [Nat.mod_eq_of_lt nmod.isLt] at hnmod
  rw [Nat.mod_eq_of_lt epoch.isLt] at hepoch
  rw [Nat.mod_eq_of_lt grace.isLt] at hgrace
  simp only [State.weightCmd, hop, hnmod, hepoch, hgrace]
  rfl
theorem State.weightCmd_activate (epoch : Word) :
    s.weightCmd (weightBlock 6 0 0 0 epoch.toNat 0 0) = s.activate epoch.toNat := by
  obtain ⟨hop, -, -, -, hepoch, -, -⟩ := weightBlock_fields 6 0 0 0 epoch.toNat 0 0
  rw [Nat.mod_eq_of_lt epoch.isLt] at hepoch
  simp only [State.weightCmd, hop, hepoch]
  rfl

end

/-- A command's result is written, and its vector is asked for; nothing else changes (Table 15.3). -/
theorem State.weightResult_leaves (s : State) (op code : Nat) :
    s.weightResult op code = { s with weights := { s.weights with wres := op * 256 + code }, host := (s.weightResult op code).host } ∧
      (s.weightResult op code).host.msixDue.getLsbD 16 = true :=
  ⟨rfl, State.due_msixDue _ (by decide)⟩

end Sys2Proof.Machine
end

section
/-! What a staging leaves (09 R279, R282, R297; 10 R309; 11 R358). -/

namespace Sys2Proof.Machine

/-! ## Asking the shard peer (R358) -/

/-- The weights, the arrays and the tiers are the same. -/
structure State.offWeights (s t : State) : Prop where
  weights : t.weights = s.weights
  cores : t.cores = s.cores
  mem : t.mem = s.mem

section
variable {s t u : State}

theorem State.offWeights_refl (s : State) : s.offWeights s := ⟨rfl, rfl, rfl⟩
theorem State.offWeights.trans (h : s.offWeights t) (k : t.offWeights u) : s.offWeights u :=
  ⟨k.weights.trans h.weights, k.cores.trans h.cores, k.mem.trans h.mem⟩
theorem State.offWeights_foldl {α : Type} {f : State → α → State} (h : ∀ (s : State) a, s.offWeights (f s a)) :
    ∀ (l : List α) (s : State), s.offWeights (l.foldl f s)
  | [], s => s.offWeights_refl
  | a :: l, s => (h s a).trans (State.offWeights_foldl h l (f s a))

end

theorem State.offWeights_modPath (s : State) (port peer : Nat) (f : Path → Path) : s.offWeights (s.modPath port peer f) := ⟨rfl, rfl, rfl⟩
theorem State.offWeights_emitFrame (s : State) (p peer : Nat) (f : Frame) : s.offWeights (s.emitFrame p peer f) := ⟨rfl, rfl, rfl⟩
theorem State.offWeights_grove (s : State) (g : Grove) : s.offWeights { s with grove := g } := ⟨rfl, rfl, rfl⟩
theorem State.offWeights_pumpPath (port peer : Nat) : ∀ (k : Nat) (s : State), s.offWeights (State.pumpPath port peer k s)
  | 0, s => s.offWeights_refl
  | k + 1, s => by
    rw [State.pumpPath]
    split
    case isFalse => exact s.offWeights_refl
    case isTrue =>
      split
      case h_1 => exact s.offWeights_refl
      case h_2 =>
        exact ((s.offWeights_modPath port peer _).trans (State.offWeights_emitFrame ..)).trans (State.offWeights_pumpPath port peer k _)
theorem State.offWeights_pathSend (s : State) (port peer : Nat) (f : Frame) : s.offWeights (s.pathSend port peer f) :=
  (s.offWeights_modPath port peer _).trans (State.offWeights_pumpPath port peer _ _)
theorem State.offWeights_askPeer (s : State) : s.offWeights s.askPeer :=
  State.offWeights_foldl (fun s _ => (s.offWeights_grove _).trans (State.offWeights_pathSend ..)) _ _

/-! ## Shards (R276) -/

theorem shardKey_div (b : Bool) {st : Nat} (h : st < 5000) : shardKey b st / 5000 = b2n b := by
  cases b <;> simp [shardKey, b2n] <;> omega
theorem shardKey_ne {b k : Bool} (hk : k ≠ b) {st m : Nat} (h : st < 5000) (hm : m < 5000) : shardKey k st ≠ shardKey b m := by
  intro he
  have hdiv := congrArg (· / 5000) he
  simp only [shardKey_div _ h, shardKey_div _ hm] at hdiv
  cases b <;> cases k <;> simp_all [b2n]
/-- The table of a bank of which every shard is h. -/
def bankShards (b : Bool) (h : Shard) : Tab Shard := (allStands.map fun st => (shardKey b st, h)).filter fun e => decide (e.2 ≠ {})
theorem get_bankShards (b : Bool) (h : Shard) {st : Nat} (hst : st < 5000) : Tab.get {} (bankShards b h) (shardKey b st) = h := by
  have hmem : shardKey b st ∈ allStands.map (shardKey b) := List.mem_map_of_mem (List.mem_range.mpr hst)
  have htab := Tab.get_tabulate (d := {}) (n := shardKey b st) (fun _ => h) (allStands.map (shardKey b))
  rw [List.map_map, if_pos hmem] at htab
  exact htab
theorem bankShards_ne {b k : Bool} (hk : k ≠ b) (h : Shard) {st : Nat} (hst : st < 5000) : ∀ e ∈ bankShards b h, e.1 ≠ shardKey k st := by
  intro e he
  obtain ⟨m, hm, rfl⟩ := List.mem_map.mp (List.mem_filter.mp he).1
  exact (shardKey_ne hk hst (List.mem_range.mp hm)).symm
/-- The table without the shards of a bank. -/
def Weights.otherShards (w : Weights) (b : Bool) : Tab Shard := w.shards.filter fun e => decide (e.1 / 5000 ≠ b2n b)
theorem Weights.shards_resetShards (w : Weights) (b : Bool) (h : Shard) :
    (w.resetShards b h).shards = if b then w.otherShards b ++ bankShards b h else bankShards b h ++ w.otherShards b := rfl
theorem Weights.otherShards_ne (w : Weights) (b : Bool) {st : Nat} (hst : st < 5000) : ∀ e ∈ w.otherShards b, e.1 ≠ shardKey b st :=
  fun _ he heq => absurd (heq ▸ shardKey_div b hst) (of_decide_eq_true (List.mem_filter.mp he).2)
theorem Weights.get_otherShards (w : Weights) {b k : Bool} (hk : k ≠ b) {st : Nat} (hst : st < 5000) :
    Tab.get {} (w.otherShards b) (shardKey k st) = Tab.get {} w.shards (shardKey k st) := by
  refine Tab.get_filter_pos (p := fun n => decide (n / 5000 ≠ b2n b)) {} w.shards ?_
  rw [shardKey_div k hst]
  revert hk
  cases b <;> cases k <;> decide
theorem Weights.get_resetShards_same (w : Weights) (b : Bool) (h : Shard) {st : Nat} (hst : st < 5000) :
    Tab.get {} (w.resetShards b h).shards (shardKey b st) = h := by
  have hnone := w.otherShards_ne b hst
  rw [Weights.shards_resetShards]
  cases b
  · exact (Tab.get_append_left (Tab.get_of_not_mem hnone) _).trans (get_bankShards false h hst)
  · exact (Tab.get_append_right hnone).trans (get_bankShards true h hst)
theorem Weights.get_resetShards_ne (w : Weights) {b k : Bool} (hk : k ≠ b) (h : Shard) {st : Nat} (hst : st < 5000) :
    Tab.get {} (w.resetShards b h).shards (shardKey k st) = Tab.get {} w.shards (shardKey k st) := by
  have hnone := bankShards_ne hk h hst
  rw [Weights.shards_resetShards, ← w.get_otherShards hk hst]
  cases b
  · exact Tab.get_append_right hnone
  · exact Tab.get_append_left (Tab.get_of_not_mem hnone) _

/-! ## Banks that hold nothing but a staged version (R279) -/

/-- A bank holds a version, every shard of it is h, and every array of it is EMPTY, listed or not. -/
structure State.bankHolds (s : State) (b : Bool) (h : Shard) (v : Version) : Prop where
  version : s.version b = v
  shard : ∀ st, st < 5000 → s.shard b st = h
  empty : ∀ e ∈ s.cores, (e.2.bank b).st = .empty

section
variable {s t : State} {b : Bool} {h : Shard} {v : Version}

theorem State.bankHolds.core (H : s.bankHolds b h v) (st c : Nat) : ((s.core st c).bank b).st = .empty :=
  Tab.get_of_forall (P := fun x : Core => (x.bank b).st = .empty) (by cases b <;> rfl) fun e he _ => H.empty e he
theorem State.bankHolds.congr (H : s.bankHolds b h v) (hweights : t.weights = s.weights) (hcores : t.cores = s.cores) : t.bankHolds b h v where
  version := by rw [State.version, hweights]; exact H.version
  shard st hst := by rw [State.shard, hweights]; exact H.shard st hst
  empty := hcores ▸ H.empty

theorem State.bankHolds.weightResult (H : s.bankHolds b h v) (op code : Nat) : (s.weightResult op code).bankHolds b h v :=
  ⟨H.version, H.shard, H.empty⟩

theorem Core.bank_modBank (x : Core) (b k : Bool) (f : ABank → ABank) : (x.modBank b f).bank k = if k = b then f (x.bank b) else x.bank k := by
  cases b <;> cases k <;> rfl

theorem State.version_emptyBank (s : State) (b k : Bool) (h : Shard) (v : Version) :
    (s.emptyBank b h v).version k = if k = b then v else s.version k := by
  cases b <;> cases k <;> rfl
theorem State.shard_emptyBank_same (s : State) (b : Bool) (h : Shard) (v : Version) {st : Nat} (hst : st < 5000) :
    (s.emptyBank b h v).shard b st = h := by
  cases b <;> exact Weights.get_resetShards_same _ _ h hst
theorem State.shard_emptyBank_ne (s : State) {b k : Bool} (hk : k ≠ b) (h : Shard) (v : Version) {st : Nat} (hst : st < 5000) :
    (s.emptyBank b h v).shard k st = s.shard k st := by
  cases b <;> exact Weights.get_resetShards_ne _ hk h hst
theorem State.cores_emptyBank (s : State) (b : Bool) (h : Shard) (v : Version) :
    (s.emptyBank b h v).cores = Tab.mapVals {} (fun _ x => x.modBank b fun k => { k with st := .empty }) s.cores := rfl
theorem State.bankHolds_emptyBank (s : State) (b : Bool) (h : Shard) (v : Version) : (s.emptyBank b h v).bankHolds b h v where
  version := (s.version_emptyBank b b h v).trans (if_pos rfl)
  shard _ hst := s.shard_emptyBank_same b h v hst
  empty := s.cores_emptyBank b h v ▸ Tab.forall_mem_mapVals (P := fun _ (x : Core) => (x.bank b).st = .empty) fun e _ => by
    rw [Core.bank_modBank, if_pos rfl]
theorem State.bankHolds.emptyBank (H : s.bankHolds b h v) {k : Bool} (hk : b ≠ k) (h' : Shard) (v' : Version) :
    (s.emptyBank k h' v').bankHolds b h v where
  version := (s.version_emptyBank k b h' v').trans ((if_neg hk).trans H.version)
  shard st hst := (s.shard_emptyBank_ne hk h' v' hst).trans (H.shard st hst)
  empty := s.cores_emptyBank k h' v' ▸ Tab.forall_mem_mapVals (P := fun _ (x : Core) => (x.bank b).st = .empty) fun e he => by
    rw [Core.bank_modBank, if_neg hk]
    exact H.empty e he
/-- Several banks emptied in turn. -/
def State.emptyBanks (s : State) (h : Shard) (v : Version) (l : List Bool) : State := l.foldl (fun s b => s.emptyBank b h v) s
theorem State.emptyBanks_cons (s : State) (h : Shard) (v : Version) (b : Bool) (l : List Bool) :
    s.emptyBanks h v (b :: l) = (s.emptyBank b h v).emptyBanks h v l := by
  rw [State.emptyBanks, List.foldl_cons, State.emptyBanks]
theorem State.bankHolds_emptyBanks (h : Shard) (v : Version) (l : List Bool) (s : State) (hb : b ∈ l ∨ s.bankHolds b h v) :
    (s.emptyBanks h v l).bankHolds b h v := by
  induction l generalizing s with
  | nil => exact hb.resolve_left List.not_mem_nil
  | cons k l ih =>
    rw [State.emptyBanks_cons]
    by_cases hk : b = k
    · exact ih _ (.inr (hk ▸ s.bankHolds_emptyBank b h v))
    · exact ih _ (hb.imp (fun hm => (List.mem_cons.mp hm).resolve_left hk) fun H => H.emptyBank hk h v)

end

/-- Emptying a bank changes neither the staging nor the pointer. -/
theorem State.weights_emptyBank (s : State) (b : Bool) (h : Shard) (v : Version) :
    (s.emptyBank b h v).weights.staging = s.weights.staging ∧ (s.emptyBank b h v).weights.ptrB = s.weights.ptrB := by
  cases b <;> exact ⟨rfl, rfl⟩
theorem State.weights_emptyBanks (h : Shard) (v : Version) (l : List Bool) (s : State) :
    (s.emptyBanks h v l).weights.staging = s.weights.staging ∧ (s.emptyBanks h v l).weights.ptrB = s.weights.ptrB := by
  induction l generalizing s with
  | nil => exact ⟨rfl, rfl⟩
  | cons k l ih =>
    obtain ⟨hstaging, hptr⟩ := s.weights_emptyBank k h v
    rw [State.emptyBanks_cons]
    exact ⟨(ih _).1.trans hstaging, (ih _).2.trans hptr⟩

/-! ## Bytes outside the master areas (R309) -/

theorem State.outsideMaster_of_mem {s t : State} (h : t.mem = s.mem) : s.outsideMaster t := by
  rw [State.outsideMaster, h]
  exact ⟨rfl, fun _ _ => rfl⟩
theorem State.outsideMaster.trans {s t u : State} (h : s.outsideMaster t) (k : t.outsideMaster u) : s.outsideMaster u :=
  ⟨k.1.trans h.1, fun a ha => (k.2 a ha).trans (h.2 a ha)⟩
theorem State.outsideMaster_emptyBank (s : State) (b : Bool) (h : Shard) (v : Version) : s.outsideMaster (s.emptyBank b h v) := by
  have htierB : (s.emptyBank b h v).mem.tierB =
      Tab.clear s.mem.tierB fun a => decide (masterAt b 0 ≤ a ∧ a < masterAt b 0 + 5000 * Machine.shardBytes) := rfl
  refine ⟨rfl, fun a ha => ?_⟩
  rw [htierB, Tab.get_clear]
  have harea : ¬ (masterAt b 0 ≤ a ∧ a < masterAt b 0 + 5000 * Machine.shardBytes) := by
    cases b <;> simp only [masterAt, Machine.shardBytes, if_true, Bool.false_eq_true, if_false] <;> omega
  exact if_neg fun h => harea (of_decide_eq_true h)
theorem State.outsideMaster_emptyBanks (h : Shard) (v : Version) (l : List Bool) (s : State) : s.outsideMaster (s.emptyBanks h v l) := by
  induction l generalizing s with
  | nil => exact State.outsideMaster_of_mem rfl
  | cons b l ih =>
    rw [State.emptyBanks_cons]
    exact (s.outsideMaster_emptyBank b h v).trans (ih _)

end Sys2Proof.Machine
end

section
/-! STAGE, CANCEL and REQUEST AGAIN (09 R279, R282, R297). Of several conditions that fail, the one answered is the model's choice
(log 40). -/

namespace Sys2Proof.Machine

section
variable {s : State} {cap peer : Bool} {place epoch : Nat} {layoutId : DWord}

/-! ## STAGE (R279, R297) -/

theorem State.stage_refused (h : s.stageCode cap place epoch ≠ 0) :
    s.stage cap peer place epoch layoutId = s.weightResult 1 (s.stageCode cap place epoch) := if_pos h
theorem State.stageCode_operands (h : 79 < place ∨ epoch = 0) : s.stageCode cap place epoch = 5 := if_pos h
theorem State.stageCode_busy (hplace : place ≤ 79) (hepoch : epoch ≠ 0)
    (h : ¬ (s.weights.staging = none ∧ s.weights.sw.st = 0 ∧ s.weights.sw.graceOpen = false)) : s.stageCode cap place epoch = 1 := by
  have hbusy : s.weights.staging.isSome ∨ s.weights.sw.st ≠ 0 ∨ s.weights.sw.graceOpen := by
    rw [Option.isSome_iff_ne_none, ← Bool.not_eq_false]
    tauto
  rw [State.stageCode, if_neg (by omega), if_pos hbusy]
/-- With nothing open, STAGE is refused exactly when it wants STOPPED and serving is not (Table 9.3). -/
theorem State.stageCode_free (hplace : place ≤ 79) (hepoch : epoch ≠ 0)
    (h : s.weights.staging = none ∧ s.weights.sw.st = 0 ∧ s.weights.sw.graceOpen = false) :
    s.stageCode cap place epoch = if (cap = true ∨ s.weights.current = 0 ∨ s.weights.capmode = true) ∧ s.serving.state ≠ 0 then 2 else 0 := by
  obtain ⟨hstaging, hswitch, hgrace⟩ := h
  rw [State.stageCode, if_neg (by omega), if_neg (by simp [hstaging, hswitch, hgrace])]
  simp [State.stopped]

/-- Capacity mode is left before a staging: its banks are emptied of bank B, and every core points to it (R297). -/
def State.leavesCapacity (s : State) : State :=
  if s.weights.capmode then (s.emptyBank true {} {}).allCores fun c => { c with capmode := false, bptrB := true } else s
/-- The staging is open, and its banks hold nothing yet. -/
def State.opensStaging (s : State) (cap : Bool) (g : Staging) : State :=
  s.leavesCapacity.modWeights fun w =>
    { w with capmode := false, ptrB := s.weights.capmode || w.ptrB, current := if cap || s.weights.capmode then 0 else w.current,
             staging := some g }
/-- The shards of the banks being staged are WANTED for the first time, and the peer is asked (R282, R358). -/
def State.wantsAll (s : State) (v : Version) : State :=
  (s.emptyBanks { st := .wanted, attempt := 1, deadline := s.time.tick + attemptTicks } v s.stagingBanks).askPeer
theorem State.stage_accepted (h : s.stageCode cap place epoch = 0) :
    s.stage cap peer place epoch layoutId = ((s.opensStaging cap { cap, peer, place, epoch, layoutId }).wantsAll
      { epoch, layoutId, place, cap, peer }).weightResult 1 0 :=
  if_neg (not_not.mpr h)
theorem State.outsideMaster_leavesCapacity (s : State) : s.outsideMaster s.leavesCapacity := by
  unfold State.leavesCapacity
  split
  · exact (s.outsideMaster_emptyBank true {} {}).trans (State.outsideMaster_of_mem rfl)
  · exact State.outsideMaster_of_mem rfl
theorem State.outsideMaster_opensStaging (s : State) (cap : Bool) (g : Staging) : s.outsideMaster (s.opensStaging cap g) :=
  s.outsideMaster_leavesCapacity.trans (State.outsideMaster_of_mem rfl)
theorem State.wantsAll_leaves (s : State) (v : Version) :
    let t := s.wantsAll v
    t.weights.staging = s.weights.staging ∧ t.stagingBanks = s.stagingBanks ∧ s.outsideMaster t ∧
      ∀ b, b ∈ s.stagingBanks → t.bankHolds b { st := .wanted, attempt := 1, deadline := s.time.tick + attemptTicks } v := by
  intro t
  let want : Shard := { st := .wanted, attempt := 1, deadline := s.time.tick + attemptTicks }
  obtain ⟨hstaging, hptr⟩ := State.weights_emptyBanks want v s.stagingBanks s
  have hask : (s.emptyBanks want v s.stagingBanks).offWeights t := State.offWeights_askPeer _
  have hstaging' : t.weights.staging = s.weights.staging := by rw [hask.weights, hstaging]
  refine ⟨hstaging', ?_, (State.outsideMaster_emptyBanks want v _ s).trans (State.outsideMaster_of_mem hask.mem), fun b hb => ?_⟩
  · rw [State.stagingBanks, hstaging', hask.weights, hptr, State.stagingBanks]
  · exact (State.bankHolds_emptyBanks want v _ s (.inl hb)).congr hask.weights hask.cores
/-- What an accepted STAGE leaves. -/
theorem State.stage_leaves (h : s.stageCode cap place epoch = 0) :
    let t := s.stage cap peer place epoch layoutId
    t.weights.staging = some { cap, peer, place, epoch, layoutId } ∧ t.stagingBanks = (if cap then [false, true] else [!t.weights.ptrB]) ∧
      (∀ b, b ∈ t.stagingBanks → ∃ k, t.bankHolds b { st := .wanted, attempt := 1, deadline := k } { epoch, layoutId, place, cap, peer }) ∧
      t.weights.wres = 0x100 ∧ t.host.msixDue.getLsbD 16 = true ∧ s.outsideMaster t := by
  rw [State.stage_accepted h]
  generalize hu : s.opensStaging cap { cap, peer, place, epoch, layoutId } = u
  obtain ⟨hstaging, hbanks, houtside, hholds⟩ := u.wantsAll_leaves { epoch, layoutId, place, cap, peer }
  generalize u.wantsAll { epoch, layoutId, place, cap, peer } = w at hstaging hbanks houtside hholds ⊢
  have hopen : w.weights.staging = some { cap, peer, place, epoch, layoutId } := by rw [hstaging, ← hu]; rfl
  have houtside' : s.outsideMaster w := (hu ▸ s.outsideMaster_opensStaging cap _).trans houtside
  refine ⟨hopen, ?_, fun b hb => ⟨_, (hholds b (hbanks ▸ hb)).weightResult 1 0⟩, rfl, (w.weightResult_leaves 1 0).2,
    houtside'.trans (State.outsideMaster_of_mem rfl)⟩
  exact (State.stagingBanks.eq_def w).trans (by rw [hopen]; rfl)

/-! ## CANCEL (R279) -/

theorem State.cancelStage_refused (h : s.weights.staging = none ∨ s.weights.sw.st ≠ 0) : s.cancelStage = s.weightResult 2 1 :=
  if_pos (by simpa using h)
theorem State.cancelStage_accepted (hstaging : s.weights.staging.isSome) (hswitch : s.weights.sw.st = 0) :
    s.cancelStage = (({ (s.emptyBanks {} {} s.stagingBanks).modWeights (fun w => { w with staging := none }) with
      grove := { (s.emptyBanks {} {} s.stagingBanks).grove with requested := [], frags := [] } } : State).weightResult 2 0) :=
  if_neg (by simp [Option.isSome_iff_ne_none.mp hstaging, hswitch])
/-- What an accepted CANCEL leaves. -/
theorem State.cancelStage_leaves (hstaging : s.weights.staging.isSome) (hswitch : s.weights.sw.st = 0) :
    let t := s.cancelStage
    t.weights.staging = none ∧ t.weights.wres = 0x200 ∧ (∀ b, b ∈ s.stagingBanks → t.bankHolds b {} {}) ∧
      t.host.msixDue.getLsbD 16 = true ∧ s.outsideMaster t := by
  have houtside := State.outsideMaster_emptyBanks {} {} s.stagingBanks s
  have hholds (b : Bool) (hb : b ∈ s.stagingBanks) := State.bankHolds_emptyBanks {} {} s.stagingBanks s (.inl hb)
  rw [State.cancelStage_accepted hstaging hswitch]
  generalize s.emptyBanks {} {} s.stagingBanks = u at houtside hholds ⊢
  refine ⟨rfl, rfl, fun b hb => ⟨?_, ?_, ?_⟩, (State.weightResult_leaves _ 2 0).2, houtside.trans (State.outsideMaster_of_mem rfl)⟩
  · exact (hholds b hb).version
  · exact (hholds b hb).shard
  · exact (hholds b hb).empty

/-! ## REQUEST AGAIN (R279) -/

theorem State.requestAgain_refused (h : s.weights.staging = none) : s.requestAgain = s.weightResult 3 1 :=
  if_pos (by simp [h])
/-- What becomes of a listed shard: a BAD or MISSING one of a bank being staged is WANTED for the first time until tick k. -/
def Shard.again (banks : List Bool) (k n : Nat) (h : Shard) : Shard :=
  if (h.st = .bad ∨ h.st = .missing) ∧ banks.contains (decide (5000 ≤ n)) then { h with st := .wanted, attempt := 1, deadline := k } else h
theorem Shard.again_st {banks : List Bool} {k n : Nat} (h : Shard) (hn : decide (5000 ≤ n) ∈ banks) :
    (h.again banks k n).st ≠ .bad ∧ (h.again banks k n).st ≠ .missing := by
  unfold Shard.again
  split
  case isTrue => exact ⟨by simp, by simp⟩
  case isFalse hc =>
    simp only [List.contains_iff_mem, hn, and_true, not_or] at hc
    exact hc
/-- The shards that were lost are WANTED again. -/
def State.wantsAgain (s : State) : State :=
  s.modWeights fun w => { w with shards := Tab.mapVals {} (Shard.again s.stagingBanks (s.time.tick + attemptTicks)) w.shards }
theorem State.requestAgain_accepted (h : s.weights.staging.isSome) : s.requestAgain = (s.wantsAgain.askPeer.due 16).weightResult 3 0 :=
  if_neg (by simp [Option.isSome_iff_ne_none.mp h])
theorem State.shard_wantsAgain {b : Bool} {st : Nat} (hb : b ∈ s.stagingBanks) (hst : st < 5000) :
    (s.wantsAgain.shard b st).st ≠ .bad ∧ (s.wantsAgain.shard b st).st ≠ .missing := by
  have hbank : decide (5000 ≤ shardKey b st) = b := by cases b <;> simp [shardKey, b2n, hst]
  refine Tab.get_of_forall (P := fun h : Shard => h.st ≠ .bad ∧ h.st ≠ .missing) (by decide) ?_
  refine Tab.forall_mem_mapVals (P := fun n (h : Shard) => n = shardKey b st → h.st ≠ .bad ∧ h.st ≠ .missing) fun e _ hkey => ?_
  exact e.2.again_st (by rwa [hkey, hbank])
theorem State.requestAgain_leaves (hstaging : s.weights.staging.isSome) :
    let t := s.requestAgain
    t.weights.staging = s.weights.staging ∧ t.weights.wres = 0x300 ∧
      (∀ b st, b ∈ s.stagingBanks → st < 5000 → (t.shard b st).st ≠ .bad ∧ (t.shard b st).st ≠ .missing) ∧
      t.cores = s.cores ∧ t.mem = s.mem := by
  have hlost (b : Bool) (st : Nat) (hb : b ∈ s.stagingBanks) (hst : st < 5000) := State.shard_wantsAgain hb hst
  obtain ⟨hweights, hcores, hmem⟩ := s.wantsAgain.offWeights_askPeer
  rw [State.requestAgain_accepted hstaging]
  generalize s.wantsAgain.askPeer = u at hweights hcores hmem ⊢
  have hstaged : u.weights.staging = s.weights.staging := by rw [hweights]; rfl
  refine ⟨hstaged, rfl, fun b st hb hst => ?_, hcores, hmem⟩
  have hshard : u.shard b st = s.wantsAgain.shard b st := by rw [State.shard, hweights, State.shard]
  exact hshard ▸ hlost b st hb hst

end

/-- Settles O44, by what emptying banks leaves and the shards that REQUEST AGAIN replaces. -/
theorem stagingCommands : Obligations.StagingCommands := by
  unfold Obligations.StagingCommands
  intro s
  obtain ⟨hcancel, hagain, -, -⟩ := s.weightCmd_plain
  refine ⟨fun cap source place epoch layoutId => ⟨rfl, s.weightCmd_stage cap source place epoch layoutId⟩, ⟨rfl, hcancel⟩,
    ⟨rfl, hagain⟩, fun l b h => ?_, fun cap source place epoch layoutId => ⟨fun h => ?_, fun hplace hepoch h => ?_,
    fun hplace hepoch hfree hstops hserving => ?_, fun hplace hepoch hfree hserving => ?_⟩, fun h => ?_, fun hstaging hswitch => ?_, fun h => ?_,
    fun h => State.requestAgain_leaves h⟩
  · rw [State.weightBoundary, h, List.foldl_append]
    rfl
  · have hcode := State.stageCode_operands (s := s) (cap := cap) h
    rw [State.stage_refused (by rw [hcode]; decide), hcode]
    exact s.weightResult_leaves 1 5
  · have hcode := State.stageCode_busy (cap := cap) hplace hepoch h
    rw [State.stage_refused (by rw [hcode]; decide), hcode]
    exact s.weightResult_leaves 1 1
  · have hcode := (State.stageCode_free (cap := cap) hplace hepoch hfree).trans (if_pos ⟨hstops, hserving⟩)
    rw [State.stage_refused (by rw [hcode]; decide), hcode]
    exact s.weightResult_leaves 1 2
  · have hcode := (State.stageCode_free (cap := cap) hplace hepoch hfree).trans (if_neg (by tauto))
    obtain ⟨hstaging, hbanks, hholds, hres, hdue, houtside⟩ := State.stage_leaves (peer := source) (layoutId := layoutId) hcode
    refine ⟨hstaging, hbanks, fun b hb => ?_, hres, hdue, State.time_of_clock (s.stage_clock ..), houtside⟩
    obtain ⟨k, H⟩ := hholds b hb
    exact ⟨H.version, fun st hst => by rw [H.shard st hst]; exact ⟨rfl, rfl⟩, H.core⟩
  · rw [State.cancelStage_refused h]
    exact s.weightResult_leaves 2 1
  · obtain ⟨hnone, hres, hholds, hdue, houtside⟩ := State.cancelStage_leaves hstaging hswitch
    exact ⟨hnone, hres, fun b hb => ⟨(hholds b hb).version, (hholds b hb).shard, (hholds b hb).core⟩, hdue, houtside⟩
  · rw [State.requestAgain_refused h]
    exact s.weightResult_leaves 3 1

end Sys2Proof.Machine
end

section
/-! ARM, DISARM, ACTIVATE and SCRUB NOW (09 R279, R289, R292, R296, R297). Of several conditions that fail, the one answered is the
model's choice (log 40); ACTIVATE closes the staging (log 89). -/

namespace Sys2Proof.Machine

/-- A result alone. -/
theorem State.weightResult_only (s : State) (op code : Nat) :
    let t := s.weightResult op code
    t = { s with weights := t.weights, host := t.host } ∧ t.host.msixDue.getLsbD 16 = true :=
  ⟨rfl, State.due_msixDue _ (by decide)⟩
/-- A change of the weights with its result. -/
theorem State.modWeights_only (s : State) (f : Weights → Weights) (op code : Nat) :
    let t := (s.modWeights f).weightResult op code
    t = { s with weights := t.weights, host := t.host } ∧ t.host.msixDue.getLsbD 16 = true :=
  ⟨rfl, State.due_msixDue _ (by decide)⟩

section
variable {s : State} {nmod epoch grace : Nat}

/-! ## ARM (R279, R297) -/

theorem State.armCode_eq_zero : s.armCode nmod epoch grace = 0 ↔
    1 ≤ nmod ∧ nmod ≤ 80 ∧ grace ≤ 4096 ∧ epoch ≠ 0 ∧ s.weights.capmode = false ∧ (s.version (!s.weights.ptrB)).cap = false ∧
      s.weights.sw.graceOpen = false ∧ (s.version (!s.weights.ptrB)).epoch = epoch ∧
      (s.version (!s.weights.ptrB)).layoutId.toNat = s.layoutNow := by
  unfold State.armCode
  dsimp only
  split_ifs with hoperand hbusy hlayout
  · exact iff_of_false (by decide) fun ⟨_, _, _, _, _⟩ => by omega
  · exact iff_of_false (by decide) fun ⟨_, _, _, _, hcapmode, hcap, hgrace, hepoch, _⟩ => by simp [hcapmode, hcap, hgrace, hepoch] at hbusy
  · exact iff_of_false (by decide) fun ⟨_, _, _, _, _, _, _, _, hl⟩ => hlayout hl
  · simp only [not_or, Bool.not_eq_true, not_not] at hbusy
    obtain ⟨hcapmode, hcap, hgrace, hepoch⟩ := hbusy
    exact iff_of_true rfl ⟨by omega, by omega, by omega, by omega, hcapmode, hcap, hgrace, hepoch, not_not.mp hlayout⟩
theorem State.armCode_mem (h : s.armCode nmod epoch grace ≠ 0) : s.armCode nmod epoch grace ∈ [1, 3, 5] := by
  revert h
  unfold State.armCode
  dsimp only
  split_ifs <;> decide
theorem State.arm_refused (h : s.armCode nmod epoch grace ≠ 0) :
    s.arm nmod epoch grace = s.weightResult 4 (s.armCode nmod epoch grace) := if_pos h
theorem State.arm_accepted (h : s.armCode nmod epoch grace = 0) : s.arm nmod epoch grace =
    (s.modWeights fun w => { w with sw := { st := 1, epoch := epoch, nmod := nmod, grace := grace, members := nmod } }).weightResult 4 0 :=
  if_neg (not_not.mpr h)

/-! ## DISARM (R292) -/

theorem State.disarm_unarmed (h1 : s.weights.sw.st ≠ 1) (h2 : s.weights.sw.st ≠ 2) : s.disarm = s.weightResult 5 1 := if_pos ⟨h1, h2⟩
theorem State.disarm_serving (h2 : s.weights.sw.st = 2) (h : s.serving.state ≠ 0) : s.disarm = s.weightResult 5 2 := by
  rw [State.disarm, if_neg (by simp [h2]), if_pos (by simp [h2, State.stopped, h])]
theorem State.disarm_armed (h1 : s.weights.sw.st = 1) :
    s.disarm = (s.modWeights fun v => { v with sw := { members := s.weights.sw.members } }).weightResult 5 0 := by
  simp [State.disarm, h1]
/-- A module that has arrived at the switch barrier also takes its arrival back (R357). -/
theorem State.disarm_arrived (h2 : s.weights.sw.st = 2) (h : s.serving.state = 0) :
    s.disarm = ((s.withdrawArrival.bankSt s.newBank (fun k => k == .compute) .idle).modWeights fun v =>
      { v with sw := { members := s.weights.sw.members } }).weightResult 5 0 := by
  simp [State.disarm, h2, State.stopped, h]

/-! ## ACTIVATE (R279, R297) -/

theorem State.activateCode_eq_zero : s.activateCode epoch = 0 ↔ epoch ≠ 0 ∧ s.weights.sw.graceOpen = false ∧ s.activeBanks epoch ≠ [] ∧
    s.serving.state = 0 ∧ (s.activeBanks epoch).all s.bankComplete = true := by
  unfold State.activateCode
  split_ifs with hepoch hversion hserving hcomplete
  · exact iff_of_false (by decide) fun h => h.1 hepoch
  · exact iff_of_false (by decide) fun ⟨_, hgrace, hbanks, _⟩ => by simp [hgrace, hbanks] at hversion
  · exact iff_of_false (by decide) fun ⟨_, _, _, hstop, _⟩ => by simp [State.stopped, hstop] at hserving
  · exact iff_of_false (by decide) fun ⟨_, _, _, _, hall⟩ => by simp [hall] at hcomplete
  · simp only [not_or, Bool.not_eq_true] at hversion
    exact iff_of_true rfl ⟨hepoch, hversion.1, hversion.2, by simpa [State.stopped] using hserving, by simpa using hcomplete⟩
theorem State.activateCode_mem (h : s.activateCode epoch ≠ 0) : s.activateCode epoch ∈ [1, 2, 4, 5] := by
  revert h
  unfold State.activateCode
  split_ifs <;> decide
theorem State.activate_refused (h : s.activateCode epoch ≠ 0) : s.activate epoch = s.weightResult 6 (s.activateCode epoch) := if_pos h

/-- Every core takes a change, listed or not. -/
theorem State.get_allCores (s : State) (f : Core → Core) {n : Nat} (h : n < 85000) :
    Tab.get {} (s.allCores f).cores n = f (Tab.get {} s.cores n) := by
  have hmem : n ∈ List.range 85000 := List.mem_range.mpr h
  rw [State.allCores, Tab.get_tabulate (fun n => f (Tab.get {} s.cores n)), if_pos hmem]
/-- Bank states alone change. -/
theorem State.foldl_bankSt (p : BankState → Bool) (v : BankState) (l : List Bool) (s : State) :
    l.foldl (fun s k => s.bankSt k p v) s = { s with cores := (l.foldl (fun s k => s.bankSt k p v) s).cores } := by
  induction l generalizing s with
  | nil => rfl
  | cons k l ih =>
    rw [List.foldl_cons, ih]
    rfl
/-- The old banks are IDLE and those of the version named compute. -/
def State.banksSwitched (s : State) (bs : List Bool) : State :=
  bs.foldl (fun s k => s.bankSt k (fun t => t == .idle) .compute)
    ((s.bankSt false (fun k => k == .compute) .idle).bankSt true (fun k => k == .compute) .idle)
theorem State.banksSwitched_frame (s : State) (bs : List Bool) : s.banksSwitched bs = { s with cores := (s.banksSwitched bs).cores } := by
  rw [State.banksSwitched, State.foldl_bankSt]
  rfl
/-- The pointer and the capacity mode of every array, and the current epoch. -/
def State.makesCurrent (s : State) (b cap : Bool) (epoch : Nat) : State :=
  ((s.allCores fun c => { c with bptrB := b, capmode := cap }).modWeights fun w =>
    { w with ptrB := b, capmode := cap, current := epoch, staging := none }).weightResult 6 0
theorem State.makesCurrent_stands (s : State) (b cap : Bool) (epoch : Nat) : (s.makesCurrent b cap epoch).stands = s.stands := by
  rw [State.makesCurrent, State.weightResult, State.due_stands, State.modWeights_stands, State.modWeights_stands, State.allCores]
theorem State.makesCurrent_mem (s : State) (b cap : Bool) (epoch : Nat) : (s.makesCurrent b cap epoch).mem = s.mem := by
  rw [State.makesCurrent, State.weightResult, State.due_mem, State.modWeights_mem, State.modWeights_mem, State.allCores]
theorem State.makesCurrent_cores (s : State) (b cap : Bool) (epoch : Nat) :
    (s.makesCurrent b cap epoch).cores = (s.allCores fun c => { c with bptrB := b, capmode := cap }).cores := by
  rw [State.makesCurrent, State.weightResult, State.due_cores, State.modWeights_cores, State.modWeights_cores]
theorem State.makesCurrent_core (s : State) (b cap : Bool) (epoch : Nat) {n : Nat} (h : n < 85000) :
    (Tab.get {} (s.makesCurrent b cap epoch).cores n).bptrB = b ∧ (Tab.get {} (s.makesCurrent b cap epoch).cores n).capmode = cap := by
  rw [State.makesCurrent_cores, State.get_allCores _ _ h]
  exact ⟨rfl, rfl⟩
theorem State.activate_accepted (h : s.activateCode epoch = 0) : ∃ b, s.activate epoch =
    (s.banksSwitched (s.activeBanks epoch)).makesCurrent b (decide ((s.activeBanks epoch).length = 2)) epoch :=
  ⟨if decide ((s.activeBanks epoch).length = 2) then s.weights.ptrB else (s.activeBanks epoch).headD false, by
    rw [State.activate, h, if_neg (by decide)]
    unfold State.makesCurrent State.banksSwitched
    with_reducible rfl⟩

end

/-- Settles O45, by the conditions of each command and what it leaves. -/
theorem switchCommands : Obligations.SwitchCommands := by
  unfold Obligations.SwitchCommands
  intro s
  obtain ⟨-, -, hdisarm, hscrub⟩ := s.weightCmd_plain
  refine ⟨fun nmod epoch grace => ⟨rfl, s.weightCmd_arm nmod epoch grace⟩, ⟨rfl, hdisarm⟩, ⟨rfl, hscrub⟩,
    fun epoch => ⟨rfl, s.weightCmd_activate epoch⟩, fun nmod epoch grace => ?_, fun h1 h2 => ?_, fun h1 => ?_, fun h2 hserving => ?_,
    fun h2 hstopped => ?_, fun epoch => ?_, s.modWeights_only .., rfl⟩
  · have hok := State.armCode_eq_zero (s := s) (nmod := nmod) (epoch := epoch) (grace := grace)
    by_cases hcode : s.armCode nmod epoch grace = 0
    · rw [State.arm_accepted hcode]
      exact ⟨s.modWeights_only .., fun _ => rfl, fun h => absurd (hok.mp hcode) h⟩
    · rw [State.arm_refused hcode]
      exact ⟨s.weightResult_only .., fun h => absurd (hok.mpr h) hcode, fun _ => ⟨_, State.armCode_mem hcode, rfl⟩⟩
  · rw [State.disarm_unarmed h1 h2]
    exact ⟨s.weightResult_only .., rfl⟩
  · rw [State.disarm_armed h1]
    exact ⟨s.modWeights_only .., rfl⟩
  · rw [State.disarm_serving h2 hserving]
    exact ⟨s.weightResult_only .., rfl⟩
  · rw [State.disarm_arrived h2 hstopped]
    exact ⟨rfl, rfl⟩
  · have hok := State.activateCode_eq_zero (s := s) (epoch := epoch)
    refine ⟨fun h => ?_, fun h => ?_⟩
    · have hcode := hok.mpr h
      obtain ⟨b, ht⟩ := State.activate_accepted hcode
      have hframe := s.banksSwitched_frame (s.activeBanks epoch)
      rw [ht]
      generalize s.banksSwitched (s.activeBanks epoch) = u at hframe
      obtain ⟨hstands, hmem⟩ : u.stands = s.stands ∧ u.mem = s.mem := by rw [hframe]; exact ⟨rfl, rfl⟩
      refine ⟨rfl, rfl, rfl, rfl, fun n hn => State.makesCurrent_core u _ _ epoch hn, ?_, ?_⟩
      · rw [State.makesCurrent_stands, hstands]
      · rw [State.makesCurrent_mem, hmem]
    · have hcode := fun hc => h (hok.mp hc)
      rw [State.activate_refused hcode]
      exact ⟨s.weightResult_only .., _, State.activateCode_mem hcode, rfl⟩

end Sys2Proof.Machine
end

section
/-! A scrub read that rebuilds a shard whose recorded header is longer than 256 bytes (09 R294 to R296). -/

namespace Sys2Proof.Machine

/-- Bytes stored over bursts that read clean. -/
theorem State.tierByte_tierWrite_in (s : State) (b : Bool) (a : Nat) (bs : List Byte) (node : Nat) (hclean : ∀ k, s.wrongBurst b k = 0) {i : Nat}
    (hi : i < bs.length) (ht : a + i < tierSize b) : (s.tierWrite b a bs node).tierByte b (a + i) = bs.getD i 0 := by
  rw [State.tierWrite_clean s b a bs node fun k _ => hclean k]
  exact State.tierByte_putTier_in _ b a bs hi ht
/-- A shard's part of the master area begins with its header (R294). -/
theorem State.tierByte_rebuildShard (s : State) (b : Bool) (st : Nat) (hclean : ∀ k, s.wrongBurst true k = 0) {i : Nat}
    (hi : i < (s.shard b st).hdr.length) (ht : masterAt b st + i < tierSize true) :
    (s.rebuildShard b st).tierByte true (masterAt b st + i) = (s.shard b st).hdr.getD i 0 := by
  have hlen : i < (packShard (s.shard b st).hdr (s.readBack b st)).length := by
    rw [packShard, List.length_append]
    omega
  rw [State.rebuildShard, State.putMaster, State.tierByte_tierWrite_in s true _ _ _ hclean hlen ht, packShard,
    List.getD_append _ _ _ _ hi]

/-- The last shard of bank B, VERIFIED under a header, with a burst of its master copy lost and the scrub read of its first array due. -/
def lostCopy (hdr : List Byte) : State :=
  { State.reset with
    weights :=
      { shards := [(shardKey true 4999, { st := .verified, hdr })], scrubLeft := [80000 + 4999 * 16], scrubAsap := true,
        masterErr := [masterAt true 4999] } }
/-- The same once the read has ended its round and the lost copy is taken up. -/
def lostCopyRead (hdr : List Byte) : State :=
  { State.reset with weights := { shards := [(shardKey true 4999, { st := .verified, hdr })], scrubAsap := true } }

theorem lostCopy_due (hdr : List Byte) : (lostCopy hdr).scrubDue (80000 + 4999 * 16) = true := rfl
theorem lostCopy_bank (hdr : List Byte) : (((lostCopy hdr).core 4999 (((lostCopy hdr).stand 4999).coreAt 0)).bank true).st = .empty := rfl
/-- The array is EMPTY, so the read compares nothing, and the lost master copy is rebuilt from the arrays (Tables 9.10 and 12.3). -/
theorem lostCopy_exec (hdr : List Byte) :
    exec (.scrubRead true 4999 0) (lostCopy hdr) = .next (((lostCopyRead hdr).rebuildShard true 4999).count 0x531009) := by
  have hround : (lostCopy hdr).scrubRound = lostCopy hdr := rfl
  have hexec : exec (.scrubRead true 4999 0) (lostCopy hdr) = execScrubRead true 4999 0 (lostCopy hdr) := rfl
  rw [hexec, execScrubRead, hround]
  rfl

/-- Refutes O46: of a shard whose recorded header has a byte more than its part of the master area, the rebuilt copy ends outside the
master areas. A header of any length is a state of the model; the shards that arrive leave headers of 256 bytes. -/
theorem not_shardCommands : ¬ Obligations.ShardCommands := by
  unfold Obligations.ShardCommands
  intro h
  obtain ⟨hdr, hlen, hlast⟩ : ∃ hdr : List Byte, 526592 < hdr.length ∧ hdr.getD 526592 0 = 1 :=
    ⟨List.replicate 526593 1, by rw [List.length_replicate]; decide, List.getD_replicate _ (by decide)⟩
  obtain ⟨-, -, -, -, -, -, -, hscrub⟩ := h (lostCopy hdr)
  obtain ⟨hread, -, -⟩ := hscrub true 4999 0
  obtain ⟨t, hexec, -, ⟨-, houtside⟩, -⟩ :=
    hread (lostCopy_due hdr) (.inl fun hc => absurd ((lostCopy_bank hdr).symm.trans hc) (by decide))
  have ht := Host.Outcome.next.inj ((lostCopy_exec hdr).symm.trans hexec)
  have hstored : (((lostCopyRead hdr).rebuildShard true 4999).tierByte true 69265920000) = hdr.getD 526592 0 :=
    State.tierByte_rebuildShard (lostCopyRead hdr) true 4999 (fun _ => rfl) hlen (by decide)
  have hsame : t.tierByte true 69265920000 = 0 := houtside 69265920000 (.inr (by decide))
  rw [← ht] at hsame
  exact absurd (hlast.symm.trans (hstored.symm.trans hsame)) (by decide)

end Sys2Proof.Machine
end

section
/-! Adapter slots as bytes of tier A, and what the forester's bus agent leaves when it writes them (09 R298, Table 9.9; 10 R305, R316,
R327). -/

namespace Sys2Proof.Machine

/-! ## Slot headers (Table 9.9) -/

/-- The bytes of a slot header. -/
def slotBytes (a : ASlot) : List Byte :=
  leBytes 4 a.ident ++ leBytes 2 a.gen ++ leBytes 1 a.st ++ leBytes 1 0 ++ leBytes 4 a.refs ++ leBytes 4 a.first ++ leBytes 4 a.length ++
    List.replicate 12 0 ++ slice a.digest 0 32
theorem length_slotBytes (a : ASlot) : (slotBytes a).length = 64 := by
  simp [slotBytes, length_leBytes, length_slice]
theorem slotBytes_fields (a : ASlot) :
    field (slotBytes a) 0 4 = a.ident % 2 ^ 32 ∧ field (slotBytes a) 4 2 = a.gen % 65536 ∧ field (slotBytes a) 6 1 = a.st % 256 := by
  simp [slotBytes, field_leBytes, field_leBytes_behind]
/-- Bytes stored within the tier read back as they are. -/
theorem State.tierBytes_putTier (s : State) (b : Bool) (a : Nat) (bs : List Byte) (h : a + bs.length ≤ tierSize b) :
    (s.putTier b a bs).tierBytes b a bs.length = bs := by
  refine List.ext_getElem (by simp [State.tierBytes]) fun i hi hi' => ?_
  simp only [State.tierBytes, List.getElem_map, List.getElem_range]
  rw [State.tierByte_putTier_in s b a bs hi' (by omega), List.getD_eq_getElem _ _ hi']

section
variable {s t : State} {n : Nat} (hn : n < 4096)
include hn

/-- A slot header just written (Table 9.9). -/
theorem State.slotHdr_putSlotHdr (a : ASlot) : ((s.putSlotHdr n a).slotHdr n).ident = a.ident % 2 ^ 32 ∧
    ((s.putSlotHdr n a).slotHdr n).gen = a.gen % 65536 ∧ ((s.putSlotHdr n a).slotHdr n).st = a.st % 256 := by
  have hbytes : (s.putSlotHdr n a).tierBytes false (n * 16777216) 64 = slotBytes a := by
    have h := s.tierBytes_putTier false (n * 16777216) (slotBytes a) (by rw [length_slotBytes, tierSize]; simp; omega)
    rwa [length_slotBytes] at h
  obtain ⟨hident, hgen, hst⟩ := slotBytes_fields a
  simp only [State.slotHdr, hbytes]
  exact ⟨hident, hgen, hst⟩

end

/-- A slot header is the 64 bytes that begin its slot. -/
theorem State.slotHdr_of_bytes {s t : State} {n : Nat}
    (h : ∀ i, i < 64 → t.tierByte false (n * 16777216 + i) = s.tierByte false (n * 16777216 + i)) : t.slotHdr n = s.slotHdr n := by
  have hbytes : t.tierBytes false (n * 16777216) 64 = s.tierBytes false (n * 16777216) 64 :=
    List.map_congr_left fun i hi => h i (List.mem_range.mp hi)
  rw [State.slotHdr, hbytes, State.slotHdr]

/-! ## Writes to tier A over bursts that read clean (R305, R316) -/

/-- The weights and adapter tables, tier B and every counter but that of refusals are the same (R327). -/
structure State.tierAWork (s t : State) : Prop where
  weights : t.weights = s.weights
  tierB : t.mem.tierB = s.mem.tierB
  counter : ∀ k, k ≠ 0x527008 → t.counter k = s.counter k

section
variable {s t u : State}

theorem State.tierAWork.trans (h : s.tierAWork t) (k : t.tierAWork u) : s.tierAWork u :=
  ⟨k.weights.trans h.weights, k.tierB.trans h.tierB, fun n hn => (k.counter n hn).trans (h.counter n hn)⟩
theorem State.tierAWork_count (s : State) (n : Nat) : s.tierAWork (s.count 0x527008 n) :=
  ⟨rfl, rfl, fun _ hk => State.counter_count_ne _ _ hk⟩
theorem State.tierAWork_putTier (s : State) (a : Nat) (bs : List Byte) : s.tierAWork (s.putTier false a bs) := ⟨rfl, rfl, fun _ _ => rfl⟩
theorem State.tierAWork_putSlotHdr (s : State) (n : Nat) (a : ASlot) : s.tierAWork (s.putSlotHdr n a) := s.tierAWork_putTier ..
theorem State.tierAWork_fresh (l : List Nat) (s : State) : s.tierAWork (l.foldl (fun s k => s.freshBurst false k) s) := by
  induction l generalizing s with
  | nil => exact ⟨rfl, rfl, fun _ _ => rfl⟩
  | cons k l ih =>
    have hone : s.tierAWork (s.freshBurst false k) := ⟨rfl, rfl, fun _ _ => rfl⟩
    rw [List.foldl_cons]
    exact hone.trans (ih _)

end

section
variable {s : State} (hclean : ∀ b k, s.wrongBurst b k = 0)
include hclean

/-- The bus agent's request is refused by the endpoints away, and sent again (R327). -/
theorem State.tierRead_forester (b : Bool) (a n : Nat) :
    s.tierRead b a n foresterNode = (s.tierBytes b a n, s.count 0x527008 (s.refusedAt b a n)) :=
  (State.tierRead_clean s b a n foresterNode fun k _ => hclean b k).trans (congrArg (Prod.mk _) (if_neg (by decide)))
theorem State.tierWrite_forester (a : Nat) (bs : List Byte) : s.tierWrite false a bs foresterNode =
    ((burstsOf a bs.length).foldl (fun s k => s.freshBurst false k) (s.count 0x527008 (s.refusedAt false a bs.length))).putTier false a bs := by
  rw [State.tierWrite_clean s false a bs foresterNode fun k _ => hclean false k, State.tierAsk, if_neg (by decide)]
theorem State.tierAWork_tierWrite (a : Nat) (bs : List Byte) : s.tierAWork (s.tierWrite false a bs foresterNode) := by
  rw [State.tierWrite_forester hclean]
  exact ((s.tierAWork_count _).trans (State.tierAWork_fresh ..)).trans (State.tierAWork_putTier ..)
theorem State.tierByte_tierWrite_below (a : Nat) (bs : List Byte) {k : Nat} (hk : k < a) :
    (s.tierWrite false a bs foresterNode).tierByte false k = s.tierByte false k := by
  rw [State.tierWrite_forester hclean, State.tierByte_putTier_out _ _ _ _ _ _ (.inr (.inl hk)), State.tierByte_fresh]
  rfl

end

end Sys2Proof.Machine
end

section
/-! Adapter commands (09 R298). The order of the conditions that fail is the model's choice (log 40). -/

namespace Sys2Proof.Machine

theorem State.slotHdr_adapterResult (s : State) (op code n : Nat) : (s.adapterResult op code).slotHdr n = s.slotHdr n :=
  State.slotHdr_congr rfl n
theorem State.slotHdr_modWeights (s : State) (f : Weights → Weights) (n : Nat) : (s.modWeights f).slotHdr n = s.slotHdr n :=
  State.slotHdr_congr rfl n
theorem State.slotHdr_count (s : State) (k m n : Nat) : (s.count k m).slotHdr n = s.slotHdr n := State.slotHdr_congr rfl n

section
variable {s u : State}

/-- An image that is mapped at the next boundary. -/
theorem State.tierAWork.mapped (h : s.tierAWork u) (ident n : Nat) :
    let t := (u.modWeights fun w => { w with mapDue := w.mapDue ++ [(ident, n)] }).adapterResult 1 0
    t.weights.ares = 0x100 ∧ t.weights.mapDue = s.weights.mapDue ++ [(ident, n)] ∧ t.slotHdr n = u.slotHdr n ∧ t.mem.tierB = s.mem.tierB :=
  ⟨rfl, congrArg (fun w : Weights => w.mapDue ++ [(ident, n)]) h.weights,
    (State.slotHdr_adapterResult ..).trans (State.slotHdr_modWeights ..), h.tierB⟩
/-- An image that is dropped, which is counted. -/
theorem State.tierAWork.dropped (h : s.tierAWork u) (n : Nat) :
    let t := (u.count 0x532002).adapterResult 1 6
    t.weights.ares = 0x106 ∧ t.weights.mapDue = s.weights.mapDue ∧ t.slotHdr n = u.slotHdr n ∧
      t.counter 0x532002 = (s.counter 0x532002 + 1) % 2 ^ 64 := by
  have hdue : u.weights.mapDue = s.weights.mapDue := by rw [h.weights]
  have hcounter : ((u.count 0x532002).adapterResult 1 6).counter 0x532002 = (u.count 0x532002).counter 0x532002 := rfl
  refine ⟨rfl, hdue, (State.slotHdr_adapterResult ..).trans (State.slotHdr_count ..), ?_⟩
  rw [hcounter, State.counter_count, h.counter _ (by decide)]

end

section
variable {s : State} {ident off len : Nat} {digest : List Byte}

/-! ## LOAD (R298) -/

theorem State.adapterLoad_operands (h : ident = 0 ∨ off % 8 ≠ 0 ∨ 16777152 < len ∨ 64000000000 < off + len) :
    s.adapterLoad ident off len digest = s.adapterResult 1 5 := if_pos h
/-- The header of a slot that takes an image under the next generation, LOADING (Table 9.9). -/
def State.loadingSlot (s : State) (n ident len : Nat) (digest : List Byte) : ASlot :=
  { ident, gen := ((s.slotHdr n).gen + 1) % 65536, st := 1, refs := 0, first := if len = 0 then 0 else 64, length := len,
    digest := slice digest 0 32 }
/-- The image is read, and stored behind the header of its slot. -/
def State.storesImage (s : State) (n ident off len : Nat) (digest : List Byte) : State :=
  ((s.count 0x527008 (s.refusedAt true off len)).putSlotHdr n (s.loadingSlot n ident len digest)).tierWrite false (n * 16777216 + 64)
    (s.tierBytes true off len) foresterNode

section
variable (hclean : ∀ b k, s.wrongBurst b k = 0) {n : Nat} (hn : n < 4096)
include hclean

theorem State.storesImage_leaves : s.tierAWork (s.storesImage n ident off len digest) := by
  refine (((s.tierAWork_count _).trans (State.tierAWork_putTier ..))).trans (State.tierAWork_tierWrite (fun b k => ?_) ..)
  rw [State.wrongBurst_putTier]
  exact hclean b k
include hn
theorem State.slotHdr_storesImage : ((s.storesImage n ident off len digest).slotHdr n).ident = ident % 2 ^ 32 ∧
    ((s.storesImage n ident off len digest).slotHdr n).gen = ((s.slotHdr n).gen + 1) % 65536 ∧
    ((s.storesImage n ident off len digest).slotHdr n).st = 1 := by
  obtain ⟨hident, hgen, hst⟩ :=
    State.slotHdr_putSlotHdr (s := s.count 0x527008 (s.refusedAt true off len)) hn (s.loadingSlot n ident len digest)
  rw [State.storesImage, State.slotHdr_of_bytes fun i hi => State.tierByte_tierWrite_below (fun b k => ?_) _ _ (by omega)]
  · exact ⟨hident, hgen.trans (Nat.mod_mod _ _), hst⟩
  · rw [State.putSlotHdr, State.wrongBurst_putTier]
    exact hclean b k

end

section
variable (hok : ¬ (ident = 0 ∨ off % 8 ≠ 0 ∨ 16777152 < len ∨ 64000000000 < off + len))
include hok

theorem State.adapterLoad_held (h : s.identHeld ident = true) : s.adapterLoad ident off len digest = s.adapterResult 1 1 :=
  (if_neg hok).trans (if_pos h)
variable (hnew : s.identHeld ident = false)
include hnew
theorem State.adapterLoad_full (h : ((List.range 4096).find? fun n => (s.slotHdr n).st = 0) = none) :
    s.adapterLoad ident off len digest = s.adapterResult 1 7 := by
  rw [State.adapterLoad, if_neg hok, hnew, if_neg Bool.false_ne_true, h]
variable (hclean : ∀ b k, s.wrongBurst b k = 0) {n : Nat} (hslot : ((List.range 4096).find? fun n => (s.slotHdr n).st = 0) = some n)
include hclean hslot
/-- What LOAD does with a free slot. -/
theorem State.adapterLoad_slot : s.adapterLoad ident off len digest =
      if sha256 (s.tierBytes true off len) = slice digest 0 32 ∧ imageOk (s.tierBytes true off len) then
        ((s.storesImage n ident off len digest).modWeights fun w => { w with mapDue := w.mapDue ++ [(ident, n)] }).adapterResult 1 0
      else (((s.storesImage n ident off len digest).putSlotHdr n { gen := ((s.slotHdr n).gen + 1) % 65536 }).count 0x532002).adapterResult 1 6 := by
  rw [State.adapterLoad, if_neg hok, hnew, if_neg Bool.false_ne_true, hslot]
  dsimp only
  rw [State.tierRead_forester hclean]
  rfl
/-- An image whose digest and form agree takes the slot, and is mapped at the next boundary. -/
theorem State.adapterLoad_good
    (hgood : sha256 (s.tierBytes true off len) = slice digest 0 32 ∧ imageOk (s.tierBytes true off len) = true) :
    let t := s.adapterLoad ident off len digest
    t.weights.ares = 0x100 ∧ t.weights.mapDue = s.weights.mapDue ++ [(ident, n)] ∧ (t.slotHdr n).ident = ident % 2 ^ 32 ∧
      (t.slotHdr n).st = 1 ∧ (t.slotHdr n).gen = ((s.slotHdr n).gen + 1) % 65536 ∧ t.mem.tierB = s.mem.tierB := by
  have hn : n < 4096 := List.mem_range.mp (List.mem_of_find?_eq_some hslot)
  have hload := (State.adapterLoad_slot (digest := digest) hok hnew hclean hslot).trans (if_pos hgood)
  have hwork := State.storesImage_leaves (n := n) (ident := ident) (off := off) (len := len) (digest := digest) hclean
  obtain ⟨hident, hgen, hst⟩ := State.slotHdr_storesImage (ident := ident) (off := off) (len := len) (digest := digest) hclean hn
  generalize s.storesImage n ident off len digest = u at hload hwork hident hgen hst
  obtain ⟨hares, hdue, hsame, htierB⟩ := hwork.mapped ident n
  rw [hload]
  refine ⟨hares, hdue, ?_, ?_, ?_, htierB⟩ <;> rw [hsame]
  · exact hident
  · exact hst
  · exact hgen
/-- Any other image is dropped: the slot is FREE, under the generation that it took. -/
theorem State.adapterLoad_bad
    (hbad : sha256 (s.tierBytes true off len) ≠ slice digest 0 32 ∨ imageOk (s.tierBytes true off len) = false) :
    let t := s.adapterLoad ident off len digest
    t.weights.ares = 0x106 ∧ t.weights.mapDue = s.weights.mapDue ∧ (t.slotHdr n).st = 0 ∧
      t.counter 0x532002 = (s.counter 0x532002 + 1) % 2 ^ 64 := by
  have hgood : ¬ (sha256 (s.tierBytes true off len) = slice digest 0 32 ∧ imageOk (s.tierBytes true off len) = true) :=
    fun hgood => hbad.elim (fun h => h hgood.1) fun h => Bool.false_ne_true (h.symm.trans hgood.2)
  have hn : n < 4096 := List.mem_range.mp (List.mem_of_find?_eq_some hslot)
  have hload := (State.adapterLoad_slot (digest := digest) hok hnew hclean hslot).trans (if_neg hgood)
  have hwork := State.storesImage_leaves (n := n) (ident := ident) (off := off) (len := len) (digest := digest) hclean
  generalize s.storesImage n ident off len digest = u at hload hwork
  obtain ⟨-, -, hfree⟩ := State.slotHdr_putSlotHdr (s := u) hn { gen := ((s.slotHdr n).gen + 1) % 65536 }
  have hfreed := hwork.trans (u.tierAWork_putSlotHdr n { gen := ((s.slotHdr n).gen + 1) % 65536 })
  generalize u.putSlotHdr n { gen := ((s.slotHdr n).gen + 1) % 65536 } = v at hload hfree hfreed
  obtain ⟨hares, hdue, hsame, hcounter⟩ := hfreed.dropped n
  rw [hload]
  exact ⟨hares, hdue, (congrArg ASlot.st hsame).trans hfree, hcounter⟩

end

/-! ## REMOVE (R298) -/

theorem State.adapterRemove_none
    (h : ((List.range 4096).find? fun n => decide (ident ≠ 0 ∧ (s.slotHdr n).ident = ident ∧ (s.slotHdr n).st = 2)) = none) :
    s.adapterRemove ident = s.adapterResult 2 (if ident = 0 then 5 else 1) := by
  unfold State.adapterRemove
  rw [h]
/-- A LIVE slot is RETIRED, and its identifier is unmapped at the next boundary. -/
theorem State.adapterRemove_live {n : Nat}
    (h : ((List.range 4096).find? fun n => decide (ident ≠ 0 ∧ (s.slotHdr n).ident = ident ∧ (s.slotHdr n).st = 2)) = some n) :
    let t := s.adapterRemove ident
    t.weights.ares = 0x200 ∧ (t.slotHdr n).st = 3 ∧ (t.slotHdr n).ident = ident % 2 ^ 32 ∧
      t.weights.unmapDue = s.weights.unmapDue ++ [ident] := by
  have hn : n < 4096 := List.mem_range.mp (List.mem_of_find?_eq_some h)
  have hlive := List.find?_some h
  obtain ⟨-, hident, -⟩ := of_decide_eq_true hlive
  obtain ⟨hident', -, hst⟩ := State.slotHdr_putSlotHdr (s := s) hn { s.slotHdr n with st := 3 }
  have hwork := s.tierAWork_putSlotHdr n { s.slotHdr n with st := 3 }
  unfold State.adapterRemove
  rw [h]
  dsimp only
  generalize s.putSlotHdr n { s.slotHdr n with st := 3 } = u at hident' hst hwork ⊢
  have hdue : u.weights.unmapDue ++ [ident] = s.weights.unmapDue ++ [ident] := by rw [hwork.weights]
  rw [State.slotHdr_adapterResult, State.slotHdr_modWeights]
  exact ⟨rfl, hst, hident'.trans (congrArg (· % 2 ^ 32) hident), hdue⟩

end

end Sys2Proof.Machine
end

section
/-! Binary commands (06 R189 to R191). The order of the conditions that fail is the model's choice (log 40). -/

namespace Sys2Proof.Machine

section
variable {s : State} {off len beat : Nat}

/-! ## LOAD (R191) -/

theorem State.binaryLoad_busy (h : s.binary.activate.isSome = true) : s.binaryLoad off len = s.binaryResult 1 1 := if_pos h
theorem State.binaryLoad_operands (hidle : s.binary.activate = none)
    (h : off % 8 ≠ 0 ∨ len < 656 ∨ 1073741824 < len ∨ 64000000000 < off + len) : s.binaryLoad off len = s.binaryResult 1 5 := by
  rw [State.binaryLoad, hidle, if_neg (by decide), if_pos h]
/-- What becomes of the container read: staged, or dropped by the first check that fails (R189). -/
theorem State.binaryLoad_read (hclean : ∀ b k, s.wrongBurst b k = 0) (hidle : s.binary.activate = none)
    (hok : ¬ (off % 8 ≠ 0 ∨ len < 656 ∨ 1073741824 < len ∨ 64000000000 < off + len)) :
    let u := s.count 0x527008 (s.refusedAt true off len)
    let b := s.tierBytes true off len
    let put := fun (c : Option (List Byte)) => ({ u with binary := { s.binary with staged := c } } : State)
    s.binaryLoad off len = if !s.conSigned b then ((put none).count 0x512004).binaryResult 1 6
      else if !conChecked b (s.power.debug == 1) then (put none).binaryResult 1 8 else (put (some b)).binaryResult 1 0 := by
  have hread := State.tierRead_forester hclean true off len
  rw [foresterNode] at hread
  rw [State.binaryLoad, hidle, if_neg (by decide), if_neg hok, hread]
  rfl

/-! ## ACTIVATE (R191) -/

theorem State.binaryCode_eq_zero : s.binaryCode beat = 0 ↔
    s.binary.activate = none ∧ beat < 2 ^ 48 ∧ s.serving.state = 0 ∧ ∃ b, s.binary.staged = some b ∧ s.layoutFits b = true := by
  unfold State.binaryCode
  cases hstaged : s.binary.staged with
  | none =>
    refine iff_of_false ?_ fun ⟨_, _, _, b, hb, _⟩ => absurd hb (by simp)
    split_ifs <;> decide
  | some c =>
    dsimp only
    split_ifs with hbusy hbeat hserving hlayout
    · exact iff_of_false (by decide) fun h => by simp [h.1] at hbusy
    · exact iff_of_false (by decide) fun h => by omega
    · exact iff_of_false (by decide) fun ⟨_, _, hstop, _⟩ => by simp [State.stopped, hstop] at hserving
    · refine iff_of_false (by decide) fun ⟨_, _, _, b, hb, hfit⟩ => ?_
      rw [Option.some.inj hb, hfit] at hlayout
      exact absurd hlayout (by decide)
    · exact iff_of_true rfl ⟨by simpa using hbusy, by omega, by simpa [State.stopped] using hserving, c, rfl, by simpa using hlayout⟩
theorem State.binaryCode_mem (h : s.binaryCode beat ≠ 0) : s.binaryCode beat ∈ [1, 2, 3, 5, 9] := by
  revert h
  unfold State.binaryCode
  cases s.binary.staged <;> dsimp only <;> split_ifs <;> decide
theorem State.binaryActivate_refused (h : s.binaryCode beat ≠ 0) : s.binaryActivate beat = s.binaryResult 2 (s.binaryCode beat) := if_pos h
theorem State.binaryActivate_accepted (h : s.binaryCode beat = 0) : s.binaryActivate beat =
    ({ s with binary := { s.binary with activate := some beat } } : State).binaryResult 2 0 := if_neg (not_not.mpr h)

end

/-- Settles O47, by the slot headers that LOAD and REMOVE leave and the conditions of the binary commands. -/
theorem adaptersAndBinaries : Obligations.AdaptersAndBinaries := by
  unfold Obligations.AdaptersAndBinaries
  intro s hclean
  refine ⟨fun ident off len digest => ?_, fun ident => ⟨fun h => ?_, fun n h => ?_⟩,
    fun off len => ⟨fun h => ?_, fun hidle hok => ?_⟩, fun beat => ?_⟩
  · have hzero : ident.toNat = 0 ↔ ident = 0 := BitVec.toNat_inj (y := 0)
    have hops : (ident.toNat = 0 ∨ off.toNat % 8 ≠ 0 ∨ 16777152 < len.toNat ∨ 64000000000 < off.toNat + len.toNat) ↔
        (ident = 0 ∨ off.toNat % 8 ≠ 0 ∨ 16777152 < len.toNat ∨ 64000000000 < off.toNat + len.toNat) := or_congr_left hzero
    refine ⟨fun h => ⟨_, rfl, ?_⟩, fun hok hheld => ⟨_, rfl, ?_⟩, fun hok hnew hfull => ⟨_, rfl, ?_⟩, fun n hok hnew hslot => ?_⟩
    · rw [State.adapterLoad_operands (hops.mpr h)]
      exact ⟨rfl, rfl⟩
    · rw [State.adapterLoad_held (fun h => hok (hops.mp h)) hheld]
      exact ⟨rfl, rfl⟩
    · rw [State.adapterLoad_full (fun h => hok (hops.mp h)) hnew hfull]
      exact ⟨rfl, rfl⟩
    · have hok' := fun h => hok (hops.mp h)
      refine ⟨fun hgood => ⟨_, rfl, ?_⟩, fun hbad => ⟨_, rfl, State.adapterLoad_bad hok' hnew hclean hslot hbad⟩⟩
      have hgives := State.adapterLoad_good hok' hnew hclean hslot hgood
      rwa [Nat.mod_eq_of_lt ident.isLt] at hgives
  · refine ⟨_, rfl, ?_⟩
    have hzero : ident.toNat = 0 ↔ ident = 0 := BitVec.toNat_inj (y := 0)
    rw [State.adapterRemove_none h]
    refine ⟨?_, rfl⟩
    by_cases hz : ident = 0
    · rw [if_pos (hzero.mpr hz), if_pos hz]
      rfl
    · rw [if_neg (fun h => hz (hzero.mp h)), if_neg hz]
      rfl
  · refine ⟨_, rfl, ?_⟩
    have hlive := State.adapterRemove_live h
    rwa [Nat.mod_eq_of_lt ident.isLt] at hlive
  · refine ⟨_, rfl, ?_⟩
    by_cases hbusy : s.binary.activate.isSome = true
    · rw [State.binaryLoad_busy hbusy, if_pos hbusy]
      exact ⟨rfl, rfl⟩
    · rw [State.binaryLoad_operands (Option.not_isSome_iff_eq_none.mp hbusy) (h.resolve_left hbusy), if_neg hbusy]
      exact ⟨rfl, rfl⟩
  · refine ⟨_, rfl, ?_⟩
    rw [State.binaryLoad_read hclean hidle hok]
    cases hsigned : s.conSigned (s.tierBytes true off.toNat len.toNat)
    · exact ⟨rfl, rfl⟩
    · cases hchecked : conChecked (s.tierBytes true off.toNat len.toNat) (s.power.debug == 1)
      · exact ⟨rfl, rfl⟩
      · exact ⟨rfl, rfl⟩
  · have hok := State.binaryCode_eq_zero (s := s) (beat := beat.toNat)
    refine ⟨_, rfl, ?_⟩
    by_cases hcode : s.binaryCode beat.toNat = 0
    · rw [State.binaryActivate_accepted hcode]
      exact ⟨rfl, State.due_msixDue _ (by decide), fun _ => rfl, fun h => absurd (hok.mp hcode) h⟩
    · rw [State.binaryActivate_refused hcode]
      exact ⟨rfl, State.due_msixDue _ (by decide), fun h => absurd (hok.mpr h) hcode, fun _ => ⟨_, State.binaryCode_mem hcode, rfl⟩⟩

end Sys2Proof.Machine
end

section
/-! What an access to a tier leaves when every burst reads clean (10 R305, R316, R327): bytes, and a counter of refusals. -/

namespace Sys2Proof.Machine

/-! ## Counters -/

section
variable (s : State) (c : Prop) [Decidable c] {k m : Nat}

/-- An event that is counted on a condition. -/
theorem State.counter_ite_count : (if c then s.count k else s).counter k = if c then (s.counter k + 1) % 2 ^ 64 else s.counter k := by
  rw [apply_ite (fun t : State => t.counter k), State.counter_count]
theorem State.counter_ite_count_ne (h : m ≠ k) : (if c then s.count k else s).counter m = s.counter m := by
  rw [apply_ite (fun t : State => t.counter m), State.counter_count_ne s 1 h, ite_self]
theorem State.ite_count_frame : (if c then s.count k else s) = { s with counters := (if c then s.count k else s).counters } := by
  split <;> rfl

end

/-! ## Units that leave service (R326) -/

theorem State.node_leave (s : State) (n cause : Nat) (away : Bool) :
    (s.leave n cause away).node n = { inc := nextInc (s.node n).inc, cause := cause, away := away || (s.node n).away } :=
  s.node_modNode n _
theorem State.node_leave_ne (s : State) {n m : Nat} (cause : Nat) (away : Bool) (h : m ≠ n) : (s.leave n cause away).node m = s.node m :=
  s.node_modNode_ne _ h

/-! ## Reading and writing (R316) -/

theorem State.tierAsk_frame (s : State) (b : Bool) (a n node : Nat) :
    s.tierAsk b a n node = { s with counters := (s.tierAsk b a n node).counters } := by
  unfold State.tierAsk
  split <;> rfl
theorem State.counter_tierAsk_ne (s : State) (b : Bool) (a n node : Nat) {k : Nat} (h : k ≠ 0x527008) :
    (s.tierAsk b a n node).counter k = s.counter k := by
  unfold State.tierAsk
  split
  case isTrue => rfl
  case isFalse => exact State.counter_count_ne _ _ h
theorem State.length_tierBytes (s : State) (b : Bool) (a n : Nat) : (s.tierBytes b a n).length = n := by
  rw [State.tierBytes, List.length_map, List.length_range]
theorem State.getD_tierBytes (s : State) (b : Bool) (a : Nat) {n i : Nat} (h : i < n) : (s.tierBytes b a n).getD i 0 = s.tierByte b (a + i) := by
  rw [List.getD_eq_getElem _ _ (by rwa [State.length_tierBytes])]
  simp [State.tierBytes]

/-- What a write of bytes at a tier address leaves over bursts that read clean. -/
structure State.stored (s t : State) (b : Bool) (a : Nat) (bs : List Byte) : Prop where
  frame : t = { s with mem := t.mem, counters := t.counters }
  arbs : t.mem.arbs = s.mem.arbs
  within : ∀ i, i < bs.length → a + i < tierSize b → t.tierByte b (a + i) = bs.getD i 0
  outside : ∀ c k, c ≠ b ∨ k < a ∨ a + bs.length ≤ k → t.tierByte c k = s.tierByte c k
  counter : ∀ k, k ≠ 0x527008 → t.counter k = s.counter k

theorem State.putTier_frame (s : State) (b : Bool) (a : Nat) (bs : List Byte) :
    ∃ tierA tierB, s.putTier b a bs = { s with mem := { s.mem with tierA := tierA, tierB := tierB } } := by
  cases b <;> exact ⟨_, _, rfl⟩
theorem State.freshBursts_frame (b : Bool) (l : List Nat) : ∀ s : State,
    ∃ wrongA wrongB, l.foldl (fun s k => s.freshBurst b k) s = { s with mem := { s.mem with wrongA := wrongA, wrongB := wrongB } } := by
  induction l with
  | nil => exact fun s => ⟨_, _, rfl⟩
  | cons k l ih =>
    intro s
    obtain ⟨wrongA, wrongB, he⟩ := ih (s.freshBurst b k)
    refine ⟨wrongA, wrongB, ?_⟩
    rw [List.foldl_cons, he]
    cases b <;> rfl
theorem State.stored_tierWrite {s : State} (hclean : ∀ b k, s.wrongBurst b k = 0) (b : Bool) (a : Nat) (bs : List Byte) (node : Nat) :
    s.stored (s.tierWrite b a bs node) b a bs := by
  rw [State.tierWrite_clean s b a bs node fun k _ => hclean b k]
  generalize burstsOf a bs.length = l
  have hbyte : ∀ c k, (l.foldl (fun s k => s.freshBurst b k) (s.tierAsk b a bs.length node)).tierByte c k = s.tierByte c k := fun c k => by
    rw [State.tierByte_fresh, State.tierByte, State.tierAsk_mem, State.tierByte]
  refine ⟨?_, ?_, fun i hi ht => State.tierByte_putTier_in _ b a bs hi ht,
    fun c k h => (State.tierByte_putTier_out _ b c a k bs h).trans (hbyte c k), fun k hk => ?_⟩
  all_goals
    obtain ⟨wrongA, wrongB, hfresh⟩ := State.freshBursts_frame b l (s.tierAsk b a bs.length node)
    rw [hfresh]
    obtain ⟨tierA, tierB, hput⟩ := State.putTier_frame { s.tierAsk b a bs.length node with
      mem := { (s.tierAsk b a bs.length node).mem with wrongA := wrongA, wrongB := wrongB } } b a bs
    rw [hput]
  · rw [State.tierAsk_frame]
  · rw [State.tierAsk_mem]
  · exact s.counter_tierAsk_ne b a bs.length node hk

end Sys2Proof.Machine
end

section
/-! The arbiters' queues: which request is picked, what an arrival leaves, which holder is stuck (10 R319 to R325). -/

namespace Sys2Proof.Machine

theorem State.arb_modArb_ne (s : State) {n m : Nat} (f : Arbiter → Arbiter) (h : m ≠ n) : (s.modArb n f).arb m = s.arb m := by
  simp [State.arb, State.modArb, Tab.get_set_ne _ _ _ h]
theorem State.arb_congr {s t : State} (h : t.mem.arbs = s.mem.arbs) (k : Nat) : t.arb k = s.arb k := by rw [State.arb, h, State.arb]

/-! ## The request picked (R320, R323) -/

/-- Every requester of the arbiter has its turn in the cyclic order. -/
theorem mem_cyclicOrder {n r : Nat} (last : Nat) (hr : r < n) : r ∈ (List.range n).map fun i => (last + 1 + i) % n := by
  have hm : (last + 1) % n < n := Nat.mod_lt _ (Nat.zero_lt_of_lt hr)
  rw [List.mem_map]
  by_cases h : (last + 1) % n ≤ r
  · refine ⟨r - (last + 1) % n, List.mem_range.mpr (by omega), ?_⟩
    rw [← Nat.mod_add_mod, Nat.add_sub_cancel' h, Nat.mod_eq_of_lt hr]
  · refine ⟨r + n - (last + 1) % n, List.mem_range.mpr (by omega), ?_⟩
    rw [← Nat.mod_add_mod, Nat.add_sub_cancel' (by omega), Nat.add_mod_right, Nat.mod_eq_of_lt hr]
/-- A requester that alone has a request is picked. -/
theorem cyclicPick_only {n r : Nat} (last : Nat) {has : Nat → Bool} (hr : r < n) (h : ∀ k, has k = true ↔ k = r) :
    cyclicPick n last has = some r := by
  have hsome : (cyclicPick n last has).isSome = true := List.find?_isSome.mpr ⟨r, mem_cyclicOrder last hr, (h r).mpr rfl⟩
  obtain ⟨k, hk⟩ := Option.isSome_iff_exists.mp hsome
  rw [hk, (h k).mp (List.find?_some hk)]

/-- Highest rank with a request. -/
def State.topRank (s : State) (a : Nat) : Nat := ((s.arb a).queue.map fun q => s.rank a q.requester).foldl max 0
theorem State.rank_le_topRank (s : State) {a : Nat} {q : ArbReq} (h : q ∈ (s.arb a).queue) : s.rank a q.requester ≤ s.topRank a := by
  rw [State.topRank, List.foldl_max]
  exact le_max_of_le_right (List.le_max?_getD_of_mem (List.mem_map_of_mem h))

/-- A requester has a request of the highest rank. -/
def State.hasTop (s : State) (a r : Nat) : Bool := s.rank a r == s.topRank a && (s.arb a).queue.any fun q => q.requester == r

section
variable {s : State} {a : Nat} {q : ArbReq}

theorem State.arbPick_locked {l : Nat × Nat × Nat} (hl : (s.arb a).lock = some l) :
    s.arbPick a = (s.arb a).queue.find? fun q => q.requester = l.1 ∧ q.node = l.2.1 := by
  rw [State.arbPick]
  simp only [hl]
theorem State.arbPick_free (hl : (s.arb a).lock = none) : s.arbPick a =
    (cyclicPick (requesters a) (Tab.get (requesters a - 1) (s.arb a).lastGrant (s.topRank a)) (s.hasTop a)).bind
      fun r => (s.arb a).queue.find? fun q => q.requester = r := by
  rw [State.arbPick]
  simp only [hl]
  unfold State.hasTop State.topRank
  split
  case h_1 r hr => rw [hr, Option.bind_some]
  case h_2 hr => rw [hr, Option.bind_none]
theorem State.arbPick_cases (h : s.arbPick a = some q) :
    (∃ l, (s.arb a).lock = some l ∧ q ∈ (s.arb a).queue ∧ q.requester = l.1 ∧ q.node = l.2.1) ∨
      ((s.arb a).lock = none ∧ q ∈ (s.arb a).queue ∧ s.rank a q.requester = s.topRank a) := by
  cases hl : (s.arb a).lock with
  | some l =>
    rw [State.arbPick_locked hl] at h
    obtain ⟨hreq, hnode⟩ : q.requester = l.1 ∧ q.node = l.2.1 := by simpa using List.find?_some h
    exact .inl ⟨l, rfl, List.mem_of_find?_eq_some h, hreq, hnode⟩
  | none =>
    rw [State.arbPick_free hl, Option.bind_eq_some_iff] at h
    obtain ⟨r, hr, hq⟩ := h
    have hreq : q.requester = r := by simpa using List.find?_some hq
    have htop := List.find?_some hr
    rw [State.hasTop, Bool.and_eq_true, beq_iff_eq] at htop
    exact .inr ⟨rfl, List.mem_of_find?_eq_some hq, hreq ▸ htop.1⟩
theorem State.mem_of_arbPick (h : s.arbPick a = some q) : q ∈ (s.arb a).queue := by
  rcases State.arbPick_cases h with ⟨_, _, hmem, _⟩ | ⟨_, hmem, _⟩ <;> exact hmem
/-- Outside a locked sequence no request of a higher rank waits. -/
theorem State.rank_le_of_arbPick (h : s.arbPick a = some q) (hl : (s.arb a).lock = none) :
    ∀ o, o ∈ (s.arb a).queue → s.rank a o.requester ≤ s.rank a q.requester := by
  rcases State.arbPick_cases h with ⟨l, hlock, _⟩ | ⟨_, _, htop⟩
  · exact absurd (hl.symm.trans hlock) (by simp)
  · exact fun o ho => (s.rank_le_topRank ho).trans_eq htop.symm
/-- In a locked sequence the owner's request is picked. -/
theorem State.owner_of_arbPick (h : s.arbPick a = some q) (l : Nat × Nat × Nat) (hl : (s.arb a).lock = some l) :
    q.requester = l.1 ∧ q.node = l.2.1 := by
  rcases State.arbPick_cases h with ⟨l', hlock, _, howner⟩ | ⟨hfree, _⟩
  · exact Option.some.inj (hlock.symm.trans hl) ▸ howner
  · exact absurd (hfree.symm.trans hl) (by simp)
theorem State.arbPick_nil (h : (s.arb a).queue = []) : s.arbPick a = none :=
  Option.eq_none_iff_forall_not_mem.mpr fun _ hq => absurd (h ▸ State.mem_of_arbPick hq) List.not_mem_nil
theorem State.arbPick_only (hl : (s.arb a).lock = none) (hq : (s.arb a).queue = [q]) (hr : q.requester < requesters a) :
    s.arbPick a = some q := by
  have htop : s.topRank a = s.rank a q.requester := by
    rw [State.topRank, hq]
    exact Nat.zero_max _
  have hhas : ∀ k, s.hasTop a k = true ↔ k = q.requester := fun k => by
    rw [State.hasTop, htop, hq, List.any_cons, List.any_nil, Bool.or_false, Bool.and_eq_true, beq_iff_eq, beq_iff_eq]
    exact ⟨fun h => h.2.symm, fun h => ⟨by rw [h], h.symm⟩⟩
  rw [State.arbPick_free hl, cyclicPick_only _ hr hhas, Option.bind_some, hq]
  exact List.find?_cons_of_pos (decide_eq_true rfl)

/-! ## Room and idleness (R321) -/

theorem Arbiter.ownedBy_iff (x : Arbiter) (q : ArbReq) : x.ownedBy q = true ↔ ∃ k, x.lock = some (q.requester, q.node, k) := by
  unfold Arbiter.ownedBy
  rcases x.lock with _ | ⟨r, n, k⟩
  · simp
  · simp only [decide_eq_true_eq, Option.some.injEq, Prod.mk.injEq]
    exact ⟨fun ⟨hr, hn⟩ => ⟨k, hr, hn, rfl⟩, fun ⟨_, hr, hn, _⟩ => ⟨hr, hn⟩⟩
theorem Arbiter.room_iff (x : Arbiter) (q : ArbReq) : x.room q = true ↔
    x.queue.length < 31 ∨ ((∃ k, x.lock = some (q.requester, q.node, k)) ∧ x.queue.length < 32) := by
  rw [Arbiter.room, Bool.or_eq_true, Bool.and_eq_true, decide_eq_true_eq, decide_eq_true_eq, Arbiter.ownedBy_iff]
theorem Arbiter.idle_of_empty {x : Arbiter} (hq : x.queue = []) (hl : x.lock = none) (q : ArbReq) : x.idle q = true := by
  rw [Arbiter.idle, hq, hl]
  rfl
/-- A request without LOCK is never too late (R325). -/
theorem State.late_unlocked (s : State) (a : Nat) (h : q.lock = false) : s.late a q = false := by
  rw [State.late, h, Bool.and_false]

/-! ## A request that takes an entry (R321, R325) -/

theorem State.arb_park (s : State) (a : Nat) (q : ArbReq) :
    (s.park a q).arb a = { (s.arb a).progress q s.time.tick with queue := (s.arb a).queue ++ [q] } := s.arb_modArb a _
theorem Arbiter.progress_frame (x : Arbiter) (q : ArbReq) (now : Nat) : x.progress q now = { x with holder := (x.progress q now).holder } := by
  unfold Arbiter.progress
  split <;> rfl
theorem Arbiter.progress_unowned {x : Arbiter} (h : ¬ (x.ownedBy q = true ∧ q.lock = true)) (now : Nat) : x.progress q now = x := if_neg h
theorem Arbiter.progress_owned {x : Arbiter} (h : x.ownedBy q = true ∧ q.lock = true) (now : Nat) :
    (x.progress q now).holder = x.holder.map fun h => (h.1, now) := by
  rw [Arbiter.progress, if_pos h]
theorem State.parked_park (s : State) (a : Nat) (q : ArbReq) : s.parked (s.park a q) a q := by
  refine ⟨rfl, fun k hk => s.arb_modArb_ne _ hk, ?_⟩
  rw [State.arb_park, Arbiter.progress_frame]

/-! ## Stuck holders (R325) -/

theorem State.stuck_eq_some {t : Nat} (hh : (s.arb a).holder = some (q, t)) (ht : t + us (s.setting 0x250007 10) ≤ s.time.tick) :
    s.stuck a = some q := by
  rw [State.stuck, hh]
  exact if_pos ht
theorem State.stuck_eq_none (h : ∀ q t, (s.arb a).holder = some (q, t) → ¬ t + us (s.setting 0x250007 10) ≤ s.time.tick) :
    s.stuck a = none := by
  unfold State.stuck
  split
  case h_1 hh => exact if_neg (h _ _ hh)
  case h_2 => rfl

/-! ## Arrivals and grants (R320, R321) -/

theorem State.reqArrive_busy (hl : s.late a q = false) (hi : (s.arb a).idle q = false) :
    s.reqArrive a q = if (s.arb a).room q = true then some (s.park a q) else none := by
  rw [State.reqArrive, hl, hi]
  rfl
/-- An idle arbiter's grants after the arrival, burst by burst. -/
theorem State.reqArrive_idle (hl : s.late a q = false) (hi : (s.arb a).idle q = true) : s.reqArrive a q =
    some ((List.range 4).foldl (fun s _ => ((s.arbPick a).map (s.grantReq a)).getD s) (s.park a q)) := by
  rw [State.reqArrive, hl, hi]
  refine congrArg some (congrArg (fun f => List.foldl f (s.park a q) (List.range 4)) ?_)
  funext s _
  cases s.arbPick a <;> rfl

/-- The arbiter after the grant of q, of which a rest may be left (R320, R323, R324). -/
def State.grantedArb (s : State) (a : Nat) (q : ArbReq) (left : Option ArbReq) (x : Arbiter) : Arbiter :=
  let l := lockAfter x.lock q.requester q.node q.lockNow
  { x with queue := afterGrant q left x.queue, holder := if l.isSome then some (q, s.time.tick) else none, lock := l,
           lastGrant := Tab.set (requesters a - 1) x.lastGrant (s.rank a q.requester) q.requester,
           stats := Tab.set {} x.stats q.requester
             ((Tab.get {} x.stats q.requester).grant ((s.time.tick - q.since) * arbCycles a)) }
theorem State.grantReq_eq (s : State) (a : Nat) (q : ArbReq) : s.grantReq a q =
    let t := (s.serveReq (5000 + a) q).1.modArb a (s.grantedArb a q (s.serveReq (5000 + a) q).2)
    if ((s.arb a).lock.isNone && q.lockNow) = true then t.count 0x527007 else t := rfl

end

end Sys2Proof.Machine
end

section
/-! Patrol reads (10 R305, R311; 12 R370, R377, Table 12.3). -/

namespace Sys2Proof.Machine

/-! ## A burst that is read (R305, R370, R377) -/

section
variable (s : State) (b : Bool)

theorem State.retirePch_frame (p : Nat) : ∃ retire, s.retirePch p = { s with mem := { s.mem with retire := retire } } := by
  unfold State.retirePch
  split <;> exact ⟨_, rfl⟩
/-- The history of a burst is in three tables. -/
theorem State.burstNote_frame (a w : Nat) : ∃ retire ueSeen pchCorr,
    s.burstNote b a w = { s with mem := { s.mem with retire := retire, ueSeen := ueSeen, pchCorr := pchCorr } } := by
  have hnoted (u c : Tab Nat) (p : Nat) : ∃ retire ueSeen pchCorr,
      ({ s with mem := { s.mem with ueSeen := u, pchCorr := c } } : State).retirePch p =
        { s with mem := { s.mem with retire := retire, ueSeen := ueSeen, pchCorr := pchCorr } } := by
    obtain ⟨retire, he⟩ := State.retirePch_frame { s with mem := { s.mem with ueSeen := u, pchCorr := c } } p
    exact ⟨retire, u, c, he⟩
  unfold State.burstNote
  dsimp only
  split_ifs
  · exact ⟨_, _, _, rfl⟩
  · exact hnoted _ _ _
  · exact ⟨_, _, _, rfl⟩
  · exact hnoted _ _ _
  · exact ⟨_, _, _, rfl⟩
/-- The owner of a lost burst notes a fault, marks a slot header of tier A, or stops the module (Table 12.3). -/
theorem State.ownerUe_frame (a : Nat) : ∃ tierA serving weights rel counters host, s.ownerUe b a =
    { s with mem := { s.mem with tierA := tierA }, serving := serving, weights := weights, rel := rel, counters := counters, host := host } := by
  unfold State.ownerUe
  dsimp only
  split_ifs
  · exact ⟨_, _, _, _, _, _, rfl⟩
  · exact ⟨_, _, _, _, _, _, rfl⟩
  · exact ⟨_, _, _, _, _, _, rfl⟩
  · exact ⟨_, _, _, _, _, _, rfl⟩
  · exact ⟨_, _, _, _, _, _, rfl⟩
  · exact ⟨_, _, _, _, _, _, rfl⟩
  · exact ⟨_, _, _, _, _, _, State.faultStop_frame ..⟩
theorem State.counter_ownerUe_ne (a : Nat) {k : Nat} (h : k ≠ 0x540007) (hl : k ≠ 0x540002) : (s.ownerUe b a).counter k = s.counter k := by
  unfold State.ownerUe
  dsimp only
  split_ifs
  · rfl
  · rfl
  · rfl
  · rfl
  · rfl
  · rfl
  · exact State.counter_faultStop_ne _ _ h hl

variable {s b} {node k : Nat}

theorem State.burstRead_single (h : s.wrongBurst b k = 1) (bound : Bool) : s.burstRead b node k bound =
    (s.burstNote b (64 * k) 1).count (if b then 0x527003 else 0x527001) := by
  rw [State.burstRead, h]
  rfl
/-- An edge unit is quarantined by no burst. -/
theorem State.burstRead_lost (hn : 5000 ≤ node) (h : 2 ≤ s.wrongBurst b k) (bound : Bool) : ∃ r, s.burstRead b node k bound =
    (((s.burstNote b (64 * k) (s.wrongBurst b k)).count (if b then 0x527004 else 0x527002)).log r).ownerUe b (64 * k) := by
  have hread : s.wrongBurst b k ≠ 0 ∧ s.wrongBurst b k ≠ 1 := ⟨by omega, by omega⟩
  have hedge : ¬ (bound = true ∧ node < 5000) := fun hb => absurd hb.2 (Nat.not_lt.mpr hn)
  unfold State.burstRead
  dsimp only
  rw [if_neg hread.1, if_neg hread.2, if_neg hedge]
  exact ⟨_, rfl⟩

end

/-! ## A patrol read (R311) -/

/-- Burst k is read by the endpoint's maintenance engine, and a single error corrected. -/
def State.patrolChecked (s : State) (b : Bool) (node k : Nat) : State :=
  if s.wrongBurst b k = 1 then (s.burstRead b node k).freshBurst b k else s.burstRead b node k
/-- The patrol goes on to the next burst, or ends its round. -/
def State.patrolMoved (s : State) (node k : Nat) : State :=
  let t : State := { s with mem := { s.mem with patrol := Tab.set 0 s.mem.patrol node (k + 1) } }
  if tierSize (endpointBurst node k).1 ≤ (endpointBurst node (k + 1)).2 then t.patrolEnd node else t
theorem State.patrolBurst_eq (s : State) (node k : Nat) : s.patrolBurst node k =
    (s.patrolChecked (endpointBurst node k).1 node ((endpointBurst node k).2 / 64)).patrolMoved node k := rfl

section
variable (s : State) (node k : Nat)

theorem State.patrolMoved_frame : ∃ patrol patrolStart pchCorr counters, s.patrolMoved node k = { s with
    mem := { s.mem with patrol := patrol, patrolStart := patrolStart, pchCorr := pchCorr }, counters := counters } := by
  unfold State.patrolMoved
  dsimp only
  split <;> exact ⟨_, _, _, _, rfl⟩
theorem State.patrol_patrolMoved : Tab.get 0 (s.patrolMoved node k).mem.patrol node =
    if tierSize (endpointBurst node k).1 ≤ (endpointBurst node (k + 1)).2 then 0 else k + 1 := by
  unfold State.patrolMoved
  dsimp only
  split
  case isTrue => exact Tab.get_set_eq 0 (Tab.set 0 s.mem.patrol node (k + 1)) node 0
  case isFalse => exact Tab.get_set_eq 0 s.mem.patrol node (k + 1)
theorem State.counter_patrolMoved_ne {j : Nat} (h : j ≠ 0x52700B) : (s.patrolMoved node k).counter j = s.counter j := by
  unfold State.patrolMoved
  dsimp only
  split
  case isTrue => exact State.counter_count_ne _ 1 h
  case isFalse => rfl

end

/-- First counter of corrected bursts of a tier, and of lost ones. -/
theorem tierCounter_eq (b : Bool) : (if b then 0x527003 else 0x527001) = 0x527001 + (if b = true then 2 else 0) ∧
    (if b then 0x527004 else 0x527002) = 0x527002 + (if b = true then 2 else 0) := by cases b <;> exact ⟨rfl, rfl⟩

/-- In t the burst reads clean, no byte and no other burst differs, and a single error was counted. -/
structure State.corrected (s t : State) (b : Bool) (k : Nat) : Prop where
  frame : t = { s with mem := t.mem, counters := t.counters }
  tierA : t.mem.tierA = s.mem.tierA
  tierB : t.mem.tierB = s.mem.tierB
  arbs : t.mem.arbs = s.mem.arbs
  wrong : ∀ c j, t.wrongBurst c j = if c = b ∧ j = k then 0 else s.wrongBurst c j
  counter : t.counter (0x527001 + if b = true then 2 else 0) = if s.wrongBurst b k = 1 then
    (s.counter (0x527001 + if b = true then 2 else 0) + 1) % 2 ^ 64 else s.counter (0x527001 + if b = true then 2 else 0)
/-- In t no burst differs in its wrong symbols, and a lost burst was counted. -/
structure State.lostBurst (s t : State) (b : Bool) : Prop where
  arbs : t.mem.arbs = s.mem.arbs
  time : t.time = s.time
  wrong : ∀ c j, t.wrongBurst c j = s.wrongBurst c j
  counter : t.counter (0x527002 + if b = true then 2 else 0) = (s.counter (0x527002 + if b = true then 2 else 0) + 1) % 2 ^ 64

section
variable {s : State} {b : Bool} {node k : Nat}

theorem State.patrolChecked_clean (h : s.wrongBurst b k = 0) : s.patrolChecked b node k = s := by
  rw [State.patrolChecked, if_neg (by rw [h]; decide), State.burstRead_clean s b node k true h]
theorem State.corrected_clean (h : s.wrongBurst b k = 0) : s.corrected s b k := by
  refine ⟨rfl, rfl, rfl, rfl, fun c j => ?_, by rw [h, if_neg Nat.zero_ne_one]⟩
  split
  case isTrue hk => rw [hk.1, hk.2, h]
  case isFalse => rfl
theorem State.corrected_patrolChecked (h : s.wrongBurst b k ≤ 1) : s.corrected (s.patrolChecked b node k) b k := by
  rcases Nat.le_one_iff_eq_zero_or_eq_one.mp h with h | h
  · rw [State.patrolChecked_clean h]
    exact State.corrected_clean h
  · obtain ⟨retire, ueSeen, pchCorr, hnote⟩ := s.burstNote_frame b (64 * k) 1
    rw [State.patrolChecked, if_pos h, State.burstRead_single h, hnote, (tierCounter_eq b).1]
    refine ⟨?_, ?_, ?_, ?_, fun c j => State.wrongBurst_freshBurst _ b c k j, ?_⟩
    case refine_5 =>
      rw [if_pos h]
      cases b <;> exact State.counter_count ..
    all_goals cases b <;> rfl
theorem State.lostBurst_patrolChecked (hn : 5000 ≤ node) (h : 2 ≤ s.wrongBurst b k) : s.lostBurst (s.patrolChecked b node k) b := by
  obtain ⟨r, hread⟩ := State.burstRead_lost hn h true
  obtain ⟨retire, ueSeen, pchCorr, hnote⟩ := s.burstNote_frame b (64 * k) (s.wrongBurst b k)
  rw [hnote, (tierCounter_eq b).2] at hread
  rw [State.patrolChecked, if_neg (by omega), hread]
  have hcounter : ∀ t : State, (t.ownerUe b (64 * k)).counter (0x527002 + if b = true then 2 else 0) =
      t.counter (0x527002 + if b = true then 2 else 0) := fun t =>
    t.counter_ownerUe_ne b (64 * k) (by split <;> decide) (by split <;> decide)
  refine ⟨?_, ?_, fun c j => ?_, ?_⟩
  case refine_4 => rw [hcounter, State.counter_log_ne _ _ (by split <;> decide)]; exact State.counter_count ..
  all_goals
    obtain ⟨tierA, serving, weights, rel, counters, host, howner⟩ := State.ownerUe_frame _ b (64 * k)
    rw [howner, State.log_frame]
    rfl

/-- The patrol that goes on touches no byte, no burst and no counter of bursts. -/
theorem State.corrected_patrolBurst (h : s.wrongBurst (endpointBurst node k).1 ((endpointBurst node k).2 / 64) ≤ 1) :
    s.corrected (s.patrolBurst node k) (endpointBurst node k).1 ((endpointBurst node k).2 / 64) := by
  obtain ⟨hframe, htierA, htierB, harbs, hwrong, hcounter⟩ := State.corrected_patrolChecked (node := node) h
  rw [State.patrolBurst_eq]
  generalize s.patrolChecked _ node _ = t at hframe htierA htierB harbs hwrong hcounter
  have hstays := t.counter_patrolMoved_ne node k (j := 0x527001 + if (endpointBurst node k).1 = true then 2 else 0) (by split <;> decide)
  obtain ⟨patrol, patrolStart, pchCorr, counters, he⟩ := t.patrolMoved_frame node k
  refine ⟨?_, ?_, ?_, ?_, fun c j => ?_, hstays.trans hcounter⟩
  · rw [he, hframe]
  · rw [he, htierA]
  · rw [he, htierB]
  · rw [he, harbs]
  · rw [he, ← hwrong c j]
    rfl
theorem State.lostBurst_patrolBurst (hn : 5000 ≤ node)
    (h : 2 ≤ s.wrongBurst (endpointBurst node k).1 ((endpointBurst node k).2 / 64)) :
    s.lostBurst (s.patrolBurst node k) (endpointBurst node k).1 := by
  obtain ⟨harbs, htime, hwrong, hcounter⟩ := State.lostBurst_patrolChecked hn h
  rw [State.patrolBurst_eq]
  generalize s.patrolChecked _ node _ = t at harbs htime hwrong hcounter
  have hstays := t.counter_patrolMoved_ne node k (j := 0x527002 + if (endpointBurst node k).1 = true then 2 else 0) (by split <;> decide)
  obtain ⟨patrol, patrolStart, pchCorr, counters, he⟩ := t.patrolMoved_frame node k
  refine ⟨?_, ?_, fun c j => ?_, hstays.trans hcounter⟩
  · rw [he, harbs]
  · rw [he, htime]
  · rw [he, ← hwrong c j]
    rfl
theorem State.arbs_patrolBurst (s : State) (hn : 5000 ≤ node) (k : Nat) : (s.patrolBurst node k).mem.arbs = s.mem.arbs :=
  (Nat.lt_or_ge 1 (s.wrongBurst (endpointBurst node k).1 ((endpointBurst node k).2 / 64))).elim
    (fun h => (State.lostBurst_patrolBurst hn h).arbs) fun h => (State.corrected_patrolBurst h).arbs

/-! ## At an idle arbiter (R320) -/

/-- The request of a patrol read. -/
def patrolReq (node off now : Nat) : ArbReq :=
  { requester := 20, node := node, burst := (endpointBurst node off).2 / 64, lock := false, since := now, work := .patrol off }
/-- A patrol read that is due, at an arbiter of a memory endpoint. -/
def State.patrols (s : State) (node off : Nat) : Prop := 5000 ≤ node ∧ node < 5088 ∧ s.patrolDue node off = true

theorem exec_patrolRead {s : State} {node : NodeId} {off : Nat} (h : s.patrols node off) : exec (.patrolRead node off) s =
    .next ((s.reqArrive (node.val - 5000) (patrolReq node off s.time.tick)).getD s) := by
  obtain ⟨hlow, hhigh, hdue⟩ := h
  refine if_neg ?_
  rintro (h | h | h)
  · exact absurd h (Nat.not_lt.mpr hlow)
  · exact absurd h (Nat.not_le.mpr hhigh)
  · rw [hdue] at h
    exact Bool.false_ne_true h
theorem exec_patrolRead_none {s : State} {node : NodeId} {off : Nat} (h : ¬ s.patrols node off) : exec (.patrolRead node off) s = .next s := by
  refine if_pos ?_
  rw [Bool.not_eq_true']
  by_contra hc
  refine h ⟨by omega, by omega, ?_⟩
  rw [← Bool.not_eq_false]
  exact fun hf => hc (.inr (.inr hf))
/-- At a busy arbiter the read is parked, or comes again. -/
theorem exec_patrolRead_busy {s : State} {node : NodeId} {off : Nat} (h : s.patrols node off)
    (hbusy : (s.arb (node.val - 5000)).idle (patrolReq node off s.time.tick) = false) : exec (.patrolRead node off) s =
    .next (if (s.arb (node.val - 5000)).room (patrolReq node off s.time.tick) = true then
      s.park (node.val - 5000) (patrolReq node off s.time.tick) else s) := by
  rw [exec_patrolRead h, State.reqArrive_busy (s.late_unlocked _ rfl) hbusy, apply_ite (Option.getD · s), Option.getD_some, Option.getD_none]
/-- The read of an idle arbiter's patrol is granted at once, and nothing else. -/
theorem exec_patrolRead_idle {s : State} {node : NodeId} {off : Nat} (h : s.patrols node off)
    (hq : (s.arb (node.val - 5000)).queue = []) (hl : (s.arb (node.val - 5000)).lock = none) :
    ∃ f, exec (.patrolRead node off) s =
      .next (((s.park (node.val - 5000) (patrolReq node off s.time.tick)).patrolBurst node off).modArb (node.val - 5000) f) := by
  rw [exec_patrolRead h]
  obtain ⟨hlow, hhigh, -⟩ := h
  set a := node.val - 5000 with ha
  have hnode : 5000 + a = node.val := Nat.add_sub_cancel' hlow
  have hparked : (s.park a (patrolReq node off s.time.tick)).arb a = { s.arb a with queue := [patrolReq node off s.time.tick] } := by
    rw [State.arb_park, Arbiter.progress_unowned fun h => Bool.false_ne_true h.2, hq]
    rfl
  rw [State.reqArrive_idle (s.late_unlocked a rfl) (Arbiter.idle_of_empty hq hl _), Option.getD_some]
  set u := s.park a (patrolReq node off s.time.tick)
  have hpick : u.arbPick a = some (patrolReq node off s.time.tick) := by
    refine State.arbPick_only (by rw [hparked]; exact hl) (by rw [hparked]) ?_
    rw [requesters, if_pos (by omega)]
    exact (by decide : 20 < 21)
  have hgrant : u.grantReq a (patrolReq node off s.time.tick) =
      (u.patrolBurst node off).modArb a (u.grantedArb a (patrolReq node off s.time.tick) none) := by
    rw [State.grantReq_eq, hnode]
    refine if_neg ?_
    rw [Bool.and_eq_true]
    exact fun h => Bool.false_ne_true h.2
  set t := (u.patrolBurst node off).modArb a (u.grantedArb a (patrolReq node off s.time.tick) none) with ht
  have hempty : t.arbPick a = none := by
    refine State.arbPick_nil ?_
    have harb : (u.patrolBurst node off).arb a = u.arb a := State.arb_congr (u.arbs_patrolBurst hlow off) a
    rw [ht, State.arb_modArb, harb, hparked]
    exact List.erase_cons_head ..
  refine ⟨_, congrArg Host.Outcome.next (?_ : _ = t)⟩
  rw [List.range_succ_eq_map, List.foldl_cons, hpick, Option.map_some, Option.getD_some, hgrant]
  generalize List.map Nat.succ (List.range 3) = l
  induction l with
  | nil => rfl
  | cons n l ih => rwa [List.foldl_cons, hempty, Option.map_none, Option.getD_none]

end

end Sys2Proof.Machine
end

section
/-! The copy of a pseudo-channel to the reserves of its stack (10 R306; 12 R377). -/

namespace Sys2Proof.Machine

/-- The bursts of a list of entries of wrong symbols get fresh check bits. -/
theorem State.wrongBurst_freshEntries (l : List (Nat × Nat)) : ∀ (s : State) (k : Nat),
    (l.foldl (fun s e => s.freshBurst false e.1) s).wrongBurst false k = if ∃ e ∈ l, e.1 = k then 0 else s.wrongBurst false k := by
  induction l with
  | nil => exact fun s k => (if_neg fun ⟨_, he, _⟩ => absurd he List.not_mem_nil).symm
  | cons e l ih =>
    intro s k
    rw [List.foldl_cons, ih, State.wrongBurst_freshBurst]
    simp only [List.mem_cons, exists_eq_or_imp, true_and]
    by_cases hk : k = e.1
    · rw [if_pos hk, ite_self, if_pos (.inl hk.symm)]
    · rw [if_neg hk]
      exact if_congr (or_iff_right (Ne.symm hk)).symm rfl rfl
theorem State.freshEntries_frame (l : List (Nat × Nat)) : ∀ s : State,
    ∃ wrongA, l.foldl (fun s e => s.freshBurst false e.1) s = { s with mem := { s.mem with wrongA := wrongA } } := by
  induction l with
  | nil => exact fun s => ⟨_, rfl⟩
  | cons e l ih => exact fun s => ih (s.freshBurst false e.1)
theorem State.logged_frame {α : Type} (f : α → ErrRec) (l : List α) : ∀ s : State,
    ∃ rel counters, l.foldl (fun s e => s.log (f e)) s = { s with rel := rel, counters := counters } := by
  induction l with
  | nil => exact fun s => ⟨_, _, rfl⟩
  | cons e l ih =>
    intro s
    obtain ⟨rel, counters, he⟩ := ih (s.log (f e))
    rw [List.foldl_cons, he, State.log_frame]
    exact ⟨_, _, rfl⟩

/-- Entries of the wrong bursts of pseudo-channel p. -/
def State.wrongOf (s : State) (p : Nat) : List (Nat × Nat) := s.mem.wrongA.filter fun e => pchOf (64 * e.1) = p
/-- The copy of pseudo-channel p gives each of its bursts fresh check bits. -/
theorem State.wrongBurst_copied {s u : State} (h : u.mem.wrongA = s.mem.wrongA) (p k : Nat) :
    ((s.wrongOf p).foldl (fun s e => s.freshBurst false e.1) u).wrongBurst false k =
      if pchOf (64 * k) = p then 0 else s.wrongBurst false k := by
  have hread : u.wrongBurst false k = s.wrongBurst false k := congrArg (fun t : Tab Nat => Tab.get 0 t k) h
  have hmem : (∃ e ∈ s.wrongOf p, e.1 = k) ↔ pchOf (64 * k) = p ∧ ∃ e ∈ s.mem.wrongA, e.1 = k := by
    simp only [State.wrongOf, List.mem_filter, decide_eq_true_eq]
    constructor
    · rintro ⟨e, ⟨he, hp⟩, rfl⟩
      exact ⟨hp, e, he, rfl⟩
    · rintro ⟨hp, e, he, rfl⟩
      exact ⟨e, ⟨he, hp⟩, rfl⟩
  rw [State.wrongBurst_freshEntries, hread]
  by_cases hp : pchOf (64 * k) = p
  · rw [if_pos hp]
    split
    case isTrue => rfl
    case isFalse hno => exact Tab.get_of_not_mem fun e he hk => hno (hmem.mpr ⟨hp, e, he, hk⟩)
  · rw [if_neg hp, if_neg fun h => hp (hmem.mp h).1]

/-- The pseudo-channel is no longer due for retirement. -/
def State.retired (s : State) (p : Nat) : State := { s with mem := { s.mem with retire := s.mem.retire.erase p } }
/-- Each of its lost bursts has a record. -/
def State.lostRecorded (s : State) (p : Nat) : State := ((s.wrongOf p).filter fun e => 2 ≤ e.2).foldl (fun s e =>
  s.record 0x0501 0 (leBytes 1 0 ++ leBytes 8 (64 * e.1) ++ leBytes 2 (endpointOf false (64 * e.1))) (unit := endpointOf false (64 * e.1))) s
theorem State.lostRecorded_frame (s : State) (p : Nat) : ∃ rel counters, s.lostRecorded p = { s with rel := rel, counters := counters } :=
  State.logged_frame _ _ s
theorem State.remap_modRemap (s : State) (k : Nat) (f : Remap → Remap) : (s.modRemap k f).remap k = f (s.remap k) := Tab.get_set_eq ..
theorem State.remap_modRemap_ne (s : State) {k m : Nat} (f : Remap → Remap) (h : m ≠ k) : (s.modRemap k f).remap m = s.remap m :=
  Tab.get_set_ne _ _ _ h

section
variable {s : State} {stack : Fin 8} {pch : Fin 64}

theorem exec_pseudoChannelRemap_none (h : stack.val * 64 + pch.val ∉ s.mem.retire) : exec (.pseudoChannelRemap stack pch) s = .next s :=
  if_pos h

variable (h : stack.val * 64 + pch.val ∈ s.mem.retire)
include h

theorem exec_pseudoChannelRemap_used (hu : (s.remap stack).valid = true ∨ (s.remap stack).copying = true) :
    exec (.pseudoChannelRemap stack pch) s = .next (s.retired (stack.val * 64 + pch.val)).degrade :=
  (if_neg (not_not.mpr h)).trans (if_pos hu)
theorem exec_pseudoChannelRemap (hu : ¬ ((s.remap stack).valid = true ∨ (s.remap stack).copying = true)) :
    ∃ r, exec (.pseudoChannelRemap stack pch) s = .next (((((s.wrongOf (stack.val * 64 + pch.val)).foldl (fun s e => s.freshBurst false e.1)
      ((s.retired (stack.val * 64 + pch.val)).lostRecorded (stack.val * 64 + pch.val)))).log r).modRemap stack
        fun _ => { valid := false, copying := true, pch := pch }) :=
  ⟨_, (if_neg (not_not.mpr h)).trans (if_neg hu)⟩

end

/-- Of a copy the remap, the list of those due, the check bits and the records differ. -/
theorem State.pchCopied_leaves (s : State) (stack p : Nat) (r : ErrRec) (m : Remap) :
    let t := (((s.wrongOf p).foldl (fun s e => s.freshBurst false e.1) ((s.retired p).lostRecorded p)).log r).modRemap stack fun _ => m
    t = { s with mem := t.mem, rel := t.rel, counters := t.counters } ∧ t.mem.tierA = s.mem.tierA ∧ t.mem.tierB = s.mem.tierB ∧
      t.mem.retire = s.mem.retire.erase p ∧ t.remap stack = m ∧ (∀ k, k ≠ stack → t.remap k = s.remap k) ∧
      ∀ k, t.wrongBurst false k = if pchOf (64 * k) = p then 0 else s.wrongBurst false k := by
  obtain ⟨rel, counters, hrecorded⟩ := (s.retired p).lostRecorded_frame p
  have hwrong := State.wrongBurst_copied (s := s) (u := (s.retired p).lostRecorded p) (by rw [hrecorded]; rfl) p
  obtain ⟨wrongA, hfresh⟩ := State.freshEntries_frame (s.wrongOf p) ((s.retired p).lostRecorded p)
  generalize (s.wrongOf p).foldl (fun s e => s.freshBurst false e.1) ((s.retired p).lostRecorded p) = u at hwrong hfresh
  rw [hrecorded] at hfresh
  dsimp only
  refine ⟨?_, ?_, ?_, ?_, State.remap_modRemap .., fun k hk => (State.remap_modRemap_ne _ _ hk).trans ?_, fun k => ?_⟩
  case refine_6 =>
    rw [← hwrong k, State.log_frame]
    rfl
  all_goals
    rw [State.log_frame, hfresh]
    rfl

end Sys2Proof.Machine
end

section
/-! What a grant performs and leaves (10 R316, R320, R323, R324). LOCK of several bursts ends with the last one (log 127). -/

namespace Sys2Proof.Machine

/-! ## The work of a request (R316) -/

/-- The tiers, counters and packets may differ; the arbiters and the count of locked sequences do not. -/
structure State.servedTo (s t : State) : Prop where
  frame : t = { s with mem := t.mem, counters := t.counters, mesh := t.mesh }
  arbs : t.mem.arbs = s.mem.arbs
  sequences : t.counter 0x527007 = s.counter 0x527007

section
variable {s t u : State}

theorem State.servedTo_refl (s : State) : s.servedTo s := ⟨rfl, rfl, rfl⟩
theorem State.servedTo.trans (h : s.servedTo t) (k : t.servedTo u) : s.servedTo u :=
  ⟨by rw [k.frame, h.frame], k.arbs.trans h.arbs, k.sequences.trans h.sequences⟩
theorem State.servedTo_send (s : State) (p : Packet) : s.servedTo (s.send p) := ⟨rfl, rfl, rfl⟩
theorem State.servedTo_memReply (s : State) (node : Nat) (p : Packet) (m : MemReq) (bs : List Byte) : s.servedTo (s.memReply node p m bs) := by
  unfold State.memReply
  dsimp only
  split
  case isTrue => exact s.servedTo_send _
  case isFalse => split <;> exact s.servedTo_send _
theorem State.servedTo_patrolMoved (s : State) (node k : Nat) : s.servedTo (s.patrolMoved node k) := by
  have hcounter := s.counter_patrolMoved_ne node k (j := 0x527007) (by decide)
  obtain ⟨patrol, patrolStart, pchCorr, counters, he⟩ := s.patrolMoved_frame node k
  refine ⟨?_, ?_, hcounter⟩ <;> rw [he]
theorem State.serveReq_engine {q : ArbReq} (h : q.work = .engine) (node : Nat) : s.serveReq node q = (s, none) := by
  rw [State.serveReq, h]

variable (hclean : ∀ b k, s.wrongBurst b k = 0)
include hclean

theorem State.servedTo_tierWrite (b : Bool) (a : Nat) (bs : List Byte) (node : Nat) : s.servedTo (s.tierWrite b a bs node) := by
  obtain ⟨hframe, harbs, -, -, hcounter⟩ := State.stored_tierWrite hclean b a bs node
  refine ⟨?_, harbs, hcounter _ (by decide)⟩
  generalize s.tierWrite b a bs node = t at hframe
  rw [hframe]
theorem State.servedTo_tierRead (b : Bool) (a n node : Nat) : s.servedTo (s.tierRead b a n node).2 := by
  rw [State.tierRead_clean s b a n node fun k _ => hclean b k]
  refine ⟨?_, congrArg Mem.arbs (State.tierAsk_mem ..), State.counter_tierAsk_ne _ _ _ _ _ (by decide)⟩
  dsimp only
  rw [State.tierAsk_frame]
theorem State.servedTo_memBurst (node : Nat) (q : ArbReq) (p : Packet) (m : MemReq) (bs : List Byte) :
    s.servedTo (s.memBurst node q p m bs).1 := by
  unfold State.memBurst
  dsimp only
  have haccess : ∀ (c d : List Byte) (a n : Nat), s.servedTo (if m.op = 1 then (c, s.tierWrite m.tierB a d p.src)
      else (bs ++ (s.tierRead m.tierB a n p.src).1, (s.tierRead m.tierB a n p.src).2)).2 := fun c d a n => by
    split
    case isTrue => exact State.servedTo_tierWrite hclean ..
    case isFalse => exact State.servedTo_tierRead hclean ..
  split
  case isTrue => exact (haccess ..).trans (State.servedTo_memReply ..)
  case isFalse => exact haccess ..
/-- Over bursts that read clean. -/
theorem State.servedTo_serveReq (node : Nat) (q : ArbReq) : s.servedTo (s.serveReq node q).1 := by
  unfold State.serveReq
  split
  case h_1 => exact s.servedTo_refl
  case h_2 k _ =>
    rw [State.patrolBurst_eq, State.patrolChecked_clean (hclean _ _)]
    exact s.servedTo_patrolMoved node k
  case h_3 p bs _ =>
    split
    case h_1 => exact State.servedTo_memBurst hclean ..
    case h_2 => exact s.servedTo_refl

end

/-! ## The grant (R320, R323, R324) -/

section
variable {s : State} {arb : Nat} {q : ArbReq}

theorem exec_arbiterGrant {arb : Fin 93} (h : s.arbPick arb = some q) : exec (.arbiterGrant arb) s = .next (s.grantReq arb q) := by
  change execArbiterGrant arb s = _
  rw [execArbiterGrant, h]
theorem exec_arbiterGrant_none {arb : Fin 93} (h : s.arbPick arb = none) : exec (.arbiterGrant arb) s = .next s := by
  change execArbiterGrant arb s = _
  rw [execArbiterGrant, h]

theorem State.grantReq_frame (s : State) (arb : Nat) (q : ArbReq) : s.grantReq arb q =
    { (s.serveReq (5000 + arb) q).1.modArb arb (s.grantedArb arb q (s.serveReq (5000 + arb) q).2) with
      counters := (s.grantReq arb q).counters } := by
  rw [State.grantReq_eq]
  exact State.ite_count_frame ..
theorem State.grantReq_spares (h : s.servedTo (s.serveReq (5000 + arb) q).1) : s.grantReq arb q =
    { s with mem := (s.grantReq arb q).mem, counters := (s.grantReq arb q).counters, mesh := (s.grantReq arb q).mesh } := by
  have hframe := h.frame
  rw [State.grantReq_frame]
  generalize s.grantedArb arb q (s.serveReq (5000 + arb) q).2 = f
  generalize (s.serveReq (5000 + arb) q).1 = t at hframe
  rw [hframe]
  rfl
theorem State.arb_grantReq (h : s.servedTo (s.serveReq (5000 + arb) q).1) :
    (s.grantReq arb q).arb arb = s.grantedArb arb q (s.serveReq (5000 + arb) q).2 (s.arb arb) := by
  rw [State.grantReq_frame, ← State.arb_congr h.arbs]
  exact State.arb_modArb ..
theorem State.arb_grantReq_ne (h : s.servedTo (s.serveReq (5000 + arb) q).1) {k : Nat} (hk : k ≠ arb) :
    (s.grantReq arb q).arb k = s.arb k := by
  rw [State.grantReq_frame, ← State.arb_congr h.arbs]
  exact State.arb_modArb_ne _ _ hk
theorem State.counter_grantReq (h : s.servedTo (s.serveReq (5000 + arb) q).1) : (s.grantReq arb q).counter 0x527007 =
    if (s.arb arb).lock = none ∧ q.lockNow = true then (s.counter 0x527007 + 1) % 2 ^ 64 else s.counter 0x527007 := by
  have hserved : ((s.serveReq (5000 + arb) q).1.modArb arb (s.grantedArb arb q (s.serveReq (5000 + arb) q).2)).counter 0x527007 =
      s.counter 0x527007 := h.sequences
  rw [State.grantReq_eq]
  dsimp only
  rw [State.counter_ite_count, hserved]
  simp only [Bool.and_eq_true, Option.isNone_iff_eq_none]

end

end Sys2Proof.Machine
end

section
/-! Stuck holders (10 R325 to R327). The engine reset behind an arbiter's stuck request is the model's reading (log 110). -/

namespace Sys2Proof.Machine

/-! ## What answers and credits leave (R107, R108, R327, R347) -/

/-- Counters of answers to packets for units that are away, and of rows granted. -/
def answerCounters : List Nat := [0x523005, 0x526009, 0x527008]
/-- Memory, units and every counter but those of answers are the same. -/
structure State.answers (s t : State) : Prop where
  mem : t.mem = s.mem
  nodes : t.nodes = s.nodes
  counter : ∀ k, k ∉ answerCounters → t.counter k = s.counter k

section
variable {s t u : State}

theorem State.answers_refl (s : State) : s.answers s := ⟨rfl, rfl, fun _ _ => rfl⟩
theorem State.answers.trans (h : s.answers t) (k : t.answers u) : s.answers u :=
  ⟨k.mem.trans h.mem, k.nodes.trans h.nodes, fun n hn => (k.counter n hn).trans (h.counter n hn)⟩
theorem State.answers_foldl {α : Type} {f : State → α → State} (h : ∀ (s : State) a, s.answers (f s a)) :
    ∀ (l : List α) (s : State), s.answers (l.foldl f s)
  | [], s => s.answers_refl
  | a :: l, s => (h s a).trans (State.answers_foldl h l (f s a))
theorem State.answers_count (s : State) {k : Nat} (n : Nat) (h : k ∈ answerCounters) : s.answers (s.count k n) :=
  ⟨rfl, rfl, fun _ hm => State.counter_count_ne _ _ (ne_of_mem_of_not_mem h hm).symm⟩
theorem State.answers_send (s : State) (p : Packet) : s.answers (s.send p) := ⟨rfl, rfl, fun _ _ => rfl⟩
theorem State.answers_modCredit (s : State) (n : Nat) (f : CreditUnit → CreditUnit) : s.answers (s.modCredit n f) := by
  unfold State.modCredit
  split <;> exact ⟨rfl, rfl, fun _ _ => rfl⟩

end

theorem State.answers_grant (s : State) (n : Nat) (q : CreditReq) (rows : List Nat) : s.answers (s.grant n q rows) :=
  ((s.answers_modCredit n _).trans (State.answers_count _ _ (by decide))).trans (State.answers_send ..)
theorem State.answers_serveGo (n : Nat) : ∀ (l : List CreditReq) (bs : List Nat) (s : State), s.answers (State.serveGo n l bs s)
  | [], _, s => s.answers_refl
  | q :: l, bs, s => by
    unfold State.serveGo
    dsimp only
    split
    case isTrue => exact ((s.answers_modCredit n _).trans (State.answers_send ..)).trans (State.answers_serveGo n l bs _)
    case isFalse =>
      split
      case isTrue => exact State.answers_serveGo n l bs s
      case isFalse =>
        split
        case h_1 => exact ((s.answers_modCredit n _).trans (State.answers_grant ..)).trans (State.answers_serveGo n l bs _)
        case h_2 => exact State.answers_serveGo n l _ s
theorem State.answers_applyRelay (s : State) (p i : Nat) : s.answers (s.applyRelay p i) := by
  unfold State.applyRelay
  dsimp only
  split_ifs
  · exact s.answers_refl
  · exact s.answers_modCredit ..
  · exact s.answers_modCredit ..
  · exact s.answers_refl
  · exact s.answers_modCredit ..
theorem State.answers_applyRelays (s : State) : s.answers s.applyRelays :=
  (State.answers_foldl (fun s k => s.answers_applyRelay (k / 16) (k % 16)) _ s).trans
    (State.answers_foldl (fun s p => State.answers_serveGo (portNode p) _ _ s) _ _)
theorem State.answers_parkedOne (s : State) (node : Nat) (q : ArbReq) : s.answers (s.parkedOne node q) := by
  unfold State.parkedOne
  split
  case h_1 =>
    unfold State.answerAway
    dsimp only
    split <;> exact (s.answers_count 1 (by decide)).trans (State.answers_send ..)
  case h_2 => exact (s.answers_count 1 (by decide)).trans (State.answers_send ..)

/-! ## The unit behind the request (R326, R327) -/

theorem State.parkedAway_none (s : State) {node : Nat} (h : arbiterOf node = none) : s.parkedAway node = s := by
  rw [State.parkedAway, h]
/-- The arbiter of a unit that leaves service has no request left. -/
theorem State.parkedAway_some (s : State) {node a : Nat} (h : arbiterOf node = some a) :
    (s.modArb a fun x => { x with queue := [] }).answers (s.parkedAway node) := by
  rw [State.parkedAway, h]
  exact State.answers_foldl (fun s q => s.answers_parkedOne node q) _ _

/-- A port leaves service once its paths and its endpoint are reset, and its relays apply (R345). -/
theorem State.resetPort_eq (s : State) (p cause : Nat) (away : Bool) : ∃ grove,
    s.resetPort p cause away = (({ s with grove := grove } : State).leave (portNode p) cause away).applyRelays := by
  unfold State.resetPort
  dsimp only
  rw [State.modEndpoint_frame]
  exact ⟨_, rfl⟩
/-- A unit's reset leaves memory and the counters but those of answers; the unit is away, in its next incarnation. -/
structure State.unitGone (s t : State) (n : Nat) : Prop where
  mem : t.mem = s.mem
  counter : ∀ k, k ∉ answerCounters → t.counter k = s.counter k
  inc : (t.node n).inc = nextInc (s.node n).inc
  away : (t.node n).away = true

theorem State.unitGone_leave (s : State) (n cause : Nat) : s.unitGone (s.leave n cause true) n := by
  have hnode := s.node_leave n cause true
  exact ⟨rfl, fun _ _ => rfl, congrArg NodeInfo.inc hnode, congrArg NodeInfo.away hnode⟩
theorem State.unitGone.answers {s t u : State} {n : Nat} (h : s.unitGone t n) (k : t.answers u) : s.unitGone u n := by
  have hnode : u.node n = t.node n := by rw [State.node, k.nodes, State.node]
  exact ⟨k.mem.trans h.mem, fun j hj => (k.counter j hj).trans (h.counter j hj), by rw [hnode, h.inc], by rw [hnode, h.away]⟩
theorem State.unitGone_resetStand (s : State) (st cause : Nat) : s.unitGone (s.resetStand st cause true) st := by
  have hnode := (s.standCleared_resetStand st cause).node
  exact ⟨s.mem_resetStand st cause true, fun k _ => s.counter_resetStand st cause true k, congrArg NodeInfo.inc hnode,
    congrArg NodeInfo.away hnode⟩
theorem State.unitGone_resetUnit (s : State) (n cause : Nat) : s.unitGone (s.resetUnit n cause) n := by
  unfold State.resetUnit
  split
  case isTrue => exact s.unitGone_resetStand n cause
  case isFalse =>
    split
    case isTrue h =>
      obtain ⟨grove, he⟩ := s.resetPort_eq (n - 5088) cause true
      have hport : portNode (n - 5088) = n := Nat.add_sub_cancel' h.1
      rw [he, hport]
      obtain ⟨hmem, hcounter, hinc, haway⟩ := State.unitGone_leave { s with grove := grove } n cause
      exact State.unitGone.answers ⟨hmem, hcounter, hinc, haway⟩ (State.answers_applyRelays _)
    case isFalse => exact s.unitGone_leave n cause

/-! ## The watchdog (R325) -/

/-- The grant and the lock are taken from the arbiter's holder. -/
def State.released (s : State) (arb : Nat) : State := s.modArb arb fun x => { x with holder := none, lock := none }
/-- In t the holder's request q has lost the grant and the lock, and the unit or the engine behind it was reset. -/
structure State.holderLost (s t : State) (arb : Nat) (q : ArbReq) : Prop where
  tierA : t.mem.tierA = s.mem.tierA
  tierB : t.mem.tierB = s.mem.tierB
  released : (t.arb arb).holder = none ∧ (t.arb arb).lock = none
  queues : engineReq arb q.requester = true ∨ arbiterOf q.node = none →
    (t.arb arb).queue = (s.arb arb).queue ∧ ∀ k, k ≠ arb → t.arb k = s.arb k
  emptied : ∀ k, engineReq arb q.requester = false → arbiterOf q.node = some k → (t.arb k).queue = []
  unit : engineReq arb q.requester = false → (t.node q.node).inc = nextInc (s.node q.node).inc ∧ (t.node q.node).away = true
  engine : engineReq arb q.requester = true → t.nodes = s.nodes ∧ t.stands = s.stands ∧
    Tab.get 1 t.mem.engines (32 * arb + q.requester) = nextInc (Tab.get 1 s.mem.engines (32 * arb + q.requester))

theorem State.holderLost.congr {s t u : State} {arb : Nat} {q : ArbReq} (h : s.holderLost t arb q) (hmem : u.mem = t.mem)
    (hnodes : u.nodes = t.nodes) (hstands : u.stands = t.stands) : s.holderLost u arb q := by
  have harb := State.arb_congr (congrArg Mem.arbs hmem)
  have hnode : u.node q.node = t.node q.node := by rw [State.node, hnodes, State.node]
  obtain ⟨htierA, htierB, hreleased, hqueues, hemptied, hunit, hengine⟩ := h
  constructor <;> simpa only [hmem, hnodes, hstands, harb, hnode]

section
variable (s : State) {arb : Nat} {q : ArbReq}

theorem State.counter_resetHolder (arb : Nat) (q : ArbReq) {k : Nat} (hk : k ∉ answerCounters) :
    (s.resetHolder arb q).counter k = s.counter k := by
  unfold State.resetHolder
  split
  case isTrue => rfl
  case isFalse =>
    refine (State.unitGone_resetUnit _ q.node 5).counter k hk |>.trans ?_
    cases ha : arbiterOf q.node with
    | none => rw [State.parkedAway_none _ ha]
    | some a => exact (s.parkedAway_some ha).counter k hk
theorem State.released_arb : (s.released arb).arb arb = { s.arb arb with holder := none, lock := none } := s.arb_modArb arb _
theorem State.released_arb_ne {k : Nat} (h : k ≠ arb) : (s.released arb).arb k = s.arb k := s.arb_modArb_ne _ h
/-- The other queues and this one as they were, but for the grant. -/
theorem State.queues_released {t : State} (h : t.mem.arbs = (s.released arb).mem.arbs) :
    ((t.arb arb).holder = none ∧ (t.arb arb).lock = none) ∧ (t.arb arb).queue = (s.arb arb).queue ∧ ∀ k, k ≠ arb → t.arb k = s.arb k := by
  have harb := State.arb_congr h
  rw [harb, State.released_arb]
  exact ⟨⟨rfl, rfl⟩, rfl, fun k hk => (harb k).trans (s.released_arb_ne hk)⟩
theorem State.holderLost_engine (h : engineReq arb q.requester = true) : s.holderLost ((s.released arb).resetHolder arb q) arb q := by
  have hunit : ¬ engineReq arb q.requester = false := by rw [h]; decide
  rw [State.resetHolder, if_pos h]
  obtain ⟨hreleased, hqueues⟩ := s.queues_released (t := (s.released arb).engineReset arb q.requester) rfl
  exact ⟨rfl, rfl, hreleased, fun _ => hqueues, fun _ hf => absurd hf hunit, fun hf => absurd hf hunit,
    fun _ => ⟨rfl, rfl, Tab.get_set_eq ..⟩⟩
theorem State.holderLost_unit (h : engineReq arb q.requester = false) : s.holderLost ((s.released arb).resetHolder arb q) arb q := by
  have hengine : ¬ engineReq arb q.requester = true := by rw [h]; decide
  rw [State.resetHolder, if_neg hengine]
  cases ha : arbiterOf q.node with
  | none =>
    rw [State.parkedAway_none _ ha]
    obtain ⟨hmem, -, hinc, haway⟩ := (s.released arb).unitGone_resetUnit q.node 5
    obtain ⟨hreleased, hqueues⟩ := s.queues_released (congrArg Mem.arbs hmem)
    exact ⟨by rw [hmem]; rfl, by rw [hmem]; rfl, hreleased, fun _ => hqueues,
      fun k _ hk => absurd (ha.symm.trans hk) (by simp), fun _ => ⟨hinc, haway⟩, fun he => absurd he hengine⟩
  | some a =>
    obtain ⟨hmem, hnodes, -⟩ := (s.released arb).parkedAway_some ha
    obtain ⟨hmem', -, hinc, haway⟩ := ((s.released arb).parkedAway q.node).unitGone_resetUnit q.node 5
    have hall := hmem'.trans hmem
    have harb := State.arb_congr (congrArg Mem.arbs hall)
    have hnode : ((s.released arb).parkedAway q.node).node q.node = s.node q.node := by
      rw [State.node, hnodes]
      rfl
    refine ⟨by rw [hall]; rfl, by rw [hall]; rfl, ?_, fun hq => ?_, fun k _ hk => ?_, fun _ => ⟨by rw [hinc, hnode], haway⟩, fun he => absurd he hengine⟩
    · rw [harb]
      by_cases hk : arb = a
      · rw [hk, State.arb_modArb, State.released_arb]
        exact ⟨rfl, rfl⟩
      · rw [State.arb_modArb_ne _ _ hk, State.released_arb]
        exact ⟨rfl, rfl⟩
    · exact absurd hq (not_or.mpr ⟨hengine, by rw [ha]; simp⟩)
    · obtain rfl : a = k := Option.some.inj (ha.symm.trans hk)
      rw [harb, State.arb_modArb]

variable {s}

theorem State.watchdog_none (h : s.stuck arb = none) : s.watchdog arb = s := by
  rw [State.watchdog, h]
theorem State.watchdog_some (h : s.stuck arb = some q) : ∃ r,
    s.watchdog arb = ((((s.released arb).resetHolder arb q).count 0x527005).count 0x512002).log r := by
  rw [State.watchdog, h]
  exact ⟨_, rfl⟩
theorem State.holderLost_watchdog (h : s.stuck arb = some q) : let t := s.watchdog arb
    s.holderLost t arb q ∧ t.counter 0x527005 = (s.counter 0x527005 + 1) % 2 ^ 64 ∧
      t.counter 0x512002 = (s.counter 0x512002 + 1) % 2 ^ 64 := by
  obtain ⟨r, he⟩ := State.watchdog_some h
  have hlost : s.holderLost ((s.released arb).resetHolder arb q) arb q := by
    cases hengine : engineReq arb q.requester
    · exact s.holderLost_unit hengine
    · exact s.holderLost_engine hengine
  have hcounter : ∀ k, k ∉ answerCounters → ((s.released arb).resetHolder arb q).counter k = s.counter k := fun k hk =>
    (s.released arb).counter_resetHolder arb q hk
  rw [he]
  refine ⟨hlost.congr ?_ ?_ ?_, ?_, ?_⟩
  · rw [State.log_frame]
    rfl
  · rw [State.log_frame]
    rfl
  · rw [State.log_frame]
    rfl
  · rw [State.counter_log_ne _ _ (by decide), State.counter_count_ne _ _ (by decide), State.counter_count, hcounter _ (by decide)]
  · rw [State.counter_log_ne _ _ (by decide), State.counter_count, State.counter_count_ne _ _ (by decide), hcounter _ (by decide)]

end

theorem exec_arbiterWatchdog (arb : Fin 93) (s : State) : exec (.arbiterWatchdog arb) s = .next (s.watchdog arb) := rfl

end Sys2Proof.Machine
end

section
/-! Patrol, remap and arbiters (10 R306, R311, R319 to R325; 12 R377). -/

namespace Sys2Proof.Machine

/-! ## A patrol read at an idle arbiter (R311) -/

section
variable {s : State} {node off a : Nat} {q : ArbReq} {f : Arbiter → Arbiter}

theorem State.patrol_patrolBurst (s : State) (node k : Nat) : Tab.get 0 (s.patrolBurst node k).mem.patrol node =
    if tierSize (endpointBurst node k).1 ≤ (endpointBurst node (k + 1)).2 then 0 else k + 1 := by
  rw [State.patrolBurst_eq]
  exact State.patrol_patrolMoved ..
theorem State.patrolled_corrected (h : s.wrongBurst (endpointBurst node off).1 ((endpointBurst node off).2 / 64) ≤ 1) :
    let e := endpointBurst node off
    let c := if e.1 = true then 2 else 0
    let t := ((s.park a q).patrolBurst node off).modArb a f
    t = { s with mem := t.mem, counters := t.counters } ∧ t.mem.tierA = s.mem.tierA ∧ t.mem.tierB = s.mem.tierB ∧
      t.wrongBurst e.1 (e.2 / 64) = 0 ∧ (∀ b k, (b ≠ e.1 ∨ k ≠ e.2 / 64) → t.wrongBurst b k = s.wrongBurst b k) ∧
      t.counter (0x527001 + c) =
        if s.wrongBurst e.1 (e.2 / 64) = 1 then (s.counter (0x527001 + c) + 1) % 2 ^ 64 else s.counter (0x527001 + c) := by
  obtain ⟨hframe, htierA, htierB, -, hwrong, hcounter⟩ := State.corrected_patrolBurst (s := s.park a q) h
  generalize (s.park a q).patrolBurst node off = t at hframe htierA htierB hwrong hcounter
  refine ⟨?_, htierA, htierB, (hwrong _ _).trans (if_pos ⟨rfl, rfl⟩), fun b k hk => (hwrong b k).trans (if_neg ?_), hcounter⟩
  · rw [hframe]
    rfl
  · exact fun he => hk.elim (fun hb => hb he.1) fun hk => hk he.2
theorem State.patrolled_lost (hn : 5000 ≤ node) (h : 2 ≤ s.wrongBurst (endpointBurst node off).1 ((endpointBurst node off).2 / 64)) :
    let c := if (endpointBurst node off).1 = true then 2 else 0
    let t := ((s.park a q).patrolBurst node off).modArb a f
    (∀ b k, t.wrongBurst b k = s.wrongBurst b k) ∧ t.counter (0x527002 + c) = (s.counter (0x527002 + c) + 1) % 2 ^ 64 ∧ t.time = s.time := by
  obtain ⟨-, htime, hwrong, hcounter⟩ := State.lostBurst_patrolBurst (s := s.park a q) hn h
  exact ⟨hwrong, hcounter, htime⟩

end

/-! ## Requests of engines (R321) -/

section
variable {s : State} {arb : Fin 93} {r : Fin 21} {node : NodeId} {burst : Nat} {lock : Bool}

/-- The request of an engine at an arbiter. -/
def engineArbReq (r node burst : Nat) (lock : Bool) (now : Nat) : ArbReq :=
  { requester := r, node := node, burst := burst, lock := lock, since := now }

theorem exec_arbiterPark_foreign (h : requesterOk arb r node = false) : exec (.arbiterPark arb r node burst lock) s = .next s :=
  if_pos (by rw [h]; rfl)
theorem exec_arbiterPark_late (h : requesterOk arb r node = true) (hl : s.late arb (engineArbReq r node burst lock s.time.tick) = true) :
    exec (.arbiterPark arb r node burst lock) s =
      .next ((s.watchdog arb).park arb { engineArbReq r node burst lock s.time.tick with lock := false }) :=
  (if_neg (by rw [h]; exact Bool.false_ne_true)).trans (if_pos hl)
theorem exec_arbiterPark (h : requesterOk arb r node = true) (hl : s.late arb (engineArbReq r node burst lock s.time.tick) = false) :
    exec (.arbiterPark arb r node burst lock) s = .next (if (s.arb arb).room (engineArbReq r node burst lock s.time.tick) = true
      then s.park arb (engineArbReq r node burst lock s.time.tick) else s) :=
  ((if_neg (by rw [h]; exact Bool.false_ne_true)).trans (if_neg fun h => Bool.false_ne_true (hl.symm.trans h))).trans
    (apply_ite Host.Outcome.next _ _ _).symm

end

/-- Settles O50. Which engine the watchdog resets (log 110), the end of LOCK (log 127) and the grant on arrival (log 82) are the model's
reading. -/
theorem memoryUpkeep : Obligations.MemoryUpkeep := by
  unfold Obligations.MemoryUpkeep
  intro s
  refine ⟨fun node off => ?_, fun stack pch => ⟨exec_pseudoChannelRemap_none, fun h hused => ?_, fun h hfree => ?_⟩,
    fun arb r node burst lock => ?_, fun arb => ⟨exec_arbiterGrant_none, fun q hpick => ?_⟩, fun arb => ⟨fun h => ?_, fun q t hh ht => ?_⟩,
    fun v => ⟨fun h => if_neg h, fun h => ?_⟩⟩
  case refine_1 =>
    refine ⟨exec_patrolRead_none, fun h hbusy => ?_, fun h hq hl => ?_⟩
    · have hexec := exec_patrolRead_busy h hbusy
      refine ⟨fun hroom => ⟨_, hexec.trans (congrArg _ (if_pos hroom)), s.parked_park _ _⟩, fun hroom =>
        hexec.trans (congrArg _ (if_neg fun h => Bool.false_ne_true (hroom.symm.trans h)))⟩
    · obtain ⟨f, he⟩ := exec_patrolRead_idle h hq hl
      exact ⟨fun hw => ⟨_, he, State.patrolled_corrected hw⟩, fun hw => ⟨_, he, State.patrolled_lost h.1 hw⟩,
        ⟨_, he, State.patrol_patrolBurst ..⟩⟩
  case refine_2 =>
    have hhealth := (s.retired (stack.val * 64 + pch.val)).degrade_health
    refine ⟨_, exec_pseudoChannelRemap_used h hused, ?_, ?_, hhealth.1, fun h0 => hhealth.2.trans (if_pos h0)⟩
    all_goals
      rw [State.degrade_frame]
      rfl
  case refine_3 =>
    obtain ⟨r, he⟩ := exec_pseudoChannelRemap h hfree
    exact ⟨_, he, s.pchCopied_leaves stack _ r _⟩
  case refine_4 =>
    set q := engineArbReq r node burst lock s.time.tick
    have howner := (s.arb arb).ownedBy_iff q
    have hroom := (s.arb arb).room_iff q
    refine ⟨exec_arbiterPark_foreign, fun hlate hfull => ?_, fun hok hlate hfree => ⟨s.park arb q, ?_, s.parked_park arb q, fun h => ?_,
      fun ho hlock => ?_⟩, fun hok hlate => ⟨_, exec_arbiterPark_late hok hlate, _, exec_arbiterWatchdog arb s, State.parked_park ..⟩⟩
    · cases hok : requesterOk arb r node
      · exact exec_arbiterPark_foreign hok
      · rw [exec_arbiterPark hok hlate, if_neg fun h => hfull (hroom.mp h)]
    · rw [exec_arbiterPark hok hlate, if_pos (hroom.mpr hfree)]
    · rw [State.arb_park, Arbiter.progress_unowned fun hp => h ⟨howner.mp hp.1, hp.2⟩]
    · rw [State.arb_park]
      exact Arbiter.progress_owned ⟨howner.mpr ho, hlock⟩ _
  case refine_5 =>
    refine ⟨State.mem_of_arbPick hpick, State.rank_le_of_arbPick hpick, State.owner_of_arbPick hpick, fun hwork =>
      ⟨_, exec_arbiterGrant hpick, ?_⟩⟩
    have hserved : s.servedTo (s.serveReq (5000 + arb.val) q).1 := hwork.elim
      (fun h => by rw [State.serveReq_engine h]; exact s.servedTo_refl) fun h => State.servedTo_serveReq h _ q
    have harb := State.arb_grantReq hserved
    refine ⟨State.grantReq_spares hserved, fun k hk => State.arb_grantReq_ne hserved hk, ?_, ?_, ?_, ?_, State.counter_grantReq hserved,
      fun h => ⟨?_, ?_, ?_⟩⟩
    · rw [harb]
      rfl
    · rw [harb]
      rfl
    · rw [harb]
      rfl
    · rw [harb, State.grantedArb, Tab.get_set_eq]
      rfl
    · rw [State.grantReq_frame, State.serveReq_engine h]
      rfl
    · rw [State.grantReq_frame, State.serveReq_engine h]
      rfl
    · rw [harb, State.serveReq_engine h]
      rfl
  case refine_6 => rw [exec_arbiterWatchdog, State.watchdog_none (State.stuck_eq_none h)]
  case refine_7 =>
    obtain ⟨⟨htierA, htierB, ⟨hholder, hlock⟩, hqueues, hemptied, hunit, hengine⟩, hcount, hreset⟩ :=
      State.holderLost_watchdog (State.stuck_eq_some hh ht)
    exact ⟨_, rfl, hholder, hlock, hqueues, hemptied, hunit, hengine, hcount, hreset, htierA, htierB⟩
  case refine_8 =>
    exact ⟨_, if_pos h, rfl, s.arb_modArb .., fun k hk => s.arb_modArb_ne _ hk⟩

end Sys2Proof.Machine
end

section
/-! The host link (10 R318; 14 R427; 15 R445 to R450). -/

namespace Sys2Proof.Machine

/-! ## Accesses through the window (R318, R448) -/

theorem cutWrite_below (off : Nat) (d : List Byte) : cutWrite off d 0 moduleArea = (off, d.take (moduleArea - off)) := by
  simp [cutWrite]
/-- Some bytes of a write lie in the module area. -/
theorem cutWrite_area_ne_nil {off : Nat} {d : List Byte} (hd : 0 < d.length) :
    (cutWrite off d moduleArea windowSize).2 ≠ [] ↔ moduleArea < off + d.length ∧ off < windowSize := by
  rw [← List.length_pos_iff, cutWrite, List.length_take, List.length_drop, moduleArea, windowSize]
  omega

/-- The integrator's part of a host write is stored. -/
def State.hostStored (s : State) (off : Nat) (d : List Byte) : State :=
  if off < moduleArea then s.tierWrite true off (d.take (moduleArea - off)) 5104 else s
/-- What of n bytes from an offset lies in the module area, and what beyond the window, is counted. -/
def State.hostCounted (s : State) (off n : Nat) : State :=
  let t := if moduleArea < off + n ∧ off < windowSize then s.count 0x52700A else s
  if windowSize < off + n then t.count 0x52900B else t
theorem State.hostCounted_frame (s : State) (off n : Nat) : s.hostCounted off n = { s with counters := (s.hostCounted off n).counters } := by
  unfold State.hostCounted
  dsimp only
  split_ifs <;> rfl
theorem State.counter_hostCounted_area (s : State) (off n : Nat) : (s.hostCounted off n).counter 0x52700A =
    if moduleArea < off + n ∧ off < windowSize then (s.counter 0x52700A + 1) % 2 ^ 64 else s.counter 0x52700A :=
  (State.counter_ite_count_ne _ _ (by decide)).trans (s.counter_ite_count _)
theorem State.counter_hostCounted_beyond (s : State) (off n : Nat) : (s.hostCounted off n).counter 0x52900B =
    if windowSize < off + n then (s.counter 0x52900B + 1) % 2 ^ 64 else s.counter 0x52900B := by
  have hother := s.counter_ite_count_ne (moduleArea < off + n ∧ off < windowSize) (k := 0x52700A) (m := 0x52900B) (by decide)
  exact (State.counter_ite_count _ _).trans (by rw [hother])
theorem State.hostWrite_eq (s : State) (off : Nat) {d : List Byte} (hd : 0 < d.length) :
    s.hostWrite off d = ((s.hostStored off d).hostCounted off d.length).emit .hostDone := by
  unfold State.hostWrite State.hostStored State.hostCounted
  simp only [← cutWrite_area_ne_nil hd, ite_not, cutWrite_below]

section
variable {s : State} (hclean : ∀ b k, s.wrongBurst b k = 0)
include hclean

theorem State.stored_hostStored (off : Nat) (d : List Byte) : s.stored (s.hostStored off d) true off (d.take (moduleArea - off)) := by
  unfold State.hostStored
  split
  case isTrue => exact State.stored_tierWrite hclean ..
  case isFalse h =>
    rw [Nat.sub_eq_zero_of_le (Nat.le_of_not_lt h), List.take_zero]
    exact ⟨rfl, rfl, fun i hi => absurd hi (Nat.not_lt_zero i), fun _ _ _ => rfl, fun _ _ => rfl⟩
theorem State.hostWrite_leaves (off : Nat) {d : List Byte} (hd : 0 < d.length) : let t := s.hostWrite off d
    t = { s with mem := t.mem, counters := t.counters, outbox := .hostDone :: s.outbox } ∧
      (∀ i, i < d.length → off + i < 63000000000 → t.tierByte true (off + i) = d.getD i 0) ∧
      (∀ b k, b = false ∨ k < off ∨ off + d.length ≤ k ∨ 63000000000 ≤ k → t.tierByte b k = s.tierByte b k) ∧
      t.counter 0x52700A = (if 63000000000 < off + d.length ∧ off < 64000000000 then (s.counter 0x52700A + 1) % 2 ^ 64
        else s.counter 0x52700A) ∧
      t.counter 0x52900B = if 64000000000 < off + d.length then (s.counter 0x52900B + 1) % 2 ^ 64 else s.counter 0x52900B := by
  obtain ⟨hframe, -, hwithin, houtside, hcounter⟩ := State.stored_hostStored hclean off d
  rw [State.hostWrite_eq s off hd]
  generalize s.hostStored off d = t at hframe hwithin houtside hcounter
  have hlen : (d.take (moduleArea - off)).length = min (63000000000 - off) d.length := List.length_take
  have htier : tierSize true = 1536000000000 := rfl
  have hbyte : ∀ b k, ((t.hostCounted off d.length).emit .hostDone).tierByte b k = t.tierByte b k := fun b k => by
    rw [State.hostCounted_frame]
    rfl
  refine ⟨?_, fun i hi hlow => ?_, fun b k h => ?_, ?_, ?_⟩
  · rw [State.hostCounted_frame, hframe]
    rfl
  · rw [hbyte, hwithin i (by omega) (by rw [htier]; omega), List.getD_eq_getElem?_getD, List.getElem?_take,
      if_pos (by simp only [moduleArea]; omega), List.getD_eq_getElem?_getD]
  · rw [hbyte, houtside b k ?_]
    rcases h with rfl | h | h | h
    · exact .inl Bool.false_ne_true
    all_goals omega
  · rw [State.counter_emit, State.counter_hostCounted_area, hcounter _ (by decide)]
    rfl
  · rw [State.counter_emit, State.counter_hostCounted_beyond, hcounter _ (by decide)]
    rfl

end

/-- The bytes that a host read answers. -/
def State.hostBytes (s : State) (off n : Nat) : List Byte :=
  s.tierBytes true off (min n (windowSize - off)) ++ List.replicate (n - min n (windowSize - off)) 0
theorem State.length_hostBytes (s : State) (off n : Nat) : (s.hostBytes off n).length = n := by
  rw [State.hostBytes, List.length_append, State.length_tierBytes, List.length_replicate]
  omega
theorem State.getD_hostBytes (s : State) (off : Nat) {n i : Nat} (hi : i < n) :
    (s.hostBytes off n).getD i 0 = if off + i < 64000000000 then s.tierByte true (off + i) else 0 := by
  have hw : windowSize = 64000000000 := rfl
  unfold State.hostBytes
  split
  case isTrue h => rw [List.getD_append _ _ _ _ (by rw [State.length_tierBytes]; omega), State.getD_tierBytes s true off (by omega)]
  case isFalse h =>
    rw [List.getD_append_right _ _ _ _ (by rw [State.length_tierBytes]; omega), State.length_tierBytes, List.getD_replicate _ (by omega)]
theorem State.hostRead_eq {s : State} (hclean : ∀ b k, s.wrongBurst b k = 0) (off n : Nat) : s.hostRead off n =
    let k := min n (windowSize - off)
    let t := if k = 0 then s else s.tierAsk true off k 5104
    (if windowSize < off + n then t.count 0x52900B else t).emit (.hostData (s.hostBytes off n)) := by
  have hbytes : (if min n (windowSize - off) = 0 then [] else s.tierBytes true off (min n (windowSize - off))) =
      s.tierBytes true off (min n (windowSize - off)) := by
    split
    case isTrue h => rw [h]; rfl
    case isFalse => rfl
  unfold State.hostRead
  dsimp only
  rw [State.tierRead_clean s true off _ 5104 fun k _ => hclean true k, hbytes]
  rfl
theorem State.hostRead_leaves {s : State} (hclean : ∀ b k, s.wrongBurst b k = 0) (off n : Nat) : let t := s.hostRead off n
    t = { s with counters := t.counters, outbox := .hostData (s.hostBytes off n) :: s.outbox } ∧
      t.counter 0x52900B = if 64000000000 < off + n then (s.counter 0x52900B + 1) % 2 ^ 64 else s.counter 0x52900B := by
  rw [State.hostRead_eq hclean]
  dsimp only
  have hask : ∃ t : State, (if min n (windowSize - off) = 0 then s else s.tierAsk true off (min n (windowSize - off)) 5104) = t ∧
      t = { s with counters := t.counters } ∧ t.counter 0x52900B = s.counter 0x52900B := by
    split
    case isTrue => exact ⟨s, rfl, rfl, rfl⟩
    case isFalse => exact ⟨_, rfl, State.tierAsk_frame .., State.counter_tierAsk_ne _ _ _ _ _ (by decide)⟩
  obtain ⟨t, ht, hframe, hcounter⟩ := hask
  rw [ht]
  refine ⟨?_, ?_⟩
  · rw [State.ite_count_frame, hframe]
    rfl
  · rw [State.counter_emit, State.counter_ite_count, hcounter]
    rfl

theorem exec_hostWindowWrite (off : Nat) (d : List Byte) (s : State) :
    exec (.hostWindowWrite off d) s = .next (if s.windowOpen off d.length then s.hostWrite off d else s) :=
  (apply_ite Host.Outcome.next _ _ _).symm
theorem exec_hostWindowRead (off n : Nat) (s : State) :
    exec (.hostWindowRead off n) s = .next (if s.windowOpen off n then s.hostRead off n else s) :=
  (apply_ite Host.Outcome.next _ _ _).symm
theorem State.pos_of_windowOpen {s : State} {off n : Nat} (h : s.windowOpen off n = true) : 0 < n := by
  simp only [State.windowOpen, Bool.and_eq_true, decide_eq_true_eq] at h
  exact h.2.1

/-! ## Snoops, training and the hot reset (R427, R445, R446) -/

theorem exec_cxlSnoop (a : Nat) (s : State) : exec (.cxlSnoop a) s = .next { s with outbox :=
    if s.powered = true ∧ s.host.linkSt = 2 ∧ s.host.proto < 3 then Output.snoopMiss a :: s.outbox else s.outbox } := by
  change execCxlSnoop a s = _
  unfold execCxlSnoop
  split <;> rfl

section
variable {s : State} {protos : BitVec 6} {lanes limit c w : Nat}

/-- The first protocol of Table 15.1 that both sides allow. -/
theorem State.trainProto_eq_some (h : c < 6 ∧ protos.getLsbD c = true ∧ bit (s.setting 0x270008 63) c = true)
    (hfirst : ∀ d, d < c → ¬ (d < 6 ∧ protos.getLsbD d = true ∧ bit (s.setting 0x270008 63) d = true)) :
    s.trainProto protos = some c := by
  obtain ⟨hc, hboth⟩ := h
  refine List.find?_range_eq_some.mpr ⟨(Bool.and_eq_true ..).mpr hboth, List.mem_range.mpr hc, fun d hd => ?_⟩
  have hnot := hfirst d hd
  rw [Bool.not_eq_true', Bool.eq_false_iff, ne_eq, Bool.and_eq_true]
  exact fun h => hnot ⟨hd.trans hc, h⟩
theorem State.trainProto_eq_none (h : ∀ c, ¬ (c < 6 ∧ protos.getLsbD c = true ∧ bit (s.setting 0x270008 63) c = true)) :
    s.trainProto protos = none := by
  refine List.find?_range_eq_none.mpr fun c hc => ?_
  have hnot := h c
  rw [Bool.not_eq_true', Bool.eq_false_iff, ne_eq, Bool.and_eq_true]
  exact fun h => hnot ⟨hc, h⟩
theorem trainWidth_eq_none (h : ∀ w, ¬ (w ∈ [8, 4, 2, 1] ∧ w ≤ lanes ∧ w ≤ limit)) : trainWidth lanes limit = none :=
  List.find?_eq_none.mpr fun w hw hfits => h w ⟨hw, of_decide_eq_true hfits⟩
/-- The widths stand in falling order: the one found is the largest that fits. -/
theorem trainWidth_eq_some (h : w ∈ [8, 4, 2, 1] ∧ w ≤ lanes ∧ w ≤ limit)
    (hmost : ∀ v, v ∈ [8, 4, 2, 1] ∧ v ≤ lanes ∧ v ≤ limit → v ≤ w) : trainWidth lanes limit = some w := by
  have hfalls : [8, 4, 2, 1].Pairwise (· > ·) := by decide
  obtain ⟨hmem, hfits⟩ := h
  obtain ⟨wider, narrower, hsplit⟩ := List.append_of_mem hmem
  refine List.find?_eq_some_iff_append.mpr ⟨decide_eq_true hfits, wider, narrower, hsplit, fun v hv => ?_⟩
  rw [Bool.not_eq_true', decide_eq_false_iff_not]
  intro hv'
  have hle := hmost v ⟨hsplit ▸ List.mem_append_left _ hv, hv'⟩
  rw [hsplit, List.pairwise_append] at hfalls
  obtain ⟨-, -, hgt⟩ := hfalls
  exact Nat.not_lt.mpr hle (hgt v hv w List.mem_cons_self)

end

/-- The link of a training that finds protocol c and width w. -/
def State.trained (s : State) (c w : Nat) (men : Bool) : State :=
  let t := (s.count 0x529009).modNode 5104 fun u => { u with away := false }
  { t with host := { s.host with linkSt := 2, proto := c, width := w, rate := protoRate c, flit := decide (c = 0 ∨ c = 3), memen := men } }

section
variable {s : State} {protos : BitVec 6} {lanes : Nat} {men : Bool}

theorem exec_hostLinkTraining_off (h : s.powered = false) : exec (.hostLinkTraining protos lanes men) s = .next s := by
  change execHostLinkTraining protos lanes men s = _
  rw [execHostLinkTraining, if_pos (by rw [h]; rfl)]
theorem exec_hostLinkTraining {c w : Nat} (h : s.powered = true) (hc : s.trainProto protos = some c)
    (hw : trainWidth lanes (s.setting 0x270007 8) = some w) :
    exec (.hostLinkTraining protos lanes men) s = .next (s.trained c w men) := by
  change execHostLinkTraining protos lanes men s = _
  rw [execHostLinkTraining, if_neg (by rw [h]; exact Bool.false_ne_true), hc, hw]
  rfl
theorem exec_hostLinkTraining_none (h : s.powered = true)
    (hnone : s.trainProto protos = none ∨ trainWidth lanes (s.setting 0x270007 8) = none) :
    exec (.hostLinkTraining protos lanes men) s = .next { s with host := { s.host with linkSt := 1, memen := false } } := by
  change execHostLinkTraining protos lanes men s = _
  rw [execHostLinkTraining, if_neg (by rw [h]; exact Bool.false_ne_true)]
  rcases hnone with hnone | hnone
  · rw [hnone]
  · rw [hnone]
    cases s.trainProto protos <;> rfl

end

theorem State.trained_node (s : State) (c w : Nat) (men : Bool) : (s.trained c w men).node 5104 = { s.node 5104 with away := false } :=
  State.node_modNode (s.count 0x529009) 5104 fun u => { u with away := false }
theorem State.countsOnly_trained (s : State) (c w : Nat) (men : Bool) : s.countsOnly (s.trained c w men) 0x529009 1 :=
  ⟨s.counter_count _ 1, fun _ hk => s.counter_count_ne 1 hk⟩

/-- The link down and every vector masked. -/
def State.linkDown (s : State) : State :=
  let t := if s.host.linkSt = 2 then s.count 0x52900A else s
  { t with host := { s.host with linkSt := 3, memen := false, msixen := false, mbirq := false, msixMask := 0xFFFFFFFF, msixPend := 0 } }
theorem State.cxlReset_eq (s : State) : s.cxlReset = (s.linkDown.leave 5104 5 true).count 0x512002 := by
  unfold State.cxlReset State.linkDown
  split <;> rfl
theorem State.linkDown_frame (s : State) : s.linkDown = { s with host := s.linkDown.host, counters := s.linkDown.counters } := by
  unfold State.linkDown
  split <;> rfl
theorem State.node_linkDown (s : State) (n : Nat) : s.linkDown.node n = s.node n := by
  rw [State.linkDown_frame]
  rfl
theorem State.counter_linkDown (s : State) :
    s.linkDown.counter 0x52900A = if s.host.linkSt = 2 then (s.counter 0x52900A + 1) % 2 ^ 64 else s.counter 0x52900A :=
  s.counter_ite_count _
theorem State.counter_linkDown_ne (s : State) {k : Nat} (h : k ≠ 0x52900A) : s.linkDown.counter k = s.counter k :=
  s.counter_ite_count_ne _ h
theorem State.cxlReset_leaves (s : State) : let t := s.cxlReset
    t = { s with host := t.host, nodes := t.nodes, counters := t.counters } ∧
      t.host = { s.host with linkSt := 3, memen := false, msixen := false, mbirq := false, msixMask := 0xFFFFFFFF, msixPend := 0 } ∧
      t.node 5104 = { inc := nextInc (s.node 5104).inc, cause := 5, away := true } ∧ (∀ n, n ≠ 5104 → t.node n = s.node n) ∧
      t.counter 0x512002 = (s.counter 0x512002 + 1) % 2 ^ 64 ∧
      t.counter 0x52900A = if s.host.linkSt = 2 then (s.counter 0x52900A + 1) % 2 ^ 64 else s.counter 0x52900A := by
  rw [State.cxlReset_eq]
  refine ⟨?_, rfl, ?_, fun n hn => ?_, ?_, ?_⟩
  · rw [State.linkDown_frame]
    rfl
  · refine (s.linkDown.node_leave 5104 5 true).trans ?_
    rw [State.node_linkDown, Bool.true_or]
  · exact (s.linkDown.node_leave_ne 5 true hn).trans (s.node_linkDown n)
  · rw [State.counter_count]
    exact congrArg (fun n => (n + 1) % 2 ^ 64) (s.counter_linkDown_ne (by decide))
  · rw [State.counter_count_ne _ _ (by decide)]
    exact s.counter_linkDown

/-! ## MSI-X outside boundaries (R450) -/

section
variable (x : BitVec 32) (v : Fin 32) (k : Nat)

theorem getLsbD_vectorBit : (BitVec.ofNat 32 (2 ^ v.val)).getLsbD k = decide (k = v.val) := by
  rw [BitVec.getLsbD_ofNat, Nat.testBit_two_pow, Bool.eq_iff_iff, Bool.and_eq_true, decide_eq_true_eq, decide_eq_true_eq, decide_eq_true_eq]
  omega
/-- One vector's bit cleared. -/
theorem getLsbD_clearVector : (x &&& ~~~(BitVec.ofNat 32 (2 ^ v.val))).getLsbD k = (x.getLsbD k && !decide (k = v.val)) := by
  rw [BitVec.getLsbD_and, BitVec.getLsbD_not, getLsbD_vectorBit]
  by_cases hk : k < 32
  · rw [decide_eq_true hk, Bool.true_and]
  · rw [BitVec.getLsbD_of_ge x k (Nat.le_of_not_lt hk), Bool.false_and, Bool.false_and]
/-- One vector's bit set. -/
theorem getLsbD_setVector : (x ||| BitVec.ofNat 32 (2 ^ v.val)).getLsbD k = (x.getLsbD k || decide (k = v.val)) := by
  rw [BitVec.getLsbD_or, getLsbD_vectorBit]
/-- A bit that is clear stays as it is when cleared. -/
theorem getLsbD_clear_of_clear (h : x.getLsbD v = false) : x.getLsbD k = (x.getLsbD k && !decide (k = v.val)) := by
  by_cases hk : k = v.val
  · rw [hk, h, Bool.false_and]
  · rw [decide_eq_false hk, Bool.not_false, Bool.and_true]

end

theorem State.sendVector_sent {s : State} {v : Nat} (hen : s.host.msixen = true) (hopen : s.host.msixMask.getLsbD v = false) :
    s.sendVector v = (({ s with host := { s.host with msixPend := s.host.msixPend &&& ~~~(BitVec.ofNat 32 (2 ^ v)) } } : State).emit
      (.msix v)).count 0x52900C := by
  rw [State.sendVector, if_pos ⟨hen, by rw [hopen]; rfl⟩]
theorem State.sendVector_masked {s : State} {v : Nat} (h : s.host.msixen = false ∨ s.host.msixMask.getLsbD v = true) :
    s.sendVector v = { s with host := { s.host with msixPend := s.host.msixPend ||| BitVec.ofNat 32 (2 ^ v) } } := by
  rw [State.sendVector, if_neg]
  rintro ⟨hen, hopen⟩
  rcases h with h | h
  · exact absurd hen (by rw [h]; exact Bool.false_ne_true)
  · exact absurd hopen (by rw [h]; exact Bool.false_ne_true)
/-- A message is sent or made pending: of the link, its pending bits alone change. -/
theorem State.sendVector_frame (s : State) (v : Nat) : s.sendVector v = { s with
    host := { s.host with msixPend := (s.sendVector v).host.msixPend }, outbox := (s.sendVector v).outbox,
    counters := (s.sendVector v).counters } := by
  unfold State.sendVector
  dsimp only
  split <;> rfl

/-- The vector is no longer due. -/
def State.vectorTaken (s : State) (v : Fin 32) : State :=
  { s with host := { s.host with msixDue := s.host.msixDue &&& ~~~(BitVec.ofNat 32 (2 ^ v.val)) } }
theorem exec_msixEventVector {s : State} {v : Fin 32} (hb : s.noBoundary = true) (hd : s.host.msixDue.getLsbD v = true) :
    exec (.msixEventVector v) s = .next ((s.vectorTaken v).sendVector v) := if_pos ⟨hb, hd⟩
theorem exec_msixEventVector_none {s : State} {v : Fin 32} (h : s.noBoundary = false ∨ s.host.msixDue.getLsbD v = false) :
    exec (.msixEventVector v) s = .next s := by
  refine if_neg ?_
  rintro ⟨hb, hd⟩
  rcases h with h | h
  · exact Bool.false_ne_true (h.symm.trans hb)
  · exact Bool.false_ne_true (h.symm.trans hd)
/-- MSI-X enabled and the vector unmasked. -/
def State.vectorOpened (s : State) (v : Fin 32) : State :=
  { s with host := { s.host with msixen := true, msixMask := s.host.msixMask &&& ~~~(BitVec.ofNat 32 (2 ^ v.val)) } }
theorem exec_msixVectorUnmask {s : State} (h : s.host.linkSt = 2) (v : Fin 32) : exec (.msixVectorUnmask v) s =
    .next (if s.host.msixPend.getLsbD v then (s.vectorOpened v).sendVector v else s.vectorOpened v) := if_neg (not_not.mpr h)
theorem State.sendVector_opened (s : State) (v : Fin 32) : (s.vectorOpened v).sendVector v =
    (({ s.vectorOpened v with host := { (s.vectorOpened v).host with msixPend := s.host.msixPend &&& ~~~(BitVec.ofNat 32 (2 ^ v.val)) } } :
      State).emit (.msix v)).count 0x52900C := by
  refine State.sendVector_sent rfl ?_
  rw [State.vectorOpened, getLsbD_clearVector, decide_eq_true rfl, Bool.not_true, Bool.and_false]

/-- Settles O51. The link state and the link-down count at a hot reset (log 54) and messages at once in STOPPED (log 98) are the model's
reading. -/
theorem hostLinkCommands : Obligations.HostLinkCommands := by
  unfold Obligations.HostLinkCommands
  intro s
  refine ⟨fun off d h => ?_, fun off d h hclean => ?_, fun off n h => ?_, fun off n h hclean => ?_, fun a => ⟨_, exec_cxlSnoop a s, rfl⟩,
    fun protos lanes men => ⟨exec_hostLinkTraining_off, fun hp hnone => ⟨_, exec_hostLinkTraining_none hp (hnone.imp
      State.trainProto_eq_none trainWidth_eq_none), rfl⟩, fun c w hp hc hfirst hw hmost => ?_⟩,
    fun h => if_neg (by rw [h]; exact Bool.false_ne_true), fun h => ⟨_, if_pos h, s.cxlReset_leaves⟩, fun v => exec_msixEventVector_none,
    fun v hb hd => ⟨_, exec_msixEventVector hb hd, ?_⟩, fun v => ⟨fun h => if_pos h, fun h => ⟨_, exec_msixVectorUnmask h v, ?_⟩⟩⟩
  case refine_1 => rw [exec_hostWindowWrite, h]; rfl
  case refine_2 =>
    rw [State.gives, exec_hostWindowWrite, if_pos h]
    exact ⟨_, rfl, State.hostWrite_leaves hclean off (State.pos_of_windowOpen h)⟩
  case refine_3 => rw [exec_hostWindowRead, h]; rfl
  case refine_4 =>
    rw [State.gives, exec_hostWindowRead, if_pos h]
    obtain ⟨hframe, hcounter⟩ := State.hostRead_leaves hclean off n
    exact ⟨_, rfl, s.hostBytes off n, hframe, s.length_hostBytes off n, fun i hi => s.getD_hostBytes off hi, hcounter⟩
  case refine_5 =>
    refine ⟨_, exec_hostLinkTraining hp (State.trainProto_eq_some hc hfirst) (trainWidth_eq_some hw hmost), rfl, rfl, ?_, ?_,
      s.countsOnly_trained c w men⟩ <;> rw [State.trained_node]
  case refine_6 =>
    have hframe := (s.vectorTaken v).sendVector_frame v
    refine ⟨?_, fun k => ?_, fun hen hopen => ?_, fun hmasked => ?_⟩
    · rw [hframe]
      rfl
    · rw [hframe]
      exact getLsbD_clearVector ..
    · rw [State.sendVector_sent (s := s.vectorTaken v) hen hopen]
      exact ⟨rfl, State.counter_count .., fun k hk => State.counter_count_ne _ 1 hk⟩
    · rw [State.sendVector_masked (s := s.vectorTaken v) hmasked]
      exact ⟨rfl, rfl, fun k => getLsbD_setVector ..⟩
  case refine_7 =>
    cases hpend : s.host.msixPend.getLsbD v
    · exact ⟨rfl, fun k => getLsbD_clearVector .., fun k => getLsbD_clear_of_clear _ v k hpend, rfl⟩
    · rw [if_pos rfl, State.sendVector_opened]
      exact ⟨rfl, fun k => getLsbD_clearVector .., fun k => getLsbD_clearVector .., rfl⟩

end Sys2Proof.Machine
end

section
/-! What a frame on its way may change, and which places of its path it takes (11 R344, R345, R347, R350, R352 to R354). -/

namespace Sys2Proof.Machine

/-! ## Reading a path, an endpoint and a channel after a change -/

theorem State.path_congr (s : State) {a b c d : Nat} (h : pathKey a b = pathKey c d) : s.path a b = s.path c d := by
  rw [State.path, h, State.path]
theorem State.path_modPath (s : State) (port peer a b : Nat) (f : Path → Path) : (s.modPath port peer f).path a b =
    if pathKey a b = pathKey port peer then f (s.path port peer) else s.path a b := Tab.get_set ..
@[simp] theorem State.path_modPath_same (s : State) (port peer : Nat) (f : Path → Path) :
    (s.modPath port peer f).path port peer = f (s.path port peer) := by rw [State.path_modPath, if_pos rfl]
@[simp] theorem State.endpoint_modEndpoint (s : State) (n : Nat) (f : Endpoint → Endpoint) :
    (s.modEndpoint n f).endpoint n = f (s.endpoint n) := Tab.get_set_eq ..
theorem State.endpoint_modEndpoint_ne (s : State) {n m : Nat} (f : Endpoint → Endpoint) (h : m ≠ n) :
    (s.modEndpoint n f).endpoint m = s.endpoint m := Tab.get_set_ne _ _ _ h
theorem State.chan_modChan_ne (s : State) {c d : Nat} (f : FlagChan → FlagChan) (h : d ≠ c) : (s.modChan c f).chan d = s.chan d :=
  Tab.get_set_ne _ _ _ h
/-- What a change of one endpoint keeps of it, it keeps of all. -/
theorem State.modEndpoint_keeps {α : Type} (s : State) (n : Nat) {f : Endpoint → Endpoint} {v : Endpoint → α} (h : ∀ e, v (f e) = v e)
    (m : Nat) : v ((s.modEndpoint n f).endpoint m) = v (s.endpoint m) := by
  by_cases hm : m = n
  · rw [hm, State.endpoint_modEndpoint, h]
  · rw [State.endpoint_modEndpoint_ne _ _ hm]

/-! ## Rows of relay slots that come free (R108, R112, R347, R350) -/

/-- Credits of port endpoints came free and were granted: what the endpoints deliver stays. -/
structure State.freesRows (s t : State) : Prop where
  frame : t = { s with grove := { s.grove with endpoints := t.grove.endpoints }, counters := t.counters, mesh := t.mesh }
  delivering : ∀ n, (t.endpoint n).delivering = (s.endpoint n).delivering
  counter : ∀ k, k ≠ 0x523005 → t.counter k = s.counter k

section
variable {s t u : State} {n : Nat}

theorem State.freesRows_refl (s : State) : s.freesRows s := ⟨rfl, fun _ => rfl, fun _ _ => rfl⟩
theorem State.freesRows.trans (h : s.freesRows t) (k : t.freesRows u) : s.freesRows u :=
  ⟨by rw [k.frame, h.frame], fun n => (k.delivering n).trans (h.delivering n), fun c hc => (k.counter c hc).trans (h.counter c hc)⟩
theorem State.freesRows_send (s : State) (p : Packet) : s.freesRows (s.send p) := ⟨rfl, fun _ => rfl, fun _ _ => rfl⟩
theorem State.freesRows_granted (s : State) (n : Nat) : s.freesRows (s.count 0x523005 n) :=
  ⟨rfl, fun _ => rfl, fun _ hk => State.counter_count_ne _ _ hk⟩
theorem State.freesRows_modEndpoint (s : State) (n : Nat) {f : Endpoint → Endpoint} (h : ∀ e, (f e).delivering = e.delivering) :
    s.freesRows (s.modEndpoint n f) := ⟨rfl, s.modEndpoint_keeps n h, fun _ _ => rfl⟩
theorem State.freesRows_modCredit (s : State) (hn : 5000 ≤ n) (f : CreditUnit → CreditUnit) : s.freesRows (s.modCredit n f) := by
  rw [State.modCredit, if_neg (Nat.not_lt.mpr hn)]
  exact s.freesRows_modEndpoint n fun _ => rfl
theorem State.freesRows_grant (s : State) (hn : 5000 ≤ n) (q : CreditReq) (rows : List Nat) : s.freesRows (s.grant n q rows) :=
  ((s.freesRows_modCredit hn _).trans (State.freesRows_granted ..)).trans (State.freesRows_send ..)
theorem State.freesRows_serveGo (hn : 5000 ≤ n) : ∀ (l : List CreditReq) (blocked : List Nat) (s : State), s.freesRows (State.serveGo n l blocked s)
  | [], _, s => s.freesRows_refl
  | q :: l, blocked, s => by
    unfold State.serveGo
    dsimp only
    repeat' split
    · exact ((s.freesRows_modCredit hn _).trans (State.freesRows_send ..)).trans (State.freesRows_serveGo hn l blocked _)
    · exact State.freesRows_serveGo hn l blocked s
    · exact ((s.freesRows_modCredit hn _).trans (State.freesRows_grant _ hn ..)).trans (State.freesRows_serveGo hn l blocked _)
    · exact State.freesRows_serveGo hn l _ s
theorem State.freesRows_settle (s : State) (hn : 5000 ≤ n) : s.freesRows (s.settle n) := by
  rw [State.settle, if_neg (Nat.not_lt.mpr hn)]
  exact s.freesRows_modEndpoint n fun e => by rw [Endpoint.settle]
theorem State.freesRows_freeRows (s : State) (hn : 5000 ≤ n) (slot : Nat) (rows : List Nat) : s.freesRows (s.freeRows n slot rows) := by
  unfold State.freeRows State.serveQueue
  exact ((s.freesRows_modCredit hn _).trans (State.freesRows_serveGo hn _ _ _)).trans (State.freesRows_settle _ hn)
theorem le_portNode (p : Nat) : 5000 ≤ portNode p := Nat.le_add_right_of_le (by decide)
/-- An acknowledged or lost frame frees rows of the relay slot that it left from, no other unit's. -/
theorem State.freesRows_frameGone (s : State) (f : Frame) : s.freesRows (s.frameGone f) := by
  unfold State.frameGone
  dsimp only
  have hn : 5000 ≤ portNode (f.key / 256) := le_portNode _
  generalize portNode (f.key / 256) = n at hn ⊢
  split_ifs
  · exact s.freesRows_refl
  · exact s.freesRows_freeRows hn ..
  · split
    · exact s.freesRows_refl
    · split
      · refine State.freesRows.trans (s.freesRows_modEndpoint n ?_) (State.freesRows_freeRows _ hn _ _)
        exact fun _ => rfl
      · exact s.freesRows_modEndpoint _ fun _ => rfl
  · exact s.freesRows_refl
theorem State.freesRows_framesGone {α : Type} (g : α → Frame) (l : List α) (s : State) : s.freesRows (l.foldl (fun s e => s.frameGone (g e)) s) :=
  List.foldlRecOn l _ (motive := fun t => s.freesRows t) s.freesRows_refl fun _ ht _ _ => ht.trans (State.freesRows_frameGone ..)
theorem State.freesRows.path (h : s.freesRows t) (a b : Nat) : t.path a b = s.path a b := by rw [h.frame]; rfl

end

/-! ## The places of a path (R344) -/

/-- Frames of a path were sent, or sent again: none left it. -/
structure Path.pumped (x y : Path) : Prop where
  frame : y = { x with unacked := y.unacked, sent := y.sent }
  length : y.unacked.length = x.unacked.length

section
variable {x y z : Path}

theorem Path.pumped_refl (x : Path) : x.pumped x := ⟨rfl, rfl⟩
theorem Path.pumped.trans (h : x.pumped y) (k : y.pumped z) : x.pumped z := ⟨by rw [k.frame, h.frame], k.length.trans h.length⟩
theorem Path.pumped.waiting (h : x.pumped y) : y.waiting = x.waiting := by rw [h.frame]
theorem Path.pumped.nextSeq (h : x.pumped y) : y.nextSeq = x.nextSeq := by rw [h.frame]
theorem Path.pumped.win (h : x.pumped y) : y.win = x.win := by rw [h.frame]

/-- A frame takes a place or waits. -/
theorem Path.put_frame (x : Path) (cap now : Nat) (f : Frame) : x.put cap now f = { x with
    nextSeq := (x.put cap now f).nextSeq, unacked := (x.put cap now f).unacked, waiting := (x.put cap now f).waiting } := by
  unfold Path.put
  split <;> rfl
theorem Path.put_length (x : Path) (cap now : Nat) (f : Frame) :
    (x.put cap now f).unacked.length + (x.put cap now f).waiting.length = x.unacked.length + x.waiting.length + 1 := by
  unfold Path.put
  split
  case isTrue => simpa using Nat.add_right_comm ..
  case isFalse => simp [Nat.add_assoc]
theorem Path.puts_leave (cap now : Nat) : ∀ (l : List Frame) (x : Path), let y := l.foldl (fun p f => p.put cap now f) x
    y = { x with nextSeq := y.nextSeq, unacked := y.unacked, waiting := y.waiting } ∧
      y.unacked.length + y.waiting.length = x.unacked.length + x.waiting.length + l.length
  | [], _ => ⟨rfl, rfl⟩
  | f :: l, x => by
    obtain ⟨hframe, hlength⟩ := Path.puts_leave cap now l (x.put cap now f)
    rw [Path.put_length] at hlength
    refine ⟨?_, ?_⟩
    · rw [List.foldl_cons, hframe, Path.put_frame]
    · rw [List.foldl_cons, hlength, List.length_cons, Nat.add_assoc, Nat.add_comm 1]
theorem Path.refill_frame (x : Path) (cap now : Nat) : x.refill cap now = { x with
    nextSeq := (x.refill cap now).nextSeq, unacked := (x.refill cap now).unacked, waiting := (x.refill cap now).waiting } :=
  (Path.puts_leave cap now x.waiting { x with waiting := [] }).1
/-- No frame is lost when waiting ones take their places. -/
theorem Path.refill_length (x : Path) (cap now : Nat) :
    (x.refill cap now).unacked.length + (x.refill cap now).waiting.length = x.unacked.length + x.waiting.length :=
  (Path.puts_leave cap now x.waiting { x with waiting := [] }).2
theorem Path.refill_win (x : Path) (cap now : Nat) : (x.refill cap now).win = x.win := by rw [Path.refill_frame]
theorem Path.refill_expect (x : Path) (cap now : Nat) : (x.refill cap now).expect = x.expect := by rw [Path.refill_frame]
theorem Path.refill_partner (x : Path) (cap now : Nat) : (x.refill cap now).partner = x.partner := by rw [Path.refill_frame]
/-- A new frame waits behind those that wait, and as many as there are places for take them. -/
def Path.joined (x : Path) (cap now : Nat) (f : Frame) : Path := Path.refill { x with waiting := x.waiting ++ [f] } cap now
theorem Path.joined_length (x : Path) (cap now : Nat) (f : Frame) :
    (x.joined cap now f).unacked.length + (x.joined cap now f).waiting.length = x.unacked.length + x.waiting.length + 1 := by
  rw [Path.joined, Path.refill_length, List.length_append, List.length_singleton, Nat.add_assoc]
/-- It takes a place at once when the path has one and nothing waits. -/
theorem Path.joined_room {cap : Nat} (hw : x.waiting = []) (hroom : x.unacked.length < cap) (now : Nat) (f : Frame) :
    x.joined cap now f =
      { x with unacked := x.unacked ++ [({ f with seq := x.nextSeq }, now)], nextSeq := (x.nextSeq + 1) % 2 ^ 32, waiting := [] } := by
  rw [Path.joined, hw]
  exact if_pos hroom

end

/-! ## Frames on their way -/

/-- Counters that frames on their way, and credits that come free with them, may raise. -/
def transportCounters : List Nat := [0x523005, 0x528001, 0x528005, 0x528008, 0x528009, 0x540002]
/-- Frames took places of paths, left on ports or were lost: what a path expects and whom it knows stays, and so does what the
endpoints deliver. -/
structure State.transports (s t : State) : Prop where
  frame : t = { s with grove := { s.grove with paths := t.grove.paths, endpoints := t.grove.endpoints }, counters := t.counters,
                       mesh := t.mesh, outbox := t.outbox, rel := t.rel }
  delivering : ∀ n, (t.endpoint n).delivering = (s.endpoint n).delivering
  counter : ∀ k, k ∉ transportCounters → t.counter k = s.counter k
  expect : ∀ a b, (t.path a b).expect = (s.path a b).expect
  partner : ∀ a b, (t.path a b).partner = (s.path a b).partner

section
variable {s t u : State}

theorem State.transports_refl (s : State) : s.transports s := ⟨rfl, fun _ => rfl, fun _ _ => rfl, fun _ _ => rfl, fun _ _ => rfl⟩
theorem State.transports.trans (h : s.transports t) (k : t.transports u) : s.transports u :=
  ⟨by rw [k.frame, h.frame], fun n => (k.delivering n).trans (h.delivering n), fun c hc => (k.counter c hc).trans (h.counter c hc),
    fun a b => (k.expect a b).trans (h.expect a b), fun a b => (k.partner a b).trans (h.partner a b)⟩
theorem State.transports_foldl {α : Type} {f : State → α → State} (h : ∀ (s : State) a, s.transports (f s a)) (l : List α) (s : State) :
    s.transports (l.foldl f s) :=
  List.foldlRecOn l f (motive := fun t => s.transports t) s.transports_refl fun _ ht _ _ => ht.trans (h ..)
theorem State.freesRows.transports (h : s.freesRows t) : s.transports t :=
  ⟨by rw [h.frame], h.delivering, fun k hk => h.counter k (ne_of_mem_of_not_mem (by decide) hk).symm,
    fun a b => by rw [h.path], fun a b => by rw [h.path]⟩
theorem State.transports.port (h : s.transports t) (k : Nat) : t.port k = s.port k := by rw [h.frame]; rfl
theorem State.transports.mem (h : s.transports t) : t.mem = s.mem := by rw [h.frame]
theorem State.transports.time (h : s.transports t) : t.time = s.time := by rw [h.frame]
theorem State.transports.weights (h : s.transports t) : t.weights = s.weights := by rw [h.frame]
theorem State.transports.chan (h : s.transports t) (c : Nat) : t.chan c = s.chan c := by rw [h.frame]; rfl
theorem State.transports.ownPlace (h : s.transports t) : t.ownPlace = s.ownPlace := by
  rw [State.ownPlace, State.setting, h.frame, State.ownPlace, State.setting]
theorem State.transports.portUp (h : s.transports t) (p : Nat) : t.portUp p = s.portUp p := by rw [State.portUp, h.port, State.portUp]

theorem State.transports_modPath (s : State) {port peer : Nat} {f : Path → Path}
    (he : (f (s.path port peer)).expect = (s.path port peer).expect) (hp : (f (s.path port peer)).partner = (s.path port peer).partner) :
    s.transports (s.modPath port peer f) := by
  refine ⟨rfl, fun _ => rfl, fun _ _ => rfl, fun a b => ?_, fun a b => ?_⟩ <;> rw [State.path_modPath] <;> split
  case isTrue hk => rw [he, s.path_congr hk]
  case isFalse => rfl
  case isTrue hk => rw [hp, s.path_congr hk]
  case isFalse => rfl
theorem State.transports_count (s : State) {k : Nat} (hk : k ∈ transportCounters) (n : Nat) : s.transports (s.count k n) :=
  ⟨rfl, fun _ => rfl, fun _ hj => State.counter_count_ne _ _ (ne_of_mem_of_not_mem hk hj).symm, fun _ _ => rfl, fun _ _ => rfl⟩
theorem State.transports_emitFrame (s : State) (p peer : Nat) (f : Frame) : s.transports (s.emitFrame p peer f) :=
  ⟨rfl, fun _ => rfl, fun _ hj => State.counter_count_ne s 1 (ne_of_mem_of_not_mem (by decide) hj).symm, fun _ _ => rfl, fun _ _ => rfl⟩
theorem State.transports_log (s : State) (r : ErrRec) : s.transports (s.log r) := by
  refine ⟨?_, fun n => ?_, fun k hk => State.counter_log_ne _ _ (ne_of_mem_of_not_mem (by decide) hk).symm, fun a b => ?_, fun a b => ?_⟩ <;>
    rw [State.log_frame] <;> rfl

/-- What WIN lets go: the frames stay on their path. -/
theorem State.transports_pumpPath (port peer : Nat) : ∀ (k : Nat) (s : State), s.transports (State.pumpPath port peer k s)
  | 0, s => s.transports_refl
  | k + 1, s => by
    simp only [State.pumpPath]
    split
    case isTrue =>
      split
      case h_1 => exact s.transports_refl
      case h_2 => exact ((s.transports_modPath rfl rfl).trans (State.transports_emitFrame ..)).trans (State.transports_pumpPath port peer k _)
    case isFalse => exact s.transports_refl
theorem State.path_pumpPath (port peer a b : Nat) : ∀ (k : Nat) (s : State), (s.path a b).pumped ((State.pumpPath port peer k s).path a b)
  | 0, s => Path.pumped_refl _
  | k + 1, s => by
    simp only [State.pumpPath]
    split
    case isTrue =>
      split
      case h_1 => exact Path.pumped_refl _
      case h_2 =>
        refine Path.pumped.trans ?_ (State.path_pumpPath port peer a b k _)
        rw [show ∀ (t : State) f, (t.emitFrame port peer f).path a b = t.path a b from fun _ _ => rfl, State.path_modPath]
        split
        case isTrue hk =>
          rw [s.path_congr hk]
          exact ⟨rfl, List.length_set⟩
        case isFalse => exact Path.pumped_refl _
    case isFalse => exact Path.pumped_refl _
theorem State.mesh_pumpPath (port peer : Nat) : ∀ (k : Nat) (s : State), (State.pumpPath port peer k s).mesh = s.mesh
  | 0, _ => rfl
  | k + 1, s => by
    simp only [State.pumpPath]
    split
    case isTrue =>
      split
      case h_1 => rfl
      case h_2 => exact State.mesh_pumpPath port peer k _
    case isFalse => rfl

/-- The path with one frame more, before WIN lets it go. -/
def State.joinPath (s : State) (port peer : Nat) (f : Frame) : State := s.modPath port peer fun x => x.joined (pathCap port) s.time.tick f
theorem State.pathSend_eq (s : State) (port peer : Nat) (f : Frame) : s.pathSend port peer f =
    State.pumpPath port peer ((s.joinPath port peer f).path port peer).unacked.length (s.joinPath port peer f) := rfl
theorem State.transports_pathSend (s : State) (port peer : Nat) (f : Frame) : s.transports (s.pathSend port peer f) :=
  (s.transports_modPath (Path.refill_expect ..) (Path.refill_partner ..)).trans (State.transports_pumpPath ..)
theorem State.path_pathSend (s : State) (port peer : Nat) (f : Frame) :
    ((s.path port peer).joined (pathCap port) s.time.tick f).pumped ((s.pathSend port peer f).path port peer) := by
  rw [State.pathSend_eq]
  refine Path.pumped.trans ?_ (State.path_pumpPath ..)
  rw [State.joinPath, State.path_modPath_same]
  exact Path.pumped_refl _
/-- A path that is sent one frame more holds one more. -/
theorem State.length_pathSend (s : State) (port peer : Nat) (f : Frame) : let x := s.path port peer
    let y := (s.pathSend port peer f).path port peer
    y.unacked.length + y.waiting.length = x.unacked.length + x.waiting.length + 1 := by
  have h := s.path_pathSend port peer f
  dsimp only
  rw [h.length, h.waiting, Path.joined_length]
/-- With a place for it and none waiting, it takes the next number. -/
theorem State.room_pathSend (s : State) {port peer : Nat} (f : Frame) (hw : (s.path port peer).waiting = [])
    (hroom : (s.path port peer).unacked.length < pathCap port) : let y := (s.pathSend port peer f).path port peer
    y.waiting = [] ∧ y.unacked.length = (s.path port peer).unacked.length + 1 ∧
      y.nextSeq = ((s.path port peer).nextSeq + 1) % 2 ^ 32 := by
  have h := s.path_pathSend port peer f
  rw [Path.joined_room hw hroom] at h
  exact ⟨h.waiting, h.length.trans List.length_append, h.nextSeq⟩
theorem State.path_pathSend_ne (s : State) {port peer a b : Nat} (f : Frame) (h : pathKey a b ≠ pathKey port peer) :
    (s.path a b).pumped ((s.pathSend port peer f).path a b) := by
  rw [State.pathSend_eq]
  refine Path.pumped.trans ?_ (State.path_pumpPath ..)
  rw [State.joinPath, State.path_modPath, if_neg h]
  exact Path.pumped_refl _

theorem State.transports_unreachable (s : State) (f : Frame) : s.transports (s.unreachable f) :=
  ((s.transports_count (by decide) 1).trans (State.transports_log ..)).trans (State.freesRows_frameGone ..).transports
/-- A frame is discarded, or it takes the path of a grove port that is UP or of a canopy port (R352, R354). -/
theorem State.route_cases (s : State) (port : Nat) (f : Frame) : s.route port f = s.unreachable f ∨ ∃ (alt : Bool) (q peer : Nat),
    (s.portUp q = true ∧ peer = 0 ∨ q = 12 ∨ q = 13) ∧ s.route port f = (if alt then s.count 0x528008 else s).pathSend q peer f := by
  unfold State.route
  split
  case isTrue =>
    split
    case h_1 => exact .inl rfl
    case h_2 q alt hhop => exact .inr ⟨alt, q, 0, .inl ⟨List.find?_some (p := fun e : Nat × Bool => s.portUp e.1) hhop, rfl⟩, rfl⟩
  case isFalse =>
    dsimp only
    refine .inr ⟨false, ?_⟩
    by_cases hport : port = 13
    · rw [if_pos hport]
      split
      · exact ⟨12, _, .inr (.inl rfl), rfl⟩
      · exact ⟨13, _, .inr (.inr rfl), rfl⟩
    · rw [if_neg hport]
      split
      · exact ⟨13, _, .inr (.inr rfl), rfl⟩
      · exact ⟨12, _, .inr (.inl rfl), rfl⟩
theorem State.transports_rerouted (s : State) (alt : Bool) : s.transports (if alt then s.count 0x528008 else s) := by
  cases alt
  · exact s.transports_refl
  · exact s.transports_count (by decide) 1
theorem State.transports_route (s : State) (port : Nat) (f : Frame) : s.transports (s.route port f) := by
  obtain h | ⟨alt, q, peer, -, h⟩ := s.route_cases port f <;> rw [h]
  · exact s.transports_unreachable f
  · exact (s.transports_rerouted alt).trans (State.transports_pathSend ..)
/-- A frame of the flag unit holds no credit, whatever becomes of it. -/
theorem State.mesh_route_barrier (s : State) (port : Nat) {f : Frame} (hf : f.kind = 4) : (s.route port f).mesh = s.mesh := by
  obtain h | ⟨alt, q, peer, -, h⟩ := s.route_cases port f <;> rw [h]
  · rw [State.unreachable, State.frameGone_barrier _ hf, State.record, State.log_frame]
    rfl
  · refine (State.mesh_pumpPath ..).trans ?_
    cases alt <;> rfl

/-! ## Acknowledgements (R344) -/

/-- The path once the frames before ACK have left it and WIN is known. -/
def Path.acked (x : Path) (cap now ack win : Nat) : Path :=
  Path.refill { x with unacked := x.unacked.drop (x.ackedBy ack), sent := x.sent - x.ackedBy ack, win := win } cap now
theorem Path.acked_length (x : Path) (cap now ack win : Nat) : (x.acked cap now ack win).unacked.length +
    (x.acked cap now ack win).waiting.length = x.unacked.length - x.ackedBy ack + x.waiting.length := by
  rw [Path.acked, Path.refill_length, List.length_drop]
/-- The acknowledged frames have left the path, and what they held is free. -/
def State.ackTaken (s : State) (port peer ack win : Nat) : State :=
  ((s.path port peer).unacked.take ((s.path port peer).ackedBy ack)).foldl (fun s e => s.frameGone e.1)
    (s.modPath port peer fun x => x.acked (pathCap port) s.time.tick ack win)
theorem State.ackPath_eq (s : State) (port peer ack win : Nat) : s.ackPath port peer ack win =
    State.pumpPath port peer ((s.ackTaken port peer ack win).path port peer).unacked.length (s.ackTaken port peer ack win) := by
  simp only [State.ackPath, State.ackTaken, State.modPath, Path.acked]
theorem State.transports_ackPath (s : State) (port peer ack win : Nat) : s.transports (s.ackPath port peer ack win) := by
  rw [State.ackPath_eq]
  exact ((s.transports_modPath (Path.refill_expect ..) (Path.refill_partner ..)).trans (State.freesRows_framesGone ..).transports).trans
    (State.transports_pumpPath ..)
theorem State.path_ackPath (s : State) (port peer ack win : Nat) :
    ((s.path port peer).acked (pathCap port) s.time.tick ack win).pumped ((s.ackPath port peer ack win).path port peer) := by
  have htaken : (s.ackTaken port peer ack win).path port peer = (s.path port peer).acked (pathCap port) s.time.tick ack win := by
    rw [State.ackTaken, (State.freesRows_framesGone ..).path, State.path_modPath_same]
  rw [State.ackPath_eq, ← htaken]
  exact State.path_pumpPath ..

end

end Sys2Proof.Machine
end

section
/-! Modes, hellos, cables and neighbours of a port (11 R336 to R341, R354; 16 R470), and what becomes of the frames of a port that is not UP
(11 R345, R353). -/

namespace Sys2Proof.Machine

/-! ## Commands that only count, or only change a port -/

section
variable {s : State} {i : Instr}

theorem State.countsOnly_count (s : State) (k n : Nat) : s.countsOnly (s.count k n) k n :=
  ⟨State.counter_count .., fun _ hj => State.counter_count_ne _ _ hj⟩
theorem State.gives_count {k : Nat} (h : exec i s = .next (s.count k)) :
    s.gives i fun t => t = { s with counters := t.counters } ∧ s.countsOnly t k 1 := ⟨_, h, rfl, s.countsOnly_count k 1⟩
theorem State.gives_modPort {p : PortId} {f : Port → Port} {x : Port} (h : exec i s = .next (s.modPort p f)) (hx : f (s.port p) = x) :
    s.gives i fun t => t = { s with grove := { s.grove with ports := t.grove.ports } } ∧
      (∀ k, k ≠ p.val → t.port k = s.port k) ∧ t.port p = x :=
  ⟨_, h, rfl, fun _ hk => State.port_modPort_ne _ _ hk, hx ▸ State.port_modPort ..⟩

end

/-! ## Modes (R336, R337) -/

theorem bit_eq_testBit (n i : Nat) : bit n i = n.testBit i := Nat.testBit_eq_decide_div_mod_eq.symm
theorem bit_and_mask (a m : Nat) (b : BitVec 8) : bit (a &&& b.toNat) m = (bit a m && b.getLsbD m) := by
  rw [bit_eq_testBit, Nat.testBit_and, BitVec.testBit_toNat, bit_eq_testBit]
theorem lowestMode_eq_some {n m : Nat} : lowestMode n = some m ↔ bit n m = true ∧ m < 8 ∧ ∀ d, d < m → bit n d = false := by
  rw [lowestMode, List.find?_range_eq_some, List.mem_range]
  simp only [Bool.not_eq_true']
theorem lowestMode_eq_none {n : Nat} : lowestMode n = none ↔ ∀ m, m < 8 → bit n m = false := by
  rw [lowestMode, List.find?_range_eq_none]
  simp only [Bool.not_eq_true']

section
variable {s : State} {p : PortId} {partner : BitVec 8}

theorem exec_portModeNegotiation_off (h : (s.port p).cable = false ∨ (s.port p).powered = false) :
    exec (.portModeNegotiation p partner) s = .next s := by
  refine if_neg ?_
  rintro ⟨hc, hp⟩
  exact h.elim (fun h => Bool.false_ne_true (h.symm.trans hc)) fun h => Bool.false_ne_true (h.symm.trans hp)
theorem exec_portModeNegotiation (hc : (s.port p).cable = true) (hp : (s.port p).powered = true) :
    exec (.portModeNegotiation p partner) s = .next (match lowestMode (s.ownModes p &&& partner.toNat) with
      | some m => s.portLocked p m
      | none => s.modPort p fun x => { x with st := 1, pcs := false, reason := 0 }) := if_pos ⟨hc, hp⟩
/-- The port in mode m with block lock (R341). -/
def Port.locked (x : Port) (grove : Prop) [Decidable grove] (m now : Nat) : Port :=
  { x with st := if grove then 2 else if x.gwok then 3 else 2, mode := m, reason := 0, pcs := true, rounds := [], lastHello := now }
theorem State.portLocked_eq (s : State) (p m : Nat) : s.portLocked p m =
    let t := s.modPort p fun x => x.locked (p < 12) m s.time.tick
    let u := if lowestMode (s.ownModes p) = some m then t else t.count 0x528007
    if p < 12 then u else u.solicit p := rfl
/-- Its state, the count of reduced modes, and the solicitation of a canopy port. -/
theorem State.portLocked_leaves (s : State) (p : PortId) {m : Nat} (hm : bit (s.ownModes p) m = true ∧ m < 8) :
    let t := s.portLocked p m
    t = { s with grove := { s.grove with ports := t.grove.ports }, counters := t.counters, outbox := t.outbox } ∧
      (∀ k, k ≠ p.val → t.port k = s.port k) ∧ t.port p = (s.port p).locked (p.val < 12) m s.time.tick ∧
      (t.counter 0x528007 = if ∃ d, d < m ∧ bit (s.ownModes p) d = true then (s.counter 0x528007 + 1) % 2 ^ 64 else s.counter 0x528007) ∧
      t.outbox = if p.val < 12 then s.outbox else .neighbour p true (s.gateway p) :: s.outbox := by
  have hlow : (∃ d, d < m ∧ bit (s.ownModes p) d = true) ↔ ¬ lowestMode (s.ownModes p) = some m := by
    simp [lowestMode_eq_some, hm]
  have hport (k : Nat) : (s.portLocked p m).port k = (s.modPort p fun x => x.locked (p.val < 12) m s.time.tick).port k := by
    rw [State.portLocked_eq]
    split_ifs <;> rfl
  refine ⟨?_, fun k hk => (hport k).trans (State.port_modPort_ne _ _ hk), (hport p).trans (State.port_modPort ..), ?_, ?_⟩
  · rw [State.portLocked_eq]
    split_ifs <;> rfl
  · simp only [hlow, State.portLocked_eq]
    split_ifs
    · rfl
    · exact State.counter_count ..
    · rfl
    · exact State.counter_count ..
  · rw [State.portLocked_eq]
    split_ifs <;> rfl

end

/-! ## Ethernet frames that come in (R338, R342, R343) -/

section
variable {s : State} {p : PortId} {e : Ether} {b : List Byte} {peer mac : Nat}

/-- An Ethernet frame that a grove port takes as a transport frame (R338). -/
def forGrove (e : Ether) (p : Nat) : Prop :=
  e.vlan = none ∧ e.etype = 0x88B5 ∧ (e.dst = portMac p ∨ (e.dst = broadcast ∧ (decFrame e.data).kind = 0))
theorem State.etherIn_off (h : (s.port p).pcs = false) : s.etherIn p e = s := by rw [State.etherIn, h]; rfl
theorem State.etherIn_foreign (hp : p.val < 12) (h : (s.port p).pcs = true) (hf : ¬ forGrove e p) : s.etherIn p e = s.count 0x52800E := by
  rw [State.etherIn, h, if_neg (by decide), if_pos hp]
  exact if_neg hf
theorem State.etherIn_grove (hp : p.val < 12) (h : (s.port p).pcs = true) (hf : forGrove e p) :
    s.etherIn p e = s.transportIn p 0 e.src e.data := by
  rw [State.etherIn, h, if_neg (by decide), if_pos hp]
  exact if_pos hf
/-- An Ethernet frame that carries a transport frame brings it to the port. -/
theorem State.etherIn_carries (h : s.carries p e peer b) : s.etherIn p e = s.transportIn p peer e.src b := by
  obtain ⟨hp, hpcs, hpeer, hvlan, htype, hdst, hb⟩ | ⟨hp, hpcs, hvlan, htype, hver, hnext, hpeer, haddr, hsrc, hdst, hb⟩ := h
  · rw [State.etherIn_grove hp hpcs ⟨hvlan, htype, .inl hdst⟩, hpeer, hb]
  · have hicmp : ¬ (beNat (slice e.data 6 1) = 58 ∧ (beNat (slice e.data 40 1) = 135 ∨ beNat (slice e.data 40 1) = 136)) := by
      have hudp : beNat (slice e.data 6 1) = 17 := hnext
      omega
    rw [State.etherIn, hpcs, if_neg (by decide), if_neg (Nat.not_lt.mpr hp), hvlan, if_neg nofun,
      if_pos ⟨rfl, htype⟩, State.ipv6In]
    dsimp only
    rw [if_neg hicmp, if_pos ⟨hver, hnext, haddr, hsrc, hdst⟩, hpeer, hb]

variable {port : Nat}

theorem State.transportIn_bad (h : s.frameBad port b = true) : s.transportIn port peer mac b = s.count 0x528004 := if_pos h
theorem State.transportIn_stale (hb : s.frameBad port b = false) (hs : s.frameStale port (decFrame b) = true) :
    s.transportIn port peer mac b = s.count 0x528005 := by
  rw [State.transportIn, hb]
  exact if_pos hs
theorem State.transportIn_hello (hb : s.frameBad port b = false) (hs : s.frameStale port (decFrame b) = false)
    (hk : (decFrame b).kind = 0) : s.transportIn port peer mac b = s.hello port mac (decFrame b) := by
  rw [State.transportIn, hb, hs]
  exact if_pos hk
theorem State.transportIn_frame (hb : s.frameBad port b = false) (hs : s.frameStale port (decFrame b) = false)
    (hk : (decFrame b).kind ≠ 0) :
    s.transportIn port peer mac b = if s.portUp port then s.frameIn port peer (decFrame b) else s := by
  rw [State.transportIn, hb, hs]
  exact if_neg hk

end

/-! ## Hellos (R341, R345) -/

section
variable {s : State} {p : PortId}

/-- A hello left the port. -/
def State.helloSent (s : State) (p : Nat) : State :=
  (s.modPort p fun x => { x with lastSent := s.time.tick }).emitFrame p 0 { s.frameHdr p 0 0 0 with payload := s.helloBytes p }
theorem exec_helloSend (h : s.helloDue p = true) : exec (.helloSend p) s = .next (s.helloSent p) := if_pos h
theorem State.helloDue_grove (h : s.helloDue p = true) : p.val < 12 := by
  simp only [State.helloDue, Bool.and_eq_true, decide_eq_true_eq] at h
  exact h.1.1
/-- A hello goes to the broadcast address. -/
theorem State.onWire_hello {p : Nat} (s : State) (hp : p < 12) {f : Frame} (hf : f.kind = 0) (peer : Nat) : s.onWire p peer f =
    { dst := broadcast, src := portMac p, vlan := none, etype := 0x88B5, data := encFrame f } := by
  simp only [State.onWire, hp, hf, and_self, if_true, transportType]
theorem State.helloSent_leaves (hp : p.val < 12) :
    let t := s.helloSent p
    t = { s with grove := { s.grove with ports := t.grove.ports }, counters := t.counters, outbox := t.outbox } ∧
      ((∀ k, k ≠ p.val → t.port k = s.port k) ∧ t.port p = { s.port p with lastSent := s.time.tick }) ∧ s.countsOnly t 0x528001 1 ∧
      t.outbox = .ether p { dst := broadcast, src := portMac p, vlan := none, etype := 0x88B5,
                            data := encFrame { s.frameHdr p 0 0 0 with payload := s.helloBytes p } } :: s.outbox := by
  refine ⟨rfl, ⟨fun k hk => State.port_modPort_ne s (fun x => { x with lastSent := s.time.tick }) hk,
    s.port_modPort p fun x => { x with lastSent := s.time.tick }⟩, s.countsOnly_count 0x528001 1, ?_⟩
  rw [← State.onWire_hello (s.modPort p fun x => { x with lastSent := s.time.tick }) hp rfl 0]
  rfl

end

section
variable {s : State} {port mac : Nat} {f : Frame}

theorem State.helloCheck_count (s : State) (k n port : Nat) (f : Frame) : (s.count k n).helloCheck port f = s.helloCheck port f := rfl
/-- A FAILED port acts on no hello. -/
theorem State.hello_failed (h : (s.port port).st = 5) : s.hello port mac f = s := if_pos (.inr h)
theorem State.hello_held {r : Nat} (hp : port < 12) (hst : (s.port port).st ≠ 5) (hc : s.helloCheck port f = some r) : s.hello port mac f =
    (if (s.port port).st = 4 then s.count 0x528002 else (s.count 0x528002).count 0x528006).modPort port fun x =>
      { x with st := 4, reason := r } := by
  have hcond : ¬ (12 ≤ port ∨ (s.port port).st = 5) := by omega
  rw [State.hello, if_neg hcond]
  dsimp only
  rw [State.helloCheck_count, hc]

theorem State.hello_held_leaves {r : Nat} (hp : port < 12) (hst : (s.port port).st ≠ 5) (hc : s.helloCheck port f = some r) :
    let t := s.hello port mac f
    t = { s with grove := { s.grove with ports := t.grove.ports }, counters := t.counters } ∧
      ((∀ k, k ≠ port → t.port k = s.port k) ∧ t.port port = { s.port port with st := 4, reason := r }) ∧
      t.counter 0x528002 = (s.counter 0x528002 + 1) % 2 ^ 64 ∧
      t.counter 0x528006 = if (s.port port).st = 4 then s.counter 0x528006 else (s.counter 0x528006 + 1) % 2 ^ 64 := by
  dsimp only
  rw [State.hello_held hp hst hc]
  refine ⟨by split <;> rfl, ⟨fun k hk => ?_, ?_⟩, ?_, ?_⟩
  · rw [State.port_modPort_ne _ _ hk]
    split <;> rfl
  · rw [State.port_modPort]
    split <;> rfl
  · refine Eq.trans ?_ (State.counter_count s 0x528002 1)
    split
    · rfl
    · exact State.counter_count_ne (s.count 0x528002) 1 (by decide)
  · have hheld : (s.count 0x528002).counter 0x528006 = s.counter 0x528006 := State.counter_count_ne s 1 (by decide)
    split
    · exact hheld
    · rw [← hheld]
      exact State.counter_count (s.count 0x528002) 0x528006 1

/-- The port after a valid hello. -/
def Port.greeted (x : Port) (f : Frame) (now mac : Nat) : Port :=
  { x with st := 3, reason := 0, peerPort := beNat (slice f.payload 9 1), peerPos := beNat (slice f.payload 8 1), lastHello := now,
           peerMac := mac }
/-- A path with nothing on its way goes on at the number that the partner expects (log 44). -/
def State.resumePath (s : State) (port : Nat) (f : Frame) : State :=
  if (s.path port 0).unacked = [] then s.modPath port 0 fun x => { x with nextSeq := f.ack } else s
theorem State.hello_up (hp : port < 12) (hst : (s.port port).st ≠ 5) (hc : s.helloCheck port f = none) : s.hello port mac f =
    ((((s.count 0x528002).modPort port fun x => x.greeted f s.time.tick mac).learnPartner port 0 f.sinc).resumePath port f).ackPath
      port 0 f.ack f.win := by
  have hcond : ¬ (12 ≤ port ∨ (s.port port).st = 5) := by omega
  rw [State.hello, if_neg hcond]
  dsimp only
  rw [State.helloCheck_count, hc]
  rfl
theorem State.transports_resumePath (s : State) (port : Nat) (f : Frame) : s.transports (s.resumePath port f) := by
  unfold State.resumePath
  split
  · exact s.transports_modPath rfl rfl
  · exact s.transports_refl

/-- The partner's incarnation is noted on its path alone; frames sent again or lost change no more than frames on their way (R345). -/
theorem State.learnPartner_leaves (s : State) (port peer inc : Nat) : ∃ u : State,
    u = { s with grove := { s.grove with paths := u.grove.paths } } ∧ (u.path port peer).partner = inc ∧
      u.transports (s.learnPartner port peer inc) := by
  unfold State.learnPartner
  dsimp only
  split_ifs with hk hz
  · exact ⟨s, rfl, hk, s.transports_refl⟩
  · exact ⟨_, rfl, by rw [State.path_modPath_same], State.transports_refl _⟩
  · refine ⟨s.modPath port peer fun _ => { partner := inc }, rfl, by rw [State.path_modPath_same], ?_⟩
    unfold State.restartPath
    exact (State.transports_foldl (fun s f => (s.transports_count (by decide) 1).trans (State.freesRows_frameGone ..).transports) _ _).trans
      (State.transports_foldl (fun s f => s.transports_pathSend ..) _ _)
theorem State.learnPartner_known {peer inc : Nat} (h : (s.path port peer).partner = inc) : s.learnPartner port peer inc = s := if_pos h

/-- A valid hello makes the port UP and names its partner. -/
theorem State.hello_up_leaves (hp : port < 12) (hst : (s.port port).st ≠ 5) (hc : s.helloCheck port f = none) :
    let t := s.hello port mac f
    ((∀ k, k ≠ port → t.port k = s.port k) ∧ t.port port = (s.port port).greeted f s.time.tick mac) ∧
      (t.path port 0).partner = f.sinc ∧ t.counter 0x528002 = (s.counter 0x528002 + 1) % 2 ^ 64 ∧ t.mem = s.mem ∧ t.time = s.time := by
  obtain ⟨u, hu, hpartner, hlearned⟩ :=
    ((s.count 0x528002).modPort port fun x => x.greeted f s.time.tick mac).learnPartner_leaves port 0 f.sinc
  have h := (hlearned.trans (State.transports_resumePath _ port f)).trans (State.transports_ackPath _ port 0 f.ack f.win)
  rw [← State.hello_up hp hst hc] at h
  have hport (k : Nat) : u.port k = (s.modPort port fun x => x.greeted f s.time.tick mac).port k := by rw [hu]; rfl
  refine ⟨⟨fun k hk => ?_, ?_⟩, (h.partner ..).trans hpartner, ?_, ?_, ?_⟩
  · rw [h.port, hport, State.port_modPort_ne _ _ hk]
  · rw [h.port, hport, State.port_modPort]
  · rw [h.counter _ (by decide), hu]
    exact State.counter_count ..
  · rw [h.mem, hu]
    rfl
  · rw [h.time, hu]
    rfl

end

/-! ## Frames of a port that is not UP (R353) -/

/-- The frames of one path enter R352 again. -/
def State.movePath (s : State) (port peer : Nat) : State :=
  (s.strip port peer).1.foldl (fun s f => s.moveFrame port peer f) (s.strip port peer).2
theorem exec_reroute {s : State} {p : PortId} (h : s.portUp p = false) :
    exec (.reroute p) s = .next ((s.busyPeers p).foldl (fun s peer => s.movePath p peer) s) := by
  change execReroute p s = _
  rw [execReroute, h]
  rfl
theorem State.transports_moveFrame (s : State) (port peer : Nat) (f : Frame) : s.transports (s.moveFrame port peer f) := by
  unfold State.moveFrame
  split
  · exact s.transports_pathSend ..
  · exact s.transports_route ..
theorem State.transports_strip (s : State) (port peer : Nat) : s.transports (s.strip port peer).2 := by
  unfold State.strip
  dsimp only
  refine State.transports_modPath s ?_ ?_ <;> rfl
theorem State.transports_movePath (s : State) (port peer : Nat) : s.transports (s.movePath port peer) :=
  (s.transports_strip port peer).trans (State.transports_foldl (fun s f => s.transports_moveFrame port peer f) _ _)

/-- Nothing is on its way. -/
def Path.idle (x : Path) : Prop := x.unacked = [] ∧ x.waiting = []
/-- Every frame of a path may enter R352 again: none is of a shard (R358). -/
def Path.movable (x : Path) : Prop :=
  (∀ e, e ∈ x.unacked → e.1.kind ≠ 5 ∧ e.1.kind ≠ 6) ∧ ∀ f, f ∈ x.waiting → f.kind ≠ 5 ∧ f.kind ≠ 6
theorem Path.idle.movable {x : Path} (h : x.idle) : x.movable := by
  obtain ⟨hu, hw⟩ := h
  rw [Path.movable, hu, hw]
  exact ⟨fun _ h => absurd h List.not_mem_nil, fun _ h => absurd h List.not_mem_nil⟩
theorem Path.pumped.idle {x y : Path} (h : x.pumped y) (hx : x.idle) : y.idle :=
  ⟨List.eq_nil_of_length_eq_zero (h.length.trans (congrArg List.length hx.1)), h.waiting.trans hx.2⟩

section
variable {s : State} {port : Nat}

/-- The frames taken off a path are those that it held. -/
theorem State.kind_strip {peer : Nat} {P : Nat → Prop} (hu : ∀ e, e ∈ (s.path port peer).unacked → P e.1.kind)
    (hw : ∀ f, f ∈ (s.path port peer).waiting → P f.kind) {f : Frame} (hf : f ∈ (s.strip port peer).1) : P f.kind := by
  obtain hf | hf := List.mem_append.mp hf
  · obtain ⟨e, he, rfl⟩ := List.mem_map.mp hf
    have hkind := hu e.1 (List.fst_mem_of_mem_zipIdx he)
    split <;> exact hkind
  · exact hw f hf
/-- A frame that enters R352 again takes no path of a grove port that is not UP. -/
theorem State.idle_moveFrame (hp : port < 12) (hdown : s.portUp port = false) {f : Frame} (hf : f.kind ≠ 5 ∧ f.kind ≠ 6) (peer : Nat)
    (hidle : (s.path port 0).idle) : ((s.moveFrame port peer f).path port 0).idle := by
  rw [State.moveFrame, if_neg (by omega)]
  obtain h | ⟨alt, q, a, hq, h⟩ := s.route_cases port f <;> rw [h]
  · rw [State.unreachable, (State.freesRows_frameGone ..).path, State.record, State.log_frame]
    exact hidle
  · have hkey : pathKey port 0 ≠ pathKey q a := by
      rw [pathKey, pathKey, if_pos hp]
      obtain ⟨hup, rfl⟩ | rfl | rfl := hq
      · have hne : port ≠ q := fun h => Bool.false_ne_true (hdown.symm.trans (h ▸ hup))
        split <;> omega
      · rw [if_neg (by decide)]
        omega
      · rw [if_neg (by decide)]
        omega
    refine (State.path_pathSend_ne _ f hkey).idle ?_
    cases alt <;> exact hidle
theorem State.idle_strip (s : State) (port peer : Nat) : ((s.strip port peer).2.path port peer).idle := by
  unfold State.strip
  rw [State.path_modPath_same]
  exact ⟨rfl, rfl⟩
theorem State.idle_moveFrames (hp : port < 12) (peer : Nat) : ∀ (l : List Frame) {s : State}, s.portUp port = false →
    (∀ f, f ∈ l → f.kind ≠ 5 ∧ f.kind ≠ 6) → (s.path port 0).idle → ((l.foldl (fun s f => s.moveFrame port peer f) s).path port 0).idle
  | [], _, _, _, hidle => hidle
  | f :: l, s, hdown, hl, hidle => State.idle_moveFrames hp peer l (((s.transports_moveFrame port peer f).portUp port).trans hdown)
      (fun g hg => hl g (List.mem_cons_of_mem _ hg)) (State.idle_moveFrame hp hdown (hl f List.mem_cons_self) peer hidle)
theorem State.idle_movePath (hp : port < 12) (hdown : s.portUp port = false) (hmov : (s.path port 0).movable) (peer : Nat) :
    ((s.movePath port peer).path port 0).idle := by
  have hkey : pathKey port 0 = pathKey port peer := by rw [pathKey, pathKey, if_pos hp, if_pos hp]
  obtain ⟨hu, hw⟩ := hmov
  rw [s.path_congr hkey] at hu hw
  have hidle := s.idle_strip port peer
  rw [← State.path_congr _ hkey] at hidle
  exact State.idle_moveFrames hp peer _ (((s.transports_strip port peer).portUp port).trans hdown)
    (fun f hf => State.kind_strip (P := fun k => k ≠ 5 ∧ k ≠ 6) hu hw hf) hidle
theorem State.idle_movePaths (hp : port < 12) : ∀ (l : List Nat) {s : State}, s.portUp port = false → (s.path port 0).idle →
    ((l.foldl (fun s peer => s.movePath port peer) s).path port 0).idle
  | [], _, _, hidle => hidle
  | peer :: l, s, hdown, hidle => State.idle_movePaths hp l (((s.transports_movePath port peer).portUp port).trans hdown)
      (State.idle_movePath hp hdown hidle.movable peer)
/-- A path without frames is no busy one. -/
theorem State.unacked_of_not_busy (hp : port < 12) (h : s.busyPeers port = []) : (s.path port 0).unacked = [] := by
  have hkey : pathKey port 0 = port := by rw [pathKey, if_pos hp]; rfl
  rw [State.path, hkey]
  refine Tab.get_of_forall (P := fun x : Path => x.unacked = []) rfl fun e he hek => ?_
  have hnone := List.filter_eq_nil_iff.mp (List.map_eq_nil_iff.mp h) e he
  by_contra hbusy
  exact hnone (decide_eq_true ⟨by rw [hek, Nat.mod_eq_of_lt (by omega)], hbusy⟩)
theorem State.rerouted_leaves (hdown : s.portUp port = false) :
    let t := (s.busyPeers port).foldl (fun s peer => s.movePath port peer) s
    s.transports t ∧ (port < 12 → (s.path port 0).movable → (t.path port 0).unacked = []) := by
  refine ⟨State.transports_foldl (fun s peer => s.transports_movePath port peer) _ s, fun hp hmov => ?_⟩
  cases hpeers : s.busyPeers port with
  | nil => exact State.unacked_of_not_busy hp hpeers
  | cons peer peers =>
    exact (State.idle_movePaths hp peers (((s.transports_movePath port peer).portUp port).trans hdown)
      (State.idle_movePath hp hdown hmov peer)).1

end

/-! ## Cables and neighbours (R354, R470) -/

section
variable {s : State} {p : PortId}

/-- A cable that draws too much is recorded, and its port is DOWN. -/
theorem State.cableRefused_leaves (s : State) (p : PortId) (f : Port → Port) :
    let t := (s.modPort p f).record 0x0601 0 (leBytes 1 p.val ++ leBytes 1 2) (portNode p) p
    t = { s with grove := { s.grove with ports := t.grove.ports }, rel := t.rel, counters := t.counters } ∧
      ((∀ k, k ≠ p.val → t.port k = s.port k) ∧ t.port p = f (s.port p)) ∧
      (s.rel.collector.length < 4096 → ∃ r, t.rel.collector = s.rel.collector ++ [r] ∧ r.cls = 0x0601 ∧
        r.detail = leBytes 1 p.val ++ leBytes 1 2) := by
  have hport (r : ErrRec) (k : Nat) : ((s.modPort p f).log r).port k = (s.modPort p f).port k := by rw [State.log_frame]; rfl
  dsimp only
  unfold State.record
  refine ⟨by rw [State.log_frame]; rfl, ⟨fun k hk => ?_, ?_⟩, fun hroom => ?_⟩
  · rw [hport, State.port_modPort_ne _ _ hk]
  · rw [hport, State.port_modPort]
  · obtain ⟨r, hr, hcls, -, hdetail, -⟩ := State.collector_log (s.modPort p f) _ hroom
    exact ⟨r, hr, hcls, hdetail⟩

theorem exec_neighbourSolicitation_foreign (h : p.val < 12 ∨ (s.port p).pcs = false) (target : List Byte) (answer : Option Nat) :
    exec (.neighbourSolicitation p target answer) s = .next (s.count 0x52800E) :=
  if_pos (h.imp_right fun h => by rw [h]; rfl)
theorem exec_neighbourSolicitation (h : ¬ (p.val < 12 ∨ (s.port p).pcs = false)) (target : List Byte) (answer : Option Nat) :
    exec (.neighbourSolicitation p target answer) s = .next (s.neighbourIn p target answer) :=
  if_neg fun hf => h (hf.imp_right fun hf => by rw [← Bool.not_eq_true', hf])
theorem State.neighbourIn_answer {target : List Byte} {mac : Nat} : s.neighbourIn p target (some mac) =
    if target = s.gateway p then s.modPort p fun x => { x with gwok := true, st := 3, peerMac := mac } else s.count 0x52800E := rfl

end

/-- Settles O52, one command after the other. The field GROVE of a hello is a check of Table 11.3 (log 43), and the partner's address is
that of its hello or of the gateway's answer (log 135): both are the model's reading. -/
theorem portCommands : Obligations.PortCommands := by
  unfold Obligations.PortCommands
  intro s only
  refine ⟨fun p partner => ?mode, fun p => State.gives_modPort rfl rfl, fun p => ?send, fun p e => ?hello,
    fun p => ⟨fun h => if_neg h, fun h => State.gives_modPort (if_pos h) rfl⟩,
    fun p mw => ⟨fun h => State.gives_modPort (if_pos h) rfl, fun h => ⟨_, if_neg (Nat.not_le.mpr h), State.cableRefused_leaves ..⟩⟩,
    fun p => State.gives_modPort rfl rfl, fun p => ⟨fun h => if_pos h, fun h => ?reroute⟩, fun p target mac => ?neighbour⟩
  case mode =>
    have hboth (m : Nat) : bit (s.ownModes p &&& partner.toNat) m = true ↔ bit (s.ownModes p) m = true ∧ partner.getLsbD m = true := by
      rw [bit_and_mask, Bool.and_eq_true]
    refine ⟨exec_portModeNegotiation_off, fun hc hp hnone => ?_, fun m hc hp hm hfirst => ?_⟩
    · have hlow := lowestMode_eq_none.mpr fun m hm => Bool.eq_false_iff.mpr fun h => hnone m ⟨hm, (hboth m).mp h⟩
      exact State.gives_modPort (by rw [exec_portModeNegotiation hc hp, hlow]) rfl
    · obtain ⟨hlt, hown, hpartner⟩ := hm
      have hlow : lowestMode (s.ownModes p &&& partner.toNat) = some m := lowestMode_eq_some.mpr ⟨(hboth m).mpr ⟨hown, hpartner⟩, hlt,
        fun d hd => Bool.eq_false_iff.mpr fun h => hfirst d hd ⟨hd.trans hlt, (hboth d).mp h⟩⟩
      obtain ⟨hframe, hothers, hport, hcounter, houtbox⟩ := s.portLocked_leaves p ⟨hown, hlt⟩
      refine ⟨s.portLocked p m, ?_, hframe, ⟨hothers, hport.trans ?_⟩, hcounter, houtbox⟩
      · rw [exec_portModeNegotiation hc hp, hlow]
      · rw [Port.locked]
        cases (s.port p).gwok <;> simp
  case send =>
    exact ⟨fun h => if_neg (by rw [h]; decide), fun h => ⟨_, exec_helloSend h, State.helloSent_leaves (State.helloDue_grove h)⟩⟩
  case hello =>
    have hnext {u : State} (h : s.etherIn p e = u) : exec (.hello p e) s = .next u := congrArg Host.Outcome.next h
    have hgrove (hg : p.val < 12 ∧ (s.port p).pcs = true) (hm : forGrove e p) : s.etherIn p e = s.transportIn p 0 e.src e.data :=
      State.etherIn_grove hg.1 hg.2 hm
    have hhello (hg : p.val < 12 ∧ (s.port p).pcs = true) (hm : forGrove e p) (hb : ¬ s.frameBad p e.data = true)
        (hs : s.frameStale p (decFrame e.data) = false) (hk : (decFrame e.data).kind = 0) :
        s.etherIn p e = s.hello p e.src (decFrame e.data) :=
      (hgrove hg hm).trans (State.transportIn_hello (Bool.eq_false_iff.mpr hb) hs hk)
    refine ⟨fun h => hnext (State.etherIn_off h), fun hg hm => State.gives_count (hnext (State.etherIn_foreign hg.1 hg.2 hm)),
      fun hg hm hb => State.gives_count (hnext ?_), fun hg hm hb hs => State.gives_count (hnext ?_),
      fun hg hm hb hs hk hst => hnext ?_, fun r hg hm hb hs hk hst hc => ⟨_, hnext rfl, ?_⟩,
      fun hg hm hb hs hk hst hc => ⟨_, hnext rfl, ?_⟩⟩
    · rw [hgrove hg hm, State.transportIn_bad hb]
    · rw [hgrove hg hm, State.transportIn_stale (Bool.eq_false_iff.mpr hb) hs]
    · rw [hhello hg hm hb hs hk, State.hello_failed hst]
    · rw [hhello hg hm hb hs hk]
      exact State.hello_held_leaves hg.1 hst hc
    · rw [hhello hg hm hb hs hk]
      exact State.hello_up_leaves hg.1 hst hc
  case reroute =>
    obtain ⟨hmoved, hidle⟩ := State.rerouted_leaves h
    exact ⟨_, exec_reroute h, hmoved.port, hmoved.mem, hmoved.time, fun hp hu hw => hidle hp ⟨hu, hw⟩⟩
  case neighbour =>
    refine ⟨fun h => State.gives_count ?_, fun h => State.gives_count ?_, fun hport h => ?_, fun hport h => ⟨_, ?_, rfl⟩⟩
    · by_cases hport : p.val < 12 ∨ (s.port p).pcs = false
      · exact exec_neighbourSolicitation_foreign hport _ _
      · rw [exec_neighbourSolicitation hport, State.neighbourIn_answer, if_neg (h.resolve_left hport)]
    · by_cases hport : p.val < 12 ∨ (s.port p).pcs = false
      · exact exec_neighbourSolicitation_foreign hport _ _
      · rw [exec_neighbourSolicitation hport]
        exact congrArg Host.Outcome.next (if_neg (h.resolve_left hport))
    · exact State.gives_modPort (by rw [exec_neighbourSolicitation hport, State.neighbourIn_answer, if_pos h]) rfl
    · rw [exec_neighbourSolicitation hport]
      exact congrArg Host.Outcome.next (if_pos h)

end Sys2Proof.Machine
end

section
/-! Frames that arrive, acknowledgements and resends (11 R344, R345). -/

namespace Sys2Proof.Machine

/-! ## Frames in and out of sequence (R344) -/

section
variable {s : State} {port peer : Nat} {f : Frame}

theorem State.transports_sendAck (s : State) (port peer : Nat) : s.transports (s.sendAck port peer) := s.transports_emitFrame ..
/-- The last thing to leave is an ACK frame with the number that the path expects next. -/
theorem State.ack_sendAck (s : State) (port peer : Nat) : let t := s.sendAck port peer
    ∃ a, t.outbox.head? = some (.ether port (t.onWire port peer a)) ∧ a.kind = 1 ∧ a.ack = (t.path port peer).expect :=
  ⟨s.frameHdr port peer 1 0, rfl, rfl, rfl⟩

/-- A frame taken in sequence is kept for this module's delivery, or travels on. -/
theorem State.takeFrame_here (hd : f.dplace = s.ownPlace) (hk : f.kind = 2 ∨ f.kind = 3) :
    s.takeFrame port f = s.modEndpoint (portNode port) fun e => { e with delivering := e.delivering ++ [f] } := by
  rw [State.takeFrame, if_pos hd, if_pos hk]
theorem State.transports_takeFrame (h : ¬ (f.dplace = s.ownPlace ∧ (f.kind = 2 ∨ f.kind = 3))) : s.transports (s.takeFrame port f) := by
  unfold State.takeFrame
  split_ifs with hd hk
  · exact absurd ⟨hd, hk⟩ h
  · exact s.transports_refl
  · exact s.transports_refl
  · exact s.transports_unreachable f
  · exact s.transports_route ..
theorem State.takeFrame_leaves (s : State) (port : Nat) (f : Frame) : let t := s.takeFrame port f
    (t.mem = s.mem ∧ t.time = s.time ∧ ∀ k, t.port k = s.port k) ∧ (∀ a b, (t.path a b).expect = (s.path a b).expect) ∧
      t.counter 0x528002 = s.counter 0x528002 := by
  by_cases h : f.dplace = s.ownPlace ∧ (f.kind = 2 ∨ f.kind = 3)
  · rw [State.takeFrame_here h.1 h.2]
    exact ⟨⟨rfl, rfl, fun _ => rfl⟩, fun _ _ => rfl, rfl⟩
  · have ht := State.transports_takeFrame (port := port) h
    exact ⟨⟨ht.mem, ht.time, ht.port⟩, ht.expect, ht.counter _ (by decide)⟩

/-- The next frame in sequence is counted and the one after it expected. -/
def State.accepted (s : State) (port peer : Nat) : State :=
  (s.modPath port peer fun x => { x with expect := (x.expect + 1) % 2 ^ 32 }).count 0x528002
theorem State.path_count (s : State) (k n a b : Nat) : (s.count k n).path a b = s.path a b := rfl
theorem State.counter_modPath (s : State) (k : Nat) (g : Path → Path) : (s.modPath port peer g).counter k = s.counter k := rfl
theorem State.expect_accepted (s : State) (port peer : Nat) :
    ((s.accepted port peer).path port peer).expect = ((s.path port peer).expect + 1) % 2 ^ 32 := by
  rw [State.accepted, State.path_count, State.path_modPath_same]
theorem State.counter_accepted (s : State) (port peer : Nat) :
    (s.accepted port peer).counter 0x528002 = (s.counter 0x528002 + 1) % 2 ^ 64 := by
  rw [State.accepted, State.counter_count, State.counter_modPath]
theorem State.ownPlace_accepted (s : State) (port peer : Nat) : (s.accepted port peer).ownPlace = s.ownPlace := rfl
theorem State.endpoint_accepted (s : State) (port peer n : Nat) : (s.accepted port peer).endpoint n = s.endpoint n := rfl
theorem State.steady_accepted (s : State) (port peer : Nat) : (s.accepted port peer).mem = s.mem ∧ (s.accepted port peer).time = s.time ∧
    ∀ k, (s.accepted port peer).port k = s.port k := ⟨rfl, rfl, fun _ => rfl⟩
theorem State.frameIn_eq (hp : (s.path port peer).partner = f.sinc) (hk : f.kind ≠ 1) : s.frameIn port peer f =
    let u := s.ackPath port peer f.ack f.win
    if f.seq ≠ (s.path port peer).expect then u.sendAck port peer else ((u.accepted port peer).takeFrame port f).sendAck port peer := by
  rw [State.frameIn, State.learnPartner_known hp]
  dsimp only
  rw [if_neg hk, (s.transports_ackPath ..).expect]
  rfl

/-- A frame from a known partner is acknowledged; in sequence it is counted, and kept when it is for this module. -/
theorem State.frameIn_leaves (hp : (s.path port peer).partner = f.sinc) (hk : f.kind ≠ 1) : let t := s.frameIn port peer f
    (t.mem = s.mem ∧ t.time = s.time ∧ ∀ k, t.port k = s.port k) ∧
      (∃ a, t.outbox.head? = some (.ether port (t.onWire port peer a)) ∧ a.kind = 1 ∧ a.ack = (t.path port peer).expect) ∧
      (f.seq ≠ (s.path port peer).expect →
        (t.path port peer).expect = (s.path port peer).expect ∧ t.counter 0x528002 = s.counter 0x528002) ∧
      (f.seq = (s.path port peer).expect → (t.path port peer).expect = ((s.path port peer).expect + 1) % 2 ^ 32 ∧
        t.counter 0x528002 = (s.counter 0x528002 + 1) % 2 ^ 64 ∧
        (f.dplace = s.ownPlace → f.kind = 2 ∨ f.kind = 3 →
          (t.endpoint (portNode port)).delivering = (s.endpoint (portNode port)).delivering ++ [f])) := by
  have hack := s.transports_ackPath port peer f.ack f.win
  rw [State.frameIn_eq hp hk]
  dsimp only
  by_cases hseq : f.seq = (s.path port peer).expect
  · rw [if_neg (not_not.mpr hseq)]
    generalize s.ackPath port peer f.ack f.win = u at hack
    have hsent := ((u.accepted port peer).takeFrame port f).transports_sendAck port peer
    obtain ⟨⟨hmem, htime, hport⟩, hexpect, hcounter⟩ := (u.accepted port peer).takeFrame_leaves port f
    obtain ⟨hmem', htime', hport'⟩ := u.steady_accepted port peer
    refine ⟨⟨hsent.mem.trans (hmem.trans (hmem'.trans hack.mem)), hsent.time.trans (htime.trans (htime'.trans hack.time)),
      fun k => (hsent.port k).trans ((hport k).trans ((hport' k).trans (hack.port k)))⟩, State.ack_sendAck .., fun h => absurd hseq h,
      fun _ => ⟨?_, ?_, fun hd hkind => ?_⟩⟩
    · rw [hsent.expect, hexpect, State.expect_accepted, hack.expect]
    · rw [hsent.counter _ (by decide), hcounter, State.counter_accepted, hack.counter _ (by decide)]
    · have hown : f.dplace = (u.accepted port peer).ownPlace := by rw [hd, State.ownPlace_accepted, hack.ownPlace]
      rw [hsent.delivering, State.takeFrame_here hown hkind, State.endpoint_modEndpoint, State.endpoint_accepted, hack.delivering]
  · rw [if_pos hseq]
    have hsent := hack.trans (State.transports_sendAck _ port peer)
    exact ⟨⟨hsent.mem, hsent.time, hsent.port⟩, State.ack_sendAck .., fun _ => ⟨hsent.expect .., hsent.counter _ (by decide)⟩,
      fun h => absurd h hseq⟩

end

/-! ## Acknowledgements -/

theorem exec_ack {s : State} {p : PortId} (h : s.portUp p = true) (peer a win : Nat) :
    exec (.ack p peer a win) s = .next ((s.count 0x528002).ackPath p peer a win) := if_pos h
theorem State.ackPath_leaves (s : State) (port peer a win : Nat) : let t := (s.count 0x528002).ackPath port peer a win
    (t.mem = s.mem ∧ t.time = s.time ∧ ∀ k, t.port k = s.port k) ∧ (t.path port peer).win = win ∧
      (t.path port peer).unacked.length + (t.path port peer).waiting.length =
        (s.path port peer).unacked.length - (s.path port peer).ackedBy a + (s.path port peer).waiting.length ∧
      (t.path port peer).expect = (s.path port peer).expect ∧ t.counter 0x528002 = (s.counter 0x528002 + 1) % 2 ^ 64 := by
  have h := (s.count 0x528002).transports_ackPath port peer a win
  have hpath := (s.count 0x528002).path_ackPath port peer a win
  refine ⟨⟨h.mem, h.time, h.port⟩, hpath.win.trans (Path.refill_win ..), ?_, h.expect .., (h.counter _ (by decide)).trans ?_⟩
  · rw [hpath.length, hpath.waiting, Path.acked_length]
    rfl
  · exact State.counter_count ..

/-! ## Resends (R344) -/

section
variable {s : State} {p : PortId} {port peer : Nat}

/-- Resent frames as they leave. -/
def State.resends (s : State) (port peer : Nat) : List Frame :=
  ((s.path port peer).unacked.take (s.path port peer).sent).map fun e => { s.onHop port peer e.1 with retx := true }
/-- A resent frame leaves the port and is counted. -/
def State.resendFrame (s : State) (port peer : Nat) (f : Frame) : State := (s.count 0x528003).emitFrame port peer f
theorem State.resends_frame (port peer : Nat) : ∀ (l : List Frame) (s : State), let t := l.foldl (fun s f => s.resendFrame port peer f) s
    t = { s with counters := t.counters, outbox := t.outbox }
  | [], _ => rfl
  | f :: l, s => by
    dsimp only
    rw [List.foldl_cons, State.resends_frame port peer l (s.resendFrame port peer f)]
    rfl
theorem State.counter_resends (port peer : Nat) : ∀ (l : List Frame) (f : Frame) (s : State),
    ((f :: l).foldl (fun s f => s.resendFrame port peer f) s).counter 0x528003 = (s.counter 0x528003 + (f :: l).length) % 2 ^ 64
  | l, f, s => by
    have hone : (s.resendFrame port peer f).counter 0x528003 = (s.counter 0x528003 + 1) % 2 ^ 64 :=
      (State.counter_count_ne (s.count 0x528003) 1 (by decide)).trans (State.counter_count ..)
    rw [List.foldl_cons]
    match l with
    | [] => exact hone
    | g :: l =>
      rw [State.counter_resends port peer l g, hone, Nat.mod_add_mod, List.length_cons (a := f), Nat.add_assoc, Nat.add_comm 1]

/-- The path of a round of resends: the frames sent are marked and their time is now. -/
def State.resentPath (s : State) (port peer : Nat) : Path :=
  { s.path port peer with unacked := (s.resends port peer).map (fun f => (f, s.time.tick)) ++
      (s.path port peer).unacked.drop (s.path port peer).sent }
theorem State.resendRound_eq (s : State) (port peer : Nat) : s.resendRound port peer =
    (s.resends port peer).foldl (fun s f => s.resendFrame port peer f) (s.modPath port peer fun _ => s.resentPath port peer) := rfl
theorem State.path_resendRound (s : State) (port peer : Nat) : (s.resendRound port peer).path port peer = s.resentPath port peer := by
  rw [State.resendRound_eq, State.resends_frame]
  exact State.path_modPath_same s port peer fun _ => s.resentPath port peer
theorem State.length_resends (s : State) (port peer : Nat) :
    (s.resends port peer).length = min (s.path port peer).sent (s.path port peer).unacked.length := by
  rw [State.resends, List.length_map, List.length_take]

/-- The rounds of the last millisecond, with this one. -/
def State.roundsNow (s : State) (port : Nat) : List Nat :=
  ((s.port port).rounds.filter fun k => decide (s.time.tick < k + ms 1)) ++ [s.time.tick]
/-- A round of resends, noted at the port. -/
def State.retransmitted (s : State) (port peer : Nat) : State :=
  (s.resendRound port peer).modPort port fun x => { x with rounds := s.roundsNow port }
theorem exec_retransmitTimeout (h : s.retxDue p peer = true) : exec (.retransmitTimeout p peer) s =
    .next (if p.val < 12 ∧ 16 < (s.roundsNow p).length then (s.retransmitted p peer).portFails p 0 else s.retransmitted p peer) := if_pos h
/-- A path whose resend is due has sent frames. -/
theorem State.resends_of_due (h : s.retxDue port peer = true) : s.resends port peer ≠ [] := by
  rw [State.retxDue, Bool.and_eq_true] at h
  obtain ⟨-, hdue⟩ := h
  intro hnone
  have hlength := s.length_resends port peer
  rw [hnone, List.length_nil] at hlength
  cases hu : (s.path port peer).unacked with
  | nil =>
    rw [hu] at hdue
    exact Bool.false_ne_true hdue
  | cons e es =>
    rw [hu] at hdue hlength
    have hsent := (of_decide_eq_true hdue).1
    rw [List.length_cons] at hlength
    omega
theorem State.retransmitted_leaves (h : s.retxDue port peer = true) : let t := s.retransmitted port peer
    t.path port peer = s.resentPath port peer ∧
      t.counter 0x528003 = (s.counter 0x528003 + min (s.path port peer).sent (s.path port peer).unacked.length) % 2 ^ 64 ∧
      t.port port = { s.port port with rounds := s.roundsNow port } ∧ t.mem = s.mem ∧ t.time = s.time := by
  have hframe := State.resends_frame port peer (s.resends port peer) (s.modPath port peer fun _ => s.resentPath port peer)
  rw [← State.resendRound_eq] at hframe
  have hport : (s.resendRound port peer).port port = s.port port := by rw [hframe]; rfl
  refine ⟨s.path_resendRound port peer, ?_, ?_, ?_, ?_⟩
  · obtain ⟨f, l, hl⟩ := List.exists_cons_of_ne_nil (s.resends_of_due h)
    have hcount := State.counter_resends port peer l f (s.modPath port peer fun _ => s.resentPath port peer)
    rw [← hl, ← State.resendRound_eq, State.length_resends, State.counter_modPath] at hcount
    exact hcount
  · rw [State.retransmitted, State.port_modPort, hport]
  · rw [State.retransmitted, hframe]
    rfl
  · rw [State.retransmitted, hframe]
    rfl
/-- A port that fails is FAILED, and nothing of its path changes (R344). -/
theorem State.portFails_leaves (s : State) (port cause peer : Nat) : let t := s.portFails port cause
    t.path port peer = s.path port peer ∧ t.counter 0x528003 = s.counter 0x528003 ∧
      t.port port = { s.port port with st := 5, reason := 0 } ∧ t.mem = s.mem ∧ t.time = s.time := by
  dsimp only
  unfold State.portFails State.record
  refine ⟨by rw [State.log_frame]; rfl, ?_, ?_, by rw [State.log_frame]; rfl, by rw [State.log_frame]; rfl⟩
  · rw [State.counter_log_ne _ _ (by decide), State.counter_count_ne _ _ (by decide)]
    rfl
  · rw [State.log_frame]
    exact State.port_modPort s port fun x => { x with st := 5, reason := 0 }
theorem State.resentPath_leaves (s : State) (port peer : Nat) : let x := s.path port peer
    let y := s.resentPath port peer
    y.unacked.length = x.unacked.length ∧ (∀ e, e ∈ y.unacked.take x.sent → e.1.retx = true ∧ e.2 = s.time.tick) ∧
      y.unacked.drop x.sent = x.unacked.drop x.sent := by
  have hmarked (e : Frame × Nat) (he : e ∈ (s.resends port peer).map fun f => (f, s.time.tick)) : e.1.retx = true ∧ e.2 = s.time.tick := by
    simp only [State.resends, List.mem_map] at he
    obtain ⟨f, ⟨g, -, rfl⟩, rfl⟩ := he
    exact ⟨rfl, rfl⟩
  have hlength : ((s.resends port peer).map fun f => (f, s.time.tick)).length =
      min (s.path port peer).sent (s.path port peer).unacked.length := by rw [List.length_map, State.length_resends]
  unfold State.resentPath
  dsimp only
  generalize ((s.resends port peer).map fun f => (f, s.time.tick)) = l at hmarked hlength
  refine ⟨by rw [List.length_append, List.length_drop]; omega, ?_⟩
  rcases Nat.le_total (s.path port peer).sent (s.path port peer).unacked.length with hle | hle
  · rw [Nat.min_eq_left hle] at hlength
    rw [List.take_left' hlength, List.drop_left' hlength]
    exact ⟨hmarked, rfl⟩
  · rw [Nat.min_eq_right hle] at hlength
    rw [List.drop_eq_nil_of_le hle, List.append_nil]
    exact ⟨fun e he => hmarked e (List.mem_of_mem_take he), List.drop_eq_nil_of_le (by omega)⟩

end

/-! ## Relays and reductions at their destination (R348, R349, R351) -/

section
variable {s t u : State} {p : PortId} {f : Frame}

theorem exec_relay_other (h : ¬ (f.kind = 2 ∧ f ∈ (s.endpoint (portNode p)).delivering)) : exec (.relay p f) s = .next s := if_neg h
theorem exec_reduce_other (h : ¬ (f.kind = 3 ∧ f ∈ (s.endpoint (portNode p)).delivering)) : exec (.reduce p f) s = .next s := if_neg h
theorem exec_relay (hk : f.kind = 2) (hf : f ∈ (s.endpoint (portNode p)).delivering) : exec (.relay p f) s = .next
    (if s.fillNewer f then ((s.dropDelivering p f).recordFill f).deliver p f else (s.dropDelivering p f).count 0x528005) :=
  if_pos ⟨hk, hf⟩
/-- A part that enters the mesh. -/
def State.injectPart (s : State) (port : Nat) (f : Frame) : State :=
  (s.count 0x52800B).send ((s.count 0x52800B).packet (portNode port) (decRelay true f.payload).dnode (.reduce (injectedPart f)))
theorem exec_reduce (hk : f.kind = 3) (hf : f ∈ (s.endpoint (portNode p)).delivering) : exec (.reduce p f) s = .next
    (if s.fillNewer f then ((s.dropDelivering p f).recordFill f).injectPart p f else (s.dropDelivering p f).count 0x528005) :=
  if_pos ⟨hk, hf⟩

/-- A FILL just recorded is not newer than itself (R349). -/
theorem State.fillNewer_recordFill (s : State) (f : Frame) : (s.recordFill f).fillNewer f = false := by
  have hread : Tab.get 0 (s.recordFill f).grove.delivered (deliveryKey f) = f.info % 65536 + 1 :=
    Tab.get_set_eq 0 s.grove.delivered (deliveryKey f) (f.info % 65536 + 1)
  rw [State.fillNewer, hread]
  dsimp only
  rw [Nat.add_sub_cancel_left]
  rfl

/-- What a frame kept for delivery leaves: it is kept no more, and its FILL is recorded. -/
def State.tookFrame (s t : State) (port : Nat) (f : Frame) : Prop :=
  (t.endpoint (portNode port)).delivering = dropFirst f (s.endpoint (portNode port)).delivering ∧ t.fillNewer f = false ∧
    t = { s with grove := t.grove, counters := t.counters, mesh := t.mesh }

/-- What a delivery adds: a record of what is under way at the endpoint, and packets. -/
structure State.delivers (s t : State) : Prop where
  frame : t = { s with grove := { s.grove with endpoints := t.grove.endpoints }, mesh := t.mesh }
  delivering : ∀ n, (t.endpoint n).delivering = (s.endpoint n).delivering
  known : ∀ n, (t.endpoint n).known = (s.endpoint n).known
theorem State.delivers.trans (h : s.delivers t) (k : t.delivers u) : s.delivers u :=
  ⟨by rw [k.frame, h.frame], fun n => (k.delivering n).trans (h.delivering n), fun n => (k.known n).trans (h.known n)⟩
theorem State.delivers.counters (h : s.delivers t) : t.counters = s.counters := by rw [h.frame]
theorem State.delivers_refl (s : State) : s.delivers s := ⟨rfl, fun _ => rfl, fun _ => rfl⟩
theorem State.delivers_send (s : State) (q : Packet) : s.delivers (s.send q) := ⟨rfl, fun _ => rfl, fun _ => rfl⟩
theorem State.delivers_modEndpoint (s : State) (n : Nat) {g : Endpoint → Endpoint} (hd : ∀ e, (g e).delivering = e.delivering)
    (hk : ∀ e, (g e).known = e.known) : s.delivers (s.modEndpoint n g) := ⟨rfl, s.modEndpoint_keeps n hd, s.modEndpoint_keeps n hk⟩
theorem State.delivers_deliverRow (s : State) (port : Nat) (f : Frame) (r : Relay) (ds : List Nat) :
    s.delivers (s.deliverRow port f r ds) := by
  unfold State.deliverRow
  dsimp only
  refine (State.delivers_modEndpoint s (portNode port) (fun _ => ?_) fun _ => ?_).trans (List.foldlRecOn ds _
    (motive := fun t => State.delivers (s.modEndpoint (portNode port) _) t) (State.delivers_refl _)
    fun t ht d _ => ht.trans (t.delivers_send _)) <;> rfl
theorem State.delivers_deliverTier (s : State) (port : Nat) (f : Frame) (b : Bool) (a : Nat) : s.delivers (s.deliverTier port f b a) := by
  unfold State.deliverTier
  dsimp only
  refine (State.delivers_modEndpoint s (portNode port) (fun _ => ?_) fun _ => ?_).trans (State.delivers_send ..) <;> rfl
theorem State.delivers_deliver (s : State) (port : Nat) (f : Frame) : s.delivers (s.deliver port f) := by
  unfold State.deliver
  dsimp only
  split_ifs
  · exact s.delivers_deliverRow ..
  · exact s.delivers_deliverRow ..
  · exact s.delivers_deliverTier ..
  · exact s.delivers_refl
theorem State.tookFrame_count (h : s.fillNewer f = false) : s.tookFrame ((s.dropDelivering p f).count 0x528005) p f :=
  ⟨congrArg Endpoint.delivering (s.endpoint_modEndpoint (portNode p) fun e => { e with delivering := dropFirst f e.delivering }), h, rfl⟩
/-- The frame is noted as delivered before it is. -/
def State.deliveryNoted (s : State) (port : Nat) (f : Frame) : State := (s.dropDelivering port f).recordFill f
theorem State.tookFrame_deliveryNoted (s : State) (port : Nat) (f : Frame) : s.tookFrame (s.deliveryNoted port f) port f :=
  ⟨congrArg Endpoint.delivering (s.endpoint_modEndpoint (portNode port) fun e => { e with delivering := dropFirst f e.delivering }),
    State.fillNewer_recordFill .., rfl⟩
theorem State.fillNewer_congr (h : t.grove.delivered = s.grove.delivered) (f : Frame) : t.fillNewer f = s.fillNewer f := by
  rw [State.fillNewer, h, State.fillNewer]
theorem State.tookFrame.delivers {port : Nat} (h : s.tookFrame t port f) (k : t.delivers u) : s.tookFrame u port f := by
  obtain ⟨hd, hf, hframe⟩ := h
  refine ⟨(k.delivering _).trans hd, (State.fillNewer_congr (by rw [k.frame]) f).trans hf, by rw [k.frame, hframe]⟩

/-- What a port endpoint sends depends on its incarnation and on those that it has learned. -/
theorem State.packet_congr_endpoint {n : Nat} (hn : 5000 ≤ n) (hnodes : t.nodes = s.nodes)
    (hk : (t.endpoint n).known = (s.endpoint n).known) (dst : Nat) (b : Body) : t.packet n dst b = s.packet n dst b := by
  have hnode (m : Nat) : t.node m = s.node m := by rw [State.node, hnodes, State.node]
  have hknown : t.knownInc n dst = s.knownInc n dst := by
    simp only [State.knownInc, State.knownBy, if_neg (Nat.not_lt.mpr hn), hk]
  unfold State.packet
  rw [hnode, hknown]
theorem State.mesh_deliveryNoted (s : State) (port : Nat) (f : Frame) : (s.deliveryNoted port f).mesh = s.mesh := rfl
theorem State.counters_deliveryNoted (s : State) (port : Nat) (f : Frame) : (s.deliveryNoted port f).counters = s.counters := rfl
theorem State.packet_deliveryNoted (s : State) (port : Nat) (f : Frame) (dst : Nat) (b : Body) :
    (s.deliveryNoted port f).packet (portNode port) dst b = s.packet (portNode port) dst b := by
  refine State.packet_congr_endpoint (le_portNode _) ?_ ?_ dst b
  · rfl
  · exact s.modEndpoint_keeps (portNode port) (v := Endpoint.known) (f := fun e => { e with delivering := dropFirst f e.delivering })
      (fun _ => rfl) _

/-- A row for one stand asks it for a credit (R348). -/
theorem State.mesh_deliver_stand (s : State) (port : Nat) (hr : (decRelay true f.payload).kind = 1) : let r := decRelay true f.payload
    ∃ tag, (s.deliver port f).mesh = s.mesh ++ [s.packet (portNode port) r.dnode (.creq
      { window := r.dwindow, count := 1, mode := true, row := (r.drow + f.info / 2 ^ 27) % 32, tag })] := by
  dsimp only
  rw [State.deliver, if_pos hr]
  refine ⟨(s.endpoint (portNode port)).nextTag % 65536, congrArg (fun q => s.mesh ++ [q]) ?_⟩
  refine State.packet_congr_endpoint (le_portNode _) ?_ ?_ _ _
  · rfl
  · refine s.modEndpoint_keeps (portNode port) (v := Endpoint.known) ?_ _
    exact fun _ => rfl
/-- A row for a tier is one write of its 64 words (R348). -/
theorem State.mesh_deliver_tier (s : State) (port : Nat) (hr : (decRelay true f.payload).kind = 3 ∨ (decRelay true f.payload).kind = 4) :
    let r := decRelay true f.payload
    ∃ m : MemReq, (s.deliver port f).mesh = s.mesh ++ [s.packet (portNode port) (endpointOf m.tierB r.dest) (.memreq m)] ∧
      m.op = 1 ∧ m.tierB = decide (r.kind = 4) ∧ m.waddr = r.dest / 4 ∧ m.wm1 = 63 ∧ m.data = frameRow f := by
  dsimp only
  rw [State.deliver, if_neg (by omega), if_neg (by omega), if_pos hr]
  let m : MemReq :=
    { op := 1, tierB := decide ((decRelay true f.payload).kind = 4), lock := true, tag := (s.endpoint (portNode port)).nextTag % 256,
      wm1 := 63, waddr := (decRelay true f.payload).dest / 4, data := frameRow f, whdr := none }
  refine ⟨m, congrArg (fun q => s.mesh ++ [q]) ?_, rfl, rfl, rfl, rfl, rfl⟩
  refine State.packet_congr_endpoint (le_portNode _) ?_ ?_ _ _
  · rfl
  · refine s.modEndpoint_keeps (portNode port) (v := Endpoint.known) ?_ _
    exact fun _ => rfl

/-- What a RELAY frame delivered for the first time leaves. -/
theorem State.relayed_leaves (s : State) (port : Nat) (f : Frame) : let r := decRelay true f.payload
    let t := (s.deliveryNoted port f).deliver port f
    s.tookFrame t port f ∧ t.counters = s.counters ∧
      (r.kind = 1 → ∃ tag, t.mesh = s.mesh ++ [s.packet (portNode port) r.dnode (.creq
        { window := r.dwindow, count := 1, mode := true, row := (r.drow + f.info / 2 ^ 27) % 32, tag })]) ∧
      (r.kind = 3 ∨ r.kind = 4 → ∃ m : MemReq, t.mesh = s.mesh ++ [s.packet (portNode port) (endpointOf m.tierB r.dest) (.memreq m)] ∧
        m.op = 1 ∧ m.tierB = decide (r.kind = 4) ∧ m.waddr = r.dest / 4 ∧ m.wm1 = 63 ∧ m.data = frameRow f) := by
  have hdelivers := (s.deliveryNoted port f).delivers_deliver port f
  have hstand := (s.deliveryNoted port f).mesh_deliver_stand port (f := f)
  have htier := (s.deliveryNoted port f).mesh_deliver_tier port (f := f)
  simp only [State.packet_deliveryNoted, State.mesh_deliveryNoted] at hstand htier
  exact ⟨(s.tookFrame_deliveryNoted port f).delivers hdelivers, hdelivers.counters.trans (s.counters_deliveryNoted port f), hstand, htier⟩
theorem State.tookFrame.sent {port : Nat} (h : s.tookFrame t port f) (k : u = { t with counters := u.counters, mesh := u.mesh }) :
    s.tookFrame u port f := by
  obtain ⟨hd, hf, hframe⟩ := h
  refine ⟨?_, (State.fillNewer_congr (by rw [k]) f).trans hf, by rw [k, hframe]⟩
  rw [k]
  exact hd
theorem State.injectPart_leaves (s : State) (port : Nat) (f : Frame) : let t := s.injectPart port f
    t = { s with counters := t.counters, mesh := t.mesh } ∧ s.countsOnly t 0x52800B 1 ∧
      t.mesh = s.mesh ++ [s.packet (portNode port) (decRelay true f.payload).dnode (.reduce (injectedPart f))] :=
  ⟨rfl, s.countsOnly_count 0x52800B 1, rfl⟩
/-- What a REDUCE frame delivered for the first time leaves: its part in the mesh (R351). -/
theorem State.injected_leaves (s : State) (port : Nat) (f : Frame) : let t := (s.deliveryNoted port f).injectPart port f
    s.tookFrame t port f ∧ s.countsOnly t 0x52800B 1 ∧
      t.mesh = s.mesh ++ [s.packet (portNode port) (decRelay true f.payload).dnode (.reduce (injectedPart f))] := by
  obtain ⟨hframe, ⟨hcounted, hothers⟩, hmesh⟩ := (s.deliveryNoted port f).injectPart_leaves port f
  have hcounter (j : Nat) : (s.deliveryNoted port f).counter j = s.counter j := by
    rw [State.counter, State.counters_deliveryNoted, State.counter]
  refine ⟨(s.tookFrame_deliveryNoted port f).sent hframe, ⟨?_, fun j hj => (hothers j hj).trans (hcounter j)⟩, ?_⟩
  · rw [hcounted, hcounter]
  · rw [hmesh, State.mesh_deliveryNoted, State.packet_deliveryNoted]

end

end Sys2Proof.Machine
end

section
/-! Barriers across modules (11 R355 to R357) and shards for a peer and from it (11 R358, R359). -/

namespace Sys2Proof.Machine

/-! ## The flag unit (R356, R357) -/

theorem State.transports_sendBarrier (s : State) (c q op dplace : Nat) : s.transports (s.sendBarrier c q op dplace) := s.transports_route ..

/-- A COMPLETE that counts: the channel's phase, the binary's phase, or the switch (R356, R357). -/
def State.completed (s : State) (c q : Nat) : State :=
  let u := (s.modChan c fun x => { x with done := q, arrivals := x.arrivals.filter fun a => decide (q < a.2) }).count 0x52800C
  if c < 64 then { u.count 0x526101 with phases := Tab.set 0 u.phases c q }
  else if c = 64 then { u with weights := { u.weights with sw := { u.weights.sw with completed := true } } }
  else { u with weights := { u.weights with sw := { u.weights.sw with retired := true } } }

section
variable {s : State} {c q place : Nat}

theorem State.applyComplete_passed (h : q ≤ (s.chan c).done) : s.applyComplete c q = s := if_pos h
theorem State.applyComplete_disarmed (hc : c = 64) (h : s.weights.sw.st ≠ 2 ∧ s.weights.sw.st ≠ 3) : s.applyComplete c q = s := by
  rw [State.applyComplete, if_pos (⟨hc, h⟩ : c = 64 ∧ _), ite_self]
theorem State.applyComplete_on (hd : (s.chan c).done < q) (h : c = 64 → s.weights.sw.st = 2 ∨ s.weights.sw.st = 3) :
    s.applyComplete c q = s.completed c q := by
  have harmed : ¬ (c = 64 ∧ s.weights.sw.st ≠ 2 ∧ s.weights.sw.st ≠ 3) := fun ⟨hc, h2, h3⟩ => (h hc).elim h2 h3
  rw [State.applyComplete, if_neg (Nat.not_le.mpr hd), if_neg harmed]
  rfl
theorem State.completed_frame (s : State) (c q : Nat) : let t := s.completed c q
    t = { s with grove := { s.grove with chans := t.grove.chans }, counters := t.counters, phases := t.phases, weights := t.weights } := by
  dsimp only
  unfold State.completed
  dsimp only
  split_ifs <;> rfl
theorem State.chan_completed (s : State) (c q d : Nat) : (s.completed c q).chan d =
    (s.modChan c fun x => { x with done := q, arrivals := x.arrivals.filter fun a => decide (q < a.2) }).chan d := by
  unfold State.completed
  dsimp only
  split_ifs <;> rfl
theorem State.counter_completed (s : State) (c q : Nat) : (s.completed c q).counter 0x52800C = (s.counter 0x52800C + 1) % 2 ^ 64 := by
  have hcounted : ((s.modChan c fun x => { x with done := q, arrivals := x.arrivals.filter fun a => decide (q < a.2) }).count
      0x52800C).counter 0x52800C = (s.counter 0x52800C + 1) % 2 ^ 64 := State.counter_count ..
  unfold State.completed
  dsimp only
  split_ifs
  · exact (State.counter_count_ne _ 1 (by decide)).trans hcounted
  · exact hcounted
  · exact hcounted
theorem State.completed_channel (h : c < 64) : Tab.get 0 (s.completed c q).phases c = q ∧ (s.completed c q).weights = s.weights := by
  rw [State.completed, if_pos h]
  exact ⟨Tab.get_set_eq .., rfl⟩
theorem State.completed_switch (h : c = 64) : (s.completed c q).weights.sw = { s.weights.sw with completed := true } ∧
    (s.completed c q).phases = s.phases := by
  rw [State.completed, if_neg (by omega), if_pos h]
  exact ⟨rfl, rfl⟩
theorem State.completed_retire (h : c = 65) : (s.completed c q).weights.sw = { s.weights.sw with retired := true } ∧
    (s.completed c q).phases = s.phases := by
  rw [State.completed, if_neg (by omega), if_neg (by omega)]
  exact ⟨rfl, rfl⟩

end

/-! ## ARRIVE and WITHDRAW at the root (R356, R357) -/

section
variable {s : State} {c : Fin 66} {q place : Nat}

/-- The arrivals of a channel with one more. -/
def FlagChan.withArrival (x : FlagChan) (a : Nat × Nat) : FlagChan :=
  { x with arrivals := if a ∈ x.arrivals then x.arrivals else x.arrivals ++ [a] }
/-- The root has every member's arrival and says so to all of them. -/
def State.allTold (s : State) (c q : Nat) : State :=
  ((s.members c).filter fun n => n ≠ s.ownPlace).foldl (fun s n => s.sendBarrier c q 2 n) (s.modChan c fun x => { x with sentPhase := q })
section
variable {c : Nat} (hd : (s.chan c).done < q) (hs : (s.chan c).sentPhase < q)
include hd hs

theorem State.rootArrive_eq : s.rootArrive c q place =
    if s.members c ≠ [] ∧ ∀ n, n ∈ s.members c → (n, q) ∈ ((s.chan c).withArrival (place, q)).arrivals then
      ((s.modChan c fun x => x.withArrival (place, q)).allTold c q).applyComplete c q
    else s.modChan c fun x => x.withArrival (place, q) := by
  have hall : (s.members c).all (fun n =>
      ((s.modChan c fun x => x.withArrival (place, q)).chan c).arrivals.contains (n, q)) = true ↔
      ∀ n, n ∈ s.members c → (n, q) ∈ ((s.chan c).withArrival (place, q)).arrivals := by
    rw [State.chan_modChan, List.all_eq_true]
    simp only [List.contains_iff_mem]
  have hcond : ¬ (q ≤ (s.chan c).done ∨ q ≤ (s.chan c).sentPhase) := by omega
  simp only [← hall]
  rw [State.rootArrive, if_neg hcond]
  rfl
theorem State.rootArrive_waits
    (h : ¬ (s.members c ≠ [] ∧ ∀ n, n ∈ s.members c → (n, q) ∈ ((s.chan c).withArrival (place, q)).arrivals)) :
    s.rootArrive c q place = s.modChan c fun x => x.withArrival (place, q) := (State.rootArrive_eq hd hs).trans (if_neg h)
theorem State.rootArrive_tells
    (h : s.members c ≠ [] ∧ ∀ n, n ∈ s.members c → (n, q) ∈ ((s.chan c).withArrival (place, q)).arrivals) :
    s.rootArrive c q place = ((s.modChan c fun x => x.withArrival (place, q)).allTold c q).applyComplete c q :=
  (State.rootArrive_eq hd hs).trans (if_pos h)

end

theorem exec_arrive_none (h : ¬ (s.root c = s.ownPlace ∧ (s.chan c).done < q ∧ (s.chan c).sentPhase < q)) :
    exec (.arrive c q place) s = .next s := by
  change execArrive c q place s = _
  rw [execArrive]
  split
  case isTrue hroot =>
    have hcond : q ≤ (s.chan c).done ∨ q ≤ (s.chan c).sentPhase := by
      by_contra hno
      exact h ⟨hroot, by omega, by omega⟩
    rw [State.rootArrive, if_pos hcond]
  case isFalse => rfl
theorem exec_arrive (h : s.root c = s.ownPlace) : exec (.arrive c q place) s = .next (s.rootArrive c q place) := if_pos h
/-- When the root has told all members, its own channel completes as theirs do. -/
theorem State.allTold_leaves {c : Nat} (hd : (s.chan c).done < q) : let t := (s.allTold c q).applyComplete c q
    (t.chan c).sentPhase = q ∧ (c ≠ 64 → (t.chan c).done = q) ∧ (c < 64 → Tab.get 0 t.phases c = q) ∧
      t.mem = s.mem ∧ t.time = s.time ∧ ∀ k, t.port k = s.port k := by
  have htold : (s.modChan c fun x => { x with sentPhase := q }).transports (s.allTold c q) :=
    State.transports_foldl (fun s n => s.transports_sendBarrier c q 2 n) _ _
  have hchan : (s.allTold c q).chan c = { s.chan c with sentPhase := q } := by rw [htold.chan, State.chan_modChan]
  have hmem : (s.allTold c q).mem = s.mem := htold.mem
  have htime : (s.allTold c q).time = s.time := htold.time
  have hport (k : Nat) : (s.allTold c q).port k = s.port k := htold.port k
  generalize s.allTold c q = u at hchan hmem htime hport
  by_cases hdis : c = 64 ∧ u.weights.sw.st ≠ 2 ∧ u.weights.sw.st ≠ 3
  · rw [State.applyComplete_disarmed hdis.1 hdis.2]
    dsimp only
    rw [hchan]
    exact ⟨rfl, fun h => absurd hdis.1 h, fun h => absurd hdis.1 (by omega), hmem, htime, hport⟩
  · rw [State.applyComplete_on (by rw [hchan]; exact hd) fun hc => by
      by_contra hno
      exact hdis ⟨hc, fun h => hno (.inl h), fun h => hno (.inr h)⟩]
    have hframe := u.completed_frame c q
    have hown : (u.completed c q).chan c = { u.chan c with done := q, arrivals := (u.chan c).arrivals.filter fun a => decide (q < a.2) } := by
      rw [State.chan_completed, State.chan_modChan]
    refine ⟨by rw [hown, hchan], fun _ => by rw [hown], fun h => (State.completed_channel h).1, ?_, ?_, fun k => ?_⟩
    · rw [hframe]
      exact hmem
    · rw [hframe]
      exact htime
    · rw [hframe]
      exact hport k

theorem exec_complete (h : 64 ≤ c.val ∨ s.extended c = true) : exec (.complete c q) s = .next (s.applyComplete c q) := if_pos h
theorem exec_complete_none (h : ¬ ((64 ≤ c.val ∨ s.extended c = true) ∧ (s.chan c).done < q ∧
    (c.val = 64 → s.weights.sw.st = 2 ∨ s.weights.sw.st = 3))) : exec (.complete c q) s = .next s := by
  change execComplete c q s = _
  rw [execComplete]
  split
  case isTrue hext =>
    rcases Nat.lt_or_ge (s.chan c).done q with hd | hd
    · have hdis : c.val = 64 ∧ s.weights.sw.st ≠ 2 ∧ s.weights.sw.st ≠ 3 := by
        by_contra hno
        exact h ⟨hext, hd, fun hc => by omega⟩
      rw [State.applyComplete_disarmed hdis.1 hdis.2]
    · rw [State.applyComplete_passed hd]
  case isFalse => rfl

theorem exec_withdraw_none (h : ¬ (s.root c = s.ownPlace ∧ (s.chan c).sentPhase < q ∧ (s.chan c).done < q)) :
    exec (.withdraw c q place) s = .next s := by
  refine if_pos (by_contra fun hno => h ?_)
  rw [not_or, not_or, not_not] at hno
  exact ⟨hno.1, Nat.not_le.mp hno.2.1, Nat.not_le.mp hno.2.2⟩
/-- The arrival is taken back, and WITHDRAWN answers. -/
def State.withdrawn (s : State) (c q place : Nat) : State :=
  (s.modChan c fun x => { x with arrivals := x.arrivals.filter fun a => a ≠ (place, q) }).sendBarrier c q 4 place
theorem exec_withdraw (hr : s.root c = s.ownPlace) (hs : (s.chan c).sentPhase < q) (hd : (s.chan c).done < q) :
    exec (.withdraw c q place) s = .next (s.withdrawn c q place) := by
  refine if_neg ?_
  rw [not_or, not_or, not_not]
  exact ⟨hr, Nat.not_le.mpr hs, Nat.not_le.mpr hd⟩
theorem State.withdrawn_leaves (s : State) (c q place : Nat) : let t := s.withdrawn c q place
    t = { s with grove := t.grove, counters := t.counters, outbox := t.outbox, rel := t.rel } ∧
      t.chan c = { s.chan c with arrivals := (s.chan c).arrivals.filter fun a => a ≠ (place, q) } ∧ ∀ k, k ≠ c → t.chan k = s.chan k := by
  have h : (s.modChan c fun x => { x with arrivals := x.arrivals.filter fun a => a ≠ (place, q) }).transports (s.withdrawn c q place) :=
    State.transports_sendBarrier ..
  have hmesh : (s.withdrawn c q place).mesh = s.mesh := State.mesh_route_barrier _ 0 rfl
  refine ⟨?_, (h.chan c).trans (State.chan_modChan ..), fun k hk => (h.chan k).trans (State.chan_modChan_ne s _ hk)⟩
  generalize s.withdrawn c q place = t at h hmesh
  rw [h.frame, hmesh]
  rfl

end

/-! ## Shards for a peer (R294, R305, R358) -/

/-- What a read of tier B by an edge unit may do: counters, records and what the owner of a lost burst notes (R305, R370). -/
def State.readsTierB (s t : State) : Prop :=
  t = { s with counters := t.counters, rel := t.rel, serving := t.serving, weights := t.weights }

section
variable {s t u : State}

theorem State.readsTierB.trans (h : s.readsTierB t) (k : t.readsTierB u) : s.readsTierB u := by
  unfold State.readsTierB at *
  rw [k, h]
theorem State.readsTierB.mem (h : s.readsTierB t) : t.mem = s.mem := by rw [h]
theorem State.readsTierB.time (h : s.readsTierB t) : t.time = s.time := by rw [h]
theorem State.readsTierB.port (h : s.readsTierB t) (k : Nat) : t.port k = s.port k := by rw [h]; rfl
theorem State.readsTierB.path (h : s.readsTierB t) (a b : Nat) : t.path a b = s.path a b := by rw [h]; rfl
theorem State.readsTierB_count (s : State) (k n : Nat) : s.readsTierB (s.count k n) := rfl
theorem State.readsTierB_log (s : State) (r : ErrRec) : s.readsTierB (s.log r) := by
  unfold State.readsTierB
  rw [State.log_frame]
theorem State.readsTierB_ownerUe (s : State) (a : Nat) : s.readsTierB (s.ownerUe true a) := by
  unfold State.ownerUe
  rw [if_pos (rfl : true = true)]
  split_ifs <;> rfl
theorem State.readsTierB_burstRead (s : State) {node : Nat} (hn : 5000 ≤ node) (k : Nat) : s.readsTierB (s.burstRead true node k) := by
  have hnote (w : Nat) : s.burstNote true (64 * k) w = s := if_pos (.inl rfl)
  match hw : s.wrongBurst true k with
  | 0 =>
    rw [State.burstRead_clean s true node k true hw]
    exact rfl
  | 1 =>
    rw [State.burstRead_single hw, hnote]
    exact s.readsTierB_count ..
  | w + 2 =>
    obtain ⟨r, hr⟩ := State.burstRead_lost hn (by omega : 2 ≤ s.wrongBurst true k) true
    rw [hr, hnote]
    exact ((s.readsTierB_count ..).trans (State.readsTierB_log ..)).trans (State.readsTierB_ownerUe ..)
theorem State.readsTierB_masterRead (s : State) (b : Bool) (st p : Nat) : s.readsTierB (s.masterRead b st p) := by
  have hasked (a n : Nat) : s.readsTierB (s.tierAsk true a n foresterNode) := by
    rw [State.tierAsk_frame]
    rfl
  exact List.foldlRecOn (motive := fun t => s.readsTierB t) _ _ (hasked _ _) fun t ht k _ => ht.trans (t.readsTierB_burstRead (by decide) k)

/-- The arrays of a shard are read from its master area. -/
def State.mastersRead (s : State) (b : Bool) (st : Nat) : State := (List.range 16).foldl (fun s p => s.masterRead b st p) s
theorem State.readsTierB_mastersRead (s : State) (b : Bool) (st : Nat) : s.readsTierB (s.mastersRead b st) :=
  List.foldlRecOn (motive := fun t => s.readsTierB t) _ _ rfl fun t ht p _ => ht.trans (t.readsTierB_masterRead b st p)
/-- Bursts that read clean leave the weights. -/
theorem State.weights_mastersRead (hclean : ∀ k, s.wrongBurst true k = 0) (b : Bool) (st : Nat) :
    (s.mastersRead b st).weights = s.weights := by
  have hread := List.foldlRecOn (List.range 16) (fun s p => State.masterRead s b st p) (b := s)
    (motive := fun t : State => t.weights = s.weights ∧ ∀ k, t.wrongBurst true k = 0) ⟨rfl, hclean⟩ fun t ⟨hweights, hclean⟩ p _ => by
      rw [State.masterRead, State.tierRead_clean t true _ _ _ fun k _ => hclean k]
      refine ⟨?_, fun k => (State.wrongBurst_tierAsk ..).trans (hclean k)⟩
      rw [State.tierAsk_frame]
      exact hweights
  exact hread.1

end

/-! ### Frames one after the other (R344) -/

section
variable {α : Type} {port peer : Nat} (g : State → α → Frame)

theorem State.transports_pathSends (l : List α) (s : State) : s.transports (l.foldl (fun s a => s.pathSend port peer (g s a)) s) :=
  State.transports_foldl (fun s a => s.transports_pathSend port peer (g s a)) l s
theorem State.length_pathSends : ∀ (l : List α) (s : State), let x := s.path port peer
    let y := (l.foldl (fun s a => s.pathSend port peer (g s a)) s).path port peer
    y.unacked.length + y.waiting.length = x.unacked.length + x.waiting.length + l.length
  | [], _ => rfl
  | a :: l, s => by
    have hrest := State.length_pathSends l (s.pathSend port peer (g s a))
    dsimp only at hrest ⊢
    rw [List.foldl_cons, hrest, State.length_pathSend, List.length_cons, Nat.add_assoc, Nat.add_comm 1]
/-- With places for all of them none waits, and each takes the next number. -/
theorem State.room_pathSends : ∀ (l : List α) (a : α) (s : State), (s.path port peer).waiting = [] →
    (s.path port peer).unacked.length + (a :: l).length ≤ pathCap port →
    let y := ((a :: l).foldl (fun s a => s.pathSend port peer (g s a)) s).path port peer
    y.waiting = [] ∧ y.nextSeq = ((s.path port peer).nextSeq + (a :: l).length) % 2 ^ 32
  | l, a, s, hw, hroom => by
    rw [List.length_cons] at hroom
    obtain ⟨hwaiting, hlength, hseq⟩ := s.room_pathSend (g s a) hw (by omega)
    rw [List.foldl_cons]
    match l with
    | [] => exact ⟨hwaiting, hseq⟩
    | b :: l =>
      obtain ⟨hw', hs'⟩ := State.room_pathSends l b (s.pathSend port peer (g s a)) hwaiting (by rw [hlength]; omega)
      refine ⟨hw', hs'.trans ?_⟩
      rw [hseq, Nat.mod_add_mod, List.length_cons (a := a), Nat.add_assoc, Nat.add_comm 1]

end

section
variable {s : State} {peer : Nat} {epoch : Word} {st : StandId} {second b : Bool}

/-- A frame with one fragment of a shard (Table 11.6). -/
def State.fragFrame (s : State) (peer epoch st : Nat) (second : Bool) (bs : List Byte) (n : Nat) : Frame :=
  { s.frameHdr 12 peer 6 s.ownPlace with
    info := n * 65536, payload := beBytes 4 epoch ++ beBytes 2 st ++ beBytes 2 (b2n second) ++ fragBytes bs n }
/-- A shard leaves for the peer. -/
def State.shardSent (s : State) (peer epoch st : Nat) (second : Bool) (bs : List Byte) : State :=
  (List.range 513).foldl (fun s n => s.pathSend 12 peer (s.fragFrame peer epoch st second bs n)) s
theorem exec_shardReq_none (h : s.peerBank epoch.toNat st second = none) :
    exec (.shardReq peer epoch st second) s = .next (s.count 0x52800D) := by
  change execShardReq peer epoch st second s = _
  rw [execShardReq, h]
theorem exec_shardReq (h : s.peerBank epoch.toNat st second = some b) : exec (.shardReq peer epoch st second) s =
    .next ((s.mastersRead b st).shardSent peer epoch.toNat st second (s.shardBytes b st)) := by
  change execShardReq peer epoch st second s = _
  rw [execShardReq, h]
  rfl
theorem State.shardSent_leaves (s : State) (peer epoch st : Nat) (second : Bool) (bs : List Byte) :
    let x := s.path 12 peer
    let t := s.shardSent peer epoch st second bs
    let y := t.path 12 peer
    s.transports t ∧ y.unacked.length + y.waiting.length = x.unacked.length + x.waiting.length + 513 ∧
      (x.waiting = [] → x.unacked.length ≤ 511 → y.waiting = [] ∧ y.nextSeq = (x.nextSeq + 513) % 2 ^ 32) := by
  have hcount : (List.range 513).length = 513 := List.length_range
  unfold State.shardSent
  generalize List.range 513 = l at hcount
  dsimp only
  refine ⟨State.transports_pathSends (fun s n => s.fragFrame peer epoch st second bs n) l s, ?_, fun hw hroom => ?_⟩
  · rw [State.length_pathSends (fun s n => s.fragFrame peer epoch st second bs n) l s, hcount]
  · match l, hcount with
    | n :: l, hcount =>
      have hcap : pathCap 12 = 1024 := rfl
      have hsent := State.room_pathSends (fun s n => s.fragFrame peer epoch st second bs n) l n s hw (by omega)
      rw [hcount] at hsent
      exact hsent

/-! ## Shards from a peer (R359) -/

/-- A fragment asked for is kept in the place of one that came before. -/
def State.fragKept (s : State) (frag st : Nat) (second : Bool) (bytes : List Byte) : State :=
  { s with grove := { s.grove with frags :=
      (s.grove.frags.filter fun f => !(f.1 == frag && f.2.1 == st && f.2.2.1 == second)) ++ [(frag, st, second, bytes)] } }
theorem exec_shardData {frag : Nat} {bytes : List Byte} (h : s.fragWanted frag epoch.toNat st second bytes.length = true) :
    exec (.shardData frag epoch st second bytes) s = .next (s.fragKept frag st second bytes) := if_pos h
theorem exec_shardData_foreign {frag : Nat} {bytes : List Byte} (h : s.fragWanted frag epoch.toNat st second bytes.length = false) :
    exec (.shardData frag epoch st second bytes) s = .next (s.count 0x531002) := if_neg (by rw [h]; decide)
theorem State.mem_fragKept (s : State) (frag st : Nat) (second : Bool) (bytes : List Byte) {g : Nat × Nat × Bool × List Byte}
    (h : g.1 ≠ frag ∨ g.2.1 ≠ st ∨ g.2.2.1 ≠ second) : g ∈ (s.fragKept frag st second bytes).grove.frags ↔ g ∈ s.grove.frags := by
  have hother : (!(g.1 == frag && g.2.1 == st && g.2.2.1 == second)) = true := by
    simp only [Bool.not_eq_true', Bool.and_eq_false_iff, beq_eq_false_iff_ne]
    tauto
  have hnew : g ≠ (frag, st, second, bytes) := by
    rintro rfl
    tauto
  simp only [State.fragKept, List.mem_append, List.mem_filter, List.mem_singleton, hother, hnew, and_true, or_false]

end

end Sys2Proof.Machine
end

section
/-! Frames, barriers across modules and shards for a peer, one command after the other (11 R343 to R359). -/

namespace Sys2Proof.Machine

/-- A transport frame that a port receives (R343, R344). -/
theorem State.frame_received {s : State} {p : PortId} {peer : Nat} {e : Ether} {b : List Byte} (h : s.carries p e peer b) :
    exec (.transportFrameReceive p e.toEtherHdr e.data) s = .next (s.transportIn p peer e.src b) :=
  congrArg Host.Outcome.next (State.etherIn_carries h)
/-- A round of resends, and what more than 16 of them within a millisecond do to a grove port (R344). -/
theorem State.resent_leaves {s : State} {p : PortId} {peer : Nat} (h : s.retxDue p peer = true) :
    let x := s.path p peer
    let rs := s.roundsNow p
    let t := if p.val < 12 ∧ 16 < rs.length then (s.retransmitted p peer).portFails p 0 else s.retransmitted p peer
    (t.path p peer).unacked.length = x.unacked.length ∧
      (∀ e, e ∈ (t.path p peer).unacked.take x.sent → e.1.retx = true ∧ e.2 = s.time.tick) ∧
      (t.path p peer).unacked.drop x.sent = x.unacked.drop x.sent ∧
      t.counter 0x528003 = (s.counter 0x528003 + min x.sent x.unacked.length) % 2 ^ 64 ∧ (t.port p).rounds = rs ∧
      (t.port p).st = (if p.val < 12 ∧ 16 < rs.length then 5 else (s.port p).st) ∧ t.mem = s.mem ∧ t.time = s.time := by
  obtain ⟨hpath, hcounter, hport, hmem, htime⟩ := State.retransmitted_leaves h
  obtain ⟨fpath, fcounter, fport, fmem, ftime⟩ := (s.retransmitted p peer).portFails_leaves p 0 peer
  obtain ⟨hlength, hmarked, hrest⟩ := s.resentPath_leaves p peer
  dsimp only
  split
  case isTrue =>
    rw [fpath, hpath, fport, hport]
    exact ⟨hlength, hmarked, hrest, fcounter.trans hcounter, rfl, rfl, fmem.trans hmem, ftime.trans htime⟩
  case isFalse =>
    rw [hpath, hport]
    exact ⟨hlength, hmarked, hrest, hcounter, rfl, rfl, hmem, htime⟩

/-- Settles O53, one command after the other. That frames beyond a path's capacity wait without bound (log 83) is the model's choice; with
room for all of them none waits. -/
theorem transportCommands : Obligations.TransportCommands := by
  unfold Obligations.TransportCommands
  intro s steady
  refine ⟨fun p peer e b hcarries => ?receive, fun p h data hpcs => congrArg Host.Outcome.next (State.etherIn_off hpcs),
    fun p peer a win => ⟨fun h => if_neg (by rw [h]; exact Bool.false_ne_true), fun h => ⟨_, exec_ack h .., State.ackPath_leaves ..⟩⟩,
    fun p peer => ⟨fun h => if_neg (by rw [h]; exact Bool.false_ne_true), fun h => ⟨_, exec_retransmitTimeout h, State.resent_leaves h⟩⟩, fun p f => ?deliver,
    fun c q place => ⟨exec_arrive_none, fun hhere hall => ?wait, fun hhere hall => ?told⟩,
    fun c q => ⟨exec_complete_none, fun hon => ?complete⟩,
    fun c q place => ⟨exec_withdraw_none, fun hon => ⟨_, exec_withdraw hon.1 hon.2.1 hon.2.2, State.withdrawn_leaves ..⟩⟩,
    fun _ _ => rfl, fun peer epoch st second => ⟨fun h => State.gives_count (exec_shardReq_none h), fun h => ?request⟩,
    fun frag epoch st second bytes => ⟨fun h => State.gives_count (exec_shardData_foreign h), fun h => ⟨_, exec_shardData h, rfl,
      List.mem_append_right _ (List.mem_singleton.mpr rfl), fun g hg => State.mem_fragKept _ _ _ _ _ hg⟩⟩⟩
  case receive =>
    have hexec := State.frame_received hcarries
    refine ⟨fun hb => State.gives_count (hexec.trans ?_), fun hb hs => State.gives_count (hexec.trans ?_),
      fun hb hs hk hup => hexec.trans ?_, fun ⟨hup, hb, hs, hk⟩ hp hk1 => ⟨_, hexec.trans ?_, State.frameIn_leaves hp hk1⟩⟩
    · rw [State.transportIn_bad hb]
    · rw [State.transportIn_stale hb hs]
    · rw [State.transportIn_frame hb hs hk, hup]
      rfl
    · rw [State.transportIn_frame hb hs hk, hup]
      rfl
  case deliver =>
    refine ⟨exec_relay_other, exec_reduce_other, fun hk hf hn => ⟨_, exec_relay hk hf, ?_⟩, fun hk hf hn => ⟨_, exec_reduce hk hf, ?_⟩,
      fun hk hf hn => ⟨_, exec_relay hk hf, ?_⟩, fun hk hf hn => ⟨_, exec_reduce hk hf, ?_⟩⟩
    · rw [hn]
      exact ⟨State.tookFrame_count hn, rfl, s.countsOnly_count 0x528005 1⟩
    · rw [hn]
      exact ⟨State.tookFrame_count hn, rfl, s.countsOnly_count 0x528005 1⟩
    · rw [hn]
      exact s.relayed_leaves p f
    · rw [hn]
      exact s.injected_leaves p f
  case wait =>
    obtain ⟨hroot, hd, hs⟩ := hhere
    exact ⟨_, (exec_arrive hroot).trans (congrArg Host.Outcome.next (State.rootArrive_waits hd hs hall)), rfl, State.chan_modChan ..,
      fun k hk => State.chan_modChan_ne s _ hk⟩
  case told =>
    obtain ⟨hroot, hd, hs⟩ := hhere
    have hdone : ((s.modChan c fun x => x.withArrival (place, q)).chan c).done < q := by
      rw [State.chan_modChan]
      exact hd
    exact ⟨_, (exec_arrive hroot).trans (congrArg Host.Outcome.next (State.rootArrive_tells hd hs hall)), State.allTold_leaves hdone⟩
  case complete =>
    obtain ⟨hext, hd, harmed⟩ := hon
    refine ⟨_, exec_complete hext, ?_⟩
    rw [State.applyComplete_on hd harmed]
    refine ⟨?_, ?_, fun k hk => ?_, State.counter_completed .., State.completed_channel, State.completed_switch, State.completed_retire⟩
    · rw [State.completed_frame]
    · rw [State.chan_completed, State.chan_modChan]
    · rw [State.chan_completed, State.chan_modChan_ne _ _ hk]
  case request =>
    obtain ⟨b, hb⟩ := Option.isSome_iff_exists.mp h
    have hread := s.readsTierB_mastersRead b st
    obtain ⟨hsent, htotal, hroom⟩ := (s.mastersRead b st).shardSent_leaves peer epoch.toNat st second (s.shardBytes b st)
    rw [hread.path] at htotal hroom
    exact ⟨_, exec_shardReq hb, ⟨hsent.mem.trans hread.mem, hsent.time.trans hread.time, fun k => (hsent.port k).trans (hread.port k)⟩,
      htotal, hroom, fun hclean => hsent.weights.trans (State.weights_mastersRead hclean b st)⟩

end Sys2Proof.Machine
end
